-- ==== Sys2Proof/Word.lean ====
section
/-! DEFINITION. The word types of the block: what the spec treats as bits. -/
namespace Sys2Proof

/-- One byte (R11: byte 0 of a multi-byte value holds bits [7:0]). -/
abbrev Byte := BitVec 8

/-- One 32-bit register word (R409). -/
abbrev Word := BitVec 32

end Sys2Proof
end

