-- ==== Sys2Proof/Types.lean ====
section
/-! DEFINITION. The operands of the commands: what a sender, a pin, a converter or a neighbour brings with each. -/
namespace Sys2Proof

/-- A fibre port (spec/00_scope.md): A faces west, B faces east. -/
inductive Port where
  | a | b
  deriving DecidableEq, Repr

/-- A trunk (spec/13_chain_and_paired_spans.md). -/
inductive Side where
  | w | e
  deriving DecidableEq, Repr

/-- Where an Ibend frame arrives or leaves: a trunk, or the local port. -/
inductive LinkPort where
  | w | e | lan
  deriving DecidableEq, Repr

/-- The carrier of a dictionary request (R382). -/
inductive Path where
  | pcie | spi | localPort | link
  deriving DecidableEq, Repr

/-- Who sends a dictionary request and how (R387): the path and its source, the transaction, the session,
the target node, and whether it finds the server busy and waits in its queue until the next request is served (R392, log 80). -/
structure OdCaller where
  path : Path
  source : Nat
  transaction : Nat
  session : Nat
  node : Nat
  waits : Bool
  deriving DecidableEq, Repr

/-- A dictionary request's object: index, subindex, and flag bit 0 (active copy). -/
structure OdKey where
  idx : Nat
  sub : Nat
  active : Bool
  deriving DecidableEq, Repr

/-- A fabric access (R409): initiator ID, fabric address, width in bytes. -/
structure Access where
  init : Nat
  addr : Nat
  width : Nat
  deriving DecidableEq, Repr

/-- A request that an object and a register both make: the caller of the object, or the initiator of the register. -/
inductive Via where
  | od (c : OdCaller)
  | reg (init : Nat)
  deriving DecidableEq, Repr

/-- The levels the input pins hold when a start begins (R496, R498): true is high. -/
structure PinLevels where
  ilockN : Bool
  vmainOk : Bool
  ocxoRdy : Bool
  deriving DecidableEq, Repr

/-- An Ibend frame's header fields and payload (R337); also the link-local key-exchange frame of a link that is not
secured (R341, R475). -/
structure Frame where
  cls : Nat
  type : Nat
  linkLocal : Bool
  wrapped : Bool
  dst : Nat
  src : Nat
  hops : Nat
  epoch : Nat
  seq : Nat
  payload : List Byte
  /-- The contents of a frame whose byte layout the spec does not give, in the order its rule lists them (log 13). -/
  fields : List Nat
  deriving DecidableEq, Repr

/-- What a customer image's header declares (R232), its byte layout not being given (log 41): cores, cluster memory bytes,
stream ring bytes per port, code bytes per core, subscriptions per port (bits: 0 Lauter, 1 quality, 2 and 3 decimated
channels, 4 detection, 5 track), Tide work, name, and whether the CRC-32C holds and where the image ends. -/
structure ImageHeader where
  cores : Nat := 1
  mem : Nat := 0
  ringA : Nat := 0
  ringB : Nat := 0
  code : Nat := 0
  subA : Nat := 0
  subB : Nat := 0
  tideWork : Bool := false
  name : List Byte := []
  crcOk : Bool := true
  length : Nat := 0
  deriving DecidableEq, Repr

/-- A vector operand of a core's instruction (R206): a register, or what the X or Y move of the same instruction loads. -/
inductive VSrc where
  | v (n : Nat)
  | x
  | y
  deriving DecidableEq, Repr

/-- An X or Y move (R205): load or store of `bytes` bytes (2 to 16) at an address generator's address, from or to the bytes
of a vector register from `ofs` on. -/
structure Move where
  store : Bool
  ag : Nat
  bytes : Nat
  reg : Nat
  ofs : Nat
  deriving DecidableEq, Repr

/-- The moves an instruction carries (R205). -/
structure Moves where
  x : Option Move
  y : Option Move
  deriving DecidableEq, Repr

/-- Multiply-accumulate operations (R206): the accumulator takes the product, adds or subtracts it. -/
inductive MacOp where
  | mul | add | sub
  deriving DecidableEq, Repr

/-- Vector arithmetic and logic. -/
inductive AluOp where
  | add | sub | abs | min | max | cmpEq | cmpLt | cmpLe | select | shl | shr | sar | land | lor | lxor | lnot
  deriving DecidableEq, Repr

/-- Scalar operations; `mul` gives the low and high words, `div` quotient and remainder. -/
inductive ScalarOp where
  | add | sub | land | lor | lxor | lnot | shl | shr | sar | mul | div | clz
  deriving DecidableEq, Repr

/-- Accumulator moves (R207): lanes to a vector with a right shift, clear, lane sum into lane 0. -/
inductive AccOp where
  | move (dst shift : Nat) (wide high saturate signed : Bool)
  | clear
  | laneSum
  deriving DecidableEq, Repr

/-- Condition of a branch on a scalar register. -/
inductive Cond where
  | always
  | zero (s : Nat)
  | nonzero (s : Nat)
  | negative (s : Nat)
  deriving DecidableEq, Repr

/-- Branch, call and return. -/
inductive Jump where
  | branch (target : Nat)
  | call (target : Nat)
  | ret
  deriving DecidableEq, Repr

/-- A scalar access to cluster memory: load or store of `bytes` bytes at S[addr] + ofs, from or to S[reg] (R205, R210). -/
structure ScalarMem where
  store : Bool
  bytes : Nat
  addr : Nat
  ofs : Int
  reg : Nat
  deriving DecidableEq, Repr

/-- An address generator's set-up (R208): memory 0 X or 1 Y, mode 0 linear, 1 modulo, 2 bit-reversed. -/
structure AgSetup where
  mem : Nat
  base : Nat
  index : Nat
  length : Nat
  step : Int
  mode : Nat
  deriving DecidableEq, Repr

/-- A core DMA descriptor (R203): places 0 X, 1 Y, 2 cluster memory, 3 pool SRAM, 4 Kiln SRAM, 5 and 6 the program's stream
rings of ports A and B; addresses within them. -/
structure DmaDesc where
  src : Nat
  srcAddr : Nat
  dst : Nat
  dstAddr : Nat
  len : Nat
  deriving DecidableEq, Repr

/-- What the Rayleigh converters X-I, X-Q, Y-I and Y-Q give for one launch (R83, R84): their codes, the first of them taken
`first` converter samples of 0.8 ns after t_launch, from the tail window before the launch to the end of its record (a
sample not listed is 0); and the points whose state cannot be read (R137). -/
structure SlotRecord where
  first : Int
  codes : List (List Int)
  lost : List Nat
  deriving DecidableEq, Repr

/-- What the Kiln converters I and Q give for one slot 0 launch (R83, R90), as a `SlotRecord`. -/
structure KilnRecord where
  first : Int
  codes : List (List Int)
  deriving DecidableEq, Repr

/-- What the manager has read of a paired span between two other nodes (R362): the node of its west end (port B) and of its
east end (port A), the pending P, M, C and B of both, and the sum of the west end's DelayIn and DelayOut in 100 ps. -/
structure SpanInfo where
  west : Nat
  east : Nat
  p : Nat
  m : Nat
  c : Nat
  b : Nat
  delays : Nat
  deriving DecidableEq, Repr

/-- What the world adds to a dictionary request: whether the flash takes a commit or a record it asks for (R400, R470), what
a customer image's header says (R232, log 41), and the spans between other nodes that the manager has read (R362). -/
structure Hint where
  ok : Bool := true
  hdr : Option ImageHeader := none
  spans : List SpanInfo := []
  deriving DecidableEq, Repr

/-- What is said of a Tide just ended at a port's converters: peaks of X-I, X-Q, Y-I, Y-Q and of Kiln I and Q (bits [11:4]
of the largest magnitude), and the clips of it (converter, time in ns) that lie in records still in progress at its end. -/
structure RxMeas where
  peaks : List Nat
  kPeaks : List Nat
  clips : List (Nat × Nat)
  kClips : List (Nat × Nat)
  deriving DecidableEq, Repr

/-- What a port's lock-ins and converters have measured over a Tide: the bias errors of PH, I and Q in DAC LSB (R65) and the
steps of Acquire's sweep done (R67), the far pilot's distance from its nominal offset in Hz, where it was received (R71), its
power in 0.01 dB below channel full scale (R359, R374), and the converters (R89, R90). -/
structure PortMeas where
  bias : List Int
  sweep : Nat
  pilotErr : Option Int
  pilotLevel : Nat
  rx : RxMeas
  deriving DecidableEq, Repr

end Sys2Proof
end

