-- ==== Sys2Proof/Syntax.lean ====
section
/-! DEFINITION. The commands: one constructor per row of spec/opcode_table.json. -/
namespace Sys2Proof

/-- The commands the block takes. -/
inductive Instr where
  /-- TIDE_EDGE (R24). -/
  | tideEdge (res : Nat) (ma : PortMeas) (mb : PortMeas)
  /-- FIRST_TIDE_START (R26). -/
  | firstTideStart (res : Nat)
  /-- TIDE_SLIP (R27). -/
  | tideSlip (res : Nat) (ma : PortMeas) (mb : PortMeas)
  /-- LAUNCH (R29). -/
  | launch (q : Port) (j : Nat)
  /-- PLAN_CHECK (R36). -/
  | planCheck (c : OdCaller) (q : Port)
  /-- STAGE_DEADLINE_OVERRUN (R46). -/
  | stageDeadlineOverrun (stage : Nat)
  /-- LASER_ENABLE (R75). -/
  | laserEnable (c : OdCaller) (l : Port)
  /-- LASER_DISABLE (R76). -/
  | laserDisable (c : OdCaller) (l : Port)
  /-- LASER_SETTLE_EXPIRY (R75). -/
  | laserSettleExpiry (q : Port)
  /-- PORT_STOP_COMPLETE (R76). -/
  | portStopComplete (q : Port)
  /-- BIAS_TRACK_ENTRY (R67). -/
  | biasTrackEntry (q : Port)
  /-- BIAS_REACQUIRE (R541). -/
  | biasReacquire (q : Port)
  /-- BIAS_ACQUIRE_FAIL (R67). -/
  | biasAcquireFail (q : Port)
  /-- PUMP_RAMP_DONE (R75). -/
  | pumpRampDone (q : Port)
  /-- LATENCY_CALIBRATION_DONE (R72). -/
  | latencyCalibrationDone (q : Port) (mean1 : Int) (mean2 : Int)
  /-- ENTER_LIVE (R75). -/
  | enterLive (q : Port)
  /-- LAUNCH_MISSING (R74). -/
  | launchMissing (q : Port) (ell : Nat)
  /-- LASER_FOLLOW_STEP (R71). -/
  | laserFollowStep (q : Port)
  /-- LASER_FOLLOW_PILOT_FOUND (R71). -/
  | laserFollowPilotFound (q : Port)
  /-- LASER_FOLLOW_SWEEP_FAIL (R71). -/
  | laserFollowSweepFail (q : Port)
  /-- INTERLOCK_OPEN (R78). -/
  | interlockOpen
  /-- INTERLOCK_CLOSE (R79). -/
  | interlockClose
  /-- TX_MUTE (R82). -/
  | txMute (init : Nat) (q : Port) (v : Nat)
  /-- RX_FOREGROUND_CAL (R100). -/
  | rxForegroundCal (q : Port) (kiln : Bool)
  /-- RX_FOREGROUND_CAL_DONE (R100). -/
  | rxForegroundCalDone (q : Port) (kiln : Bool) (pass : Bool) (res : List Int)
  /-- RX_BACKGROUND_CAL_RUN (R103). -/
  | rxBackgroundCalRun (q : Port) (kiln : Bool) (res : List Int)
  /-- RX_CAL_STALE (R104). -/
  | rxCalStale (q : Port) (kiln : Bool)
  /-- RX_CAL_HOLD (R104). -/
  | rxCalHold (init : Nat) (q : Port) (v : Nat)
  /-- SWASH_LAUNCH_RECORDS (R138). -/
  | swashLaunchRecords (q : Port) (r : SlotRecord)
  /-- SW_RESTART (R135). -/
  | swRestart (init : Nat) (q : Port) (v : Nat)
  /-- SW_ALIGN_HOLD (R129). -/
  | swAlignHold (init : Nat) (q : Port) (v : Nat)
  /-- DECIMATED_RECORD (R161). -/
  | decimatedRecord (q : Port) (c : Nat) (lost : List Nat)
  /-- BANK_LOAD (R151). -/
  | bankLoad (c : OdCaller) (q : Port) (ch : Nat) (b : Nat) (v : List Byte)
  /-- BANK_SELECT (R152). -/
  | bankSelect (c : OdCaller) (q : Port) (ch : Nat) (b : Nat)
  /-- BANK_SWAP (R152). -/
  | bankSwap (q : Port) (c : Nat)
  /-- LAUTER_RECORD (R168). -/
  | lauterRecord (q : Port) (lost : List Nat)
  /-- KILN_SHOT (R181). -/
  | kilnShot (q : Port) (r : KilnRecord) (unlocked : Bool)
  /-- KILN_ACCUMULATION_START (R182). -/
  | kilnAccumulationStart (q : Port)
  /-- KILN_ACCUMULATION_COMPLETE (R182). -/
  | kilnAccumulationComplete (q : Port)
  /-- KILN_FIT_DISPATCH (R220). -/
  | kilnFitDispatch (q : Port)
  /-- KILN_FIT_COMPLETE (R189). -/
  | kilnFitComplete (q : Port) (poison : List Nat)
  /-- KILN_FIT_OVERRUN (R183). -/
  | kilnFitOverrun (q : Port) (fitted : List Nat) (poison : List Nat)
  /-- KILN_PROFILE_ASSEMBLY (R197). -/
  | kilnProfileAssembly (q : Port)
  /-- KILN_ACC_RESTART (R184). -/
  | kilnAccRestart (init : Nat) (q : Port) (v : Nat)
  /-- SHAPE_CAL (R187). -/
  | shapeCal (c : OdCaller) (q : Port)
  /-- SHAPE_CAL_DONE (R187). -/
  | shapeCalDone (q : Port)
  /-- FREQ_REF_CAL_RUN (R194). -/
  | freqRefCalRun (q : Port) (count : Nat)
  /-- DETECTION_DISPATCH (R218). -/
  | detectionDispatch (q : Port)
  /-- DETECTION_CORE_END (R219). -/
  | detectionCoreEnd (q : Port) (c : Nat)
  /-- TRACKING_DISPATCH (R218). -/
  | trackingDispatch
  /-- TRACK_RECORD (R231). -/
  | trackRecord (q : Port)
  /-- CORE_ABORT_TIMEOUT (R221). -/
  | coreAbortTimeout (c : Nat)
  /-- CORE_EXCEPTION (R223). -/
  | coreException (c : Nat) (cause : Nat) (fitted : Nat)
  /-- CORE_STOP_TIMEOUT (R223). -/
  | coreStopTimeout (c : Nat)
  /-- BREW_STREAM_INPUT (R214). -/
  | brewStreamInput (q : Port)
  /-- PROGRAM_IMAGE (R232). -/
  | programImage (c : OdCaller) (p : Nat) (v : List Byte) (hdr : ImageHeader)
  /-- PROGRAM_RUN (R233). -/
  | programRun (c : OdCaller) (p : Nat)
  /-- PROGRAM_STOP (R233). -/
  | programStop (c : OdCaller) (p : Nat)
  /-- VECTOR_MULTIPLY_ACCUMULATE (R206). -/
  | vectorMultiplyAccumulate (c : Nat) (op : MacOp) (complex : Bool) (signedA : Bool) (signedB : Bool) (dst : Nat) (a : VSrc) (b : VSrc) (m : Moves)
  /-- VECTOR_ARITHMETIC_LOGIC (R205). -/
  | vectorArithmeticLogic (c : Nat) (op : AluOp) (wide : Bool) (signed : Bool) (dst : Nat) (a : VSrc) (b : VSrc) (d : VSrc) (m : Moves)
  /-- ACCUMULATOR_MOVE (R207). -/
  | accumulatorMove (c : Nat) (src : Nat) (op : AccOp) (m : Moves)
  /-- SEARCH (R209). -/
  | search (c : Nat) (isMax : Bool) (wide : Bool) (signed : Bool) (src : VSrc) (base : Nat) (m : Moves)
  /-- SEARCH_RESET (R209). -/
  | searchReset (c : Nat) (isMax : Bool) (wide : Bool) (signed : Bool) (m : Moves)
  /-- SEARCH_READ (R209). -/
  | searchRead (c : Nat) (dstV : Nat) (dstI : Nat) (m : Moves)
  /-- SCALAR_OPERATION (R207). -/
  | scalarOperation (c : Nat) (op : ScalarOp) (signed : Bool) (dst : Nat) (dst2 : Nat) (a : Nat) (b : Nat) (m : Moves)
  /-- MEMORY_MOVE (R205). -/
  | memoryMove (c : Nat) (mem : Option ScalarMem) (m : Moves)
  /-- ADDRESS_GENERATOR_SETUP (R208). -/
  | addressGeneratorSetup (c : Nat) (n : Nat) (g : AgSetup) (m : Moves)
  /-- BRANCH_CALL_RETURN (R223). -/
  | branchCallReturn (c : Nat) (j : Jump) (cond : Cond) (m : Moves)
  /-- HARDWARE_LOOP (R203). -/
  | hardwareLoop (c : Nat) (last : Nat) (count : Nat) (m : Moves)
  /-- WAIT_FOR_EVENT (R203). -/
  | waitForEvent (c : Nat) (m : Moves)
  /-- HALT (R221). -/
  | halt (c : Nat) (m : Moves)
  /-- QUEUE_CORE_DMA (R203). -/
  | queueCoreDma (c : Nat) (desc : DmaDesc) (m : Moves)
  /-- WAIT_DMA_COMPLETION (R203). -/
  | waitDmaCompletion (c : Nat) (left : Nat) (m : Moves)
  /-- CORE_DMA_COMPLETE (R203). -/
  | coreDmaComplete (c : Nat) (err : Bool)
  /-- PUBLISH_OUTPUT_RECORD (R227). -/
  | publishOutputRecord (c : Nat) (bytes : List Byte) (m : Moves)
  /-- RING_ENTRY_WRITE (R239). -/
  | ringEntryWrite (q : Port) (ok : Bool)
  /-- GAP_MARKER_WRITE (R243). -/
  | gapMarkerWrite (q : Port) (c : Nat)
  /-- TRIGGER_DETECTION (R244). -/
  | triggerDetection (q : Port)
  /-- TRIGGER_EVT_INPUT (R244). -/
  | triggerEvtInput (n : Nat)
  /-- TRIGGER_TIME (R244). -/
  | triggerTime (c : OdCaller) (d : Nat) (t : Nat)
  /-- TRIGGER_TRUNK_MESSAGE (R247). -/
  | triggerTrunkMessage (inp : LinkPort) (f : Frame)
  /-- TRIGGER_QUEUE_SERVE (R245). -/
  | triggerQueueServe (q : Port)
  /-- CAPTURE_FREEZE (R250). -/
  | captureFreeze (d : Nat)
  /-- CAPTURE_ARM (R250). -/
  | captureArm (c : OdCaller) (d : Nat)
  /-- CAPTURE_DISARM (R253). -/
  | captureDisarm (c : OdCaller) (d : Nat)
  /-- CAPTURE_RELEASE (R256). -/
  | captureRelease (c : OdCaller) (d : Nat)
  /-- EXPORT_RAW (R255). -/
  | exportRaw (c : OdCaller) (d : Nat)
  /-- EXPORT_CASK_PCIE (R255). -/
  | exportCaskPcie (c : OdCaller) (d : Nat)
  /-- EXPORT_CASK_TRUNK (R255). -/
  | exportCaskTrunk (c : OdCaller) (d : Nat)
  /-- EXPORT_ABORT (R255). -/
  | exportAbort (c : OdCaller) (d : Nat)
  /-- EXPORT_JOB_END (R255). -/
  | exportJobEnd (d : Nat) (ok : Bool) (errs : List (Nat × List Nat))
  /-- DRAM_TRAINING (R264). -/
  | dramTraining (fails : Nat)
  /-- ZQ_SHORT_CAL (R263). -/
  | zqShortCal
  /-- REFRESH_DUE (R276). -/
  | refreshDue (ch : Nat) (cs : Nat) (queued : Bool)
  /-- POSTPONED_REFRESH_ISSUE (R276). -/
  | postponedRefreshIssue (ch : Nat) (cs : Nat)
  /-- DRAM_TEMPERATURE_POLL (R275). -/
  | dramTemperaturePoll (status : List (Option Bool))
  /-- DRAM_READ (R271). -/
  | dramRead (init : Nat) (addr : Nat) (flips : List Nat) (wrong : Option Nat) (act : Bool)
  /-- DRAM_WRITE (R271). -/
  | dramWrite (init : Nat) (addr : Nat) (data : List Byte) (tag : Nat) (poison : Bool) (flips : List Nat) (act : Bool)
  /-- DRAM_PARTIAL_WRITE (R271). -/
  | dramPartialWrite (init : Nat) (addr : Nat) (data : List Byte) (tag : Nat) (poison : Bool) (tflips : List Nat) (flips : List Nat) (wrong : Option Nat) (act : Bool)
  /-- POWER_DOWN_ENTRY (R279). -/
  | powerDownEntry (ch : Nat) (cs : Nat)
  /-- SCRUB_LINE (R280). -/
  | scrubLine (flips : List Nat) (wrong : Option Nat) (act : Bool)
  /-- CE_WINDOW_EXPIRY (R280). -/
  | ceWindowExpiry
  /-- RANK_RETIRE (R284). -/
  | rankRetire (c : OdCaller) (rank : Nat)
  /-- MIGRATION_COPY_END (R283). -/
  | migrationCopyEnd (ch : Nat) (errs : List (Nat × List Nat))
  /-- CASK_SUBMIT (R290). -/
  | caskSubmit (init : Nat) (e : Nat) (v : Nat)
  /-- CASK_JOB_START (R291). -/
  | caskJobStart (e : Nat)
  /-- CASK_JOB_END (R291). -/
  | caskJobEnd (e : Nat) (errs : List (Nat × List Nat))
  /-- CASK_ABORT (R292). -/
  | caskAbort (init : Nat) (e : Nat)
  /-- CASK_DISABLE_FLUSH (R292). -/
  | caskDisableFlush (init : Nat) (e : Nat)
  /-- OCXO_WARM (R308). -/
  | ocxoWarm (rdyMs : Nat) (freqs : List Int) (upS : Nat)
  /-- OCXO_ALARM (R309). -/
  | ocxoAlarm (rdyFell : Bool)
  /-- PLL_LOCK (R310). -/
  | pllLock (which : Nat)
  /-- PLL_LOSS_OF_LOCK (R310). -/
  | pllLossOfLock (which : Nat)
  /-- SYNTH_UNLOCK (R310). -/
  | synthUnlock (p : Port)
  /-- SYNTH_RELOCK (R311). -/
  | synthRelock (p : Port)
  /-- SERVO_SAMPLE (R312). -/
  | servoSample (dtMs : Nat)
  /-- TIME_LOCK (R314). -/
  | timeLock
  /-- TIME_HOLDOVER (R314). -/
  | timeHoldover (at_ : Nat)
  /-- HOLDOVER_LIMIT (R314). -/
  | holdoverLimit
  /-- RTC_WRITE_BACK (R313). -/
  | rtcWriteBack
  /-- GNSS_WAIT_EXPIRY (R316). -/
  | gnssWaitExpiry
  /-- PTP_SYNC_SEND (R317). -/
  | ptpSyncSend (tw : Int) (te : Int) (tl : Int)
  /-- PDELAY_REQ_SEND (R317). -/
  | pdelayReqSend
  /-- ANNOUNCE_SEND (R317). -/
  | announceSend
  /-- PTP_EVENT_FRAME (R318). -/
  | ptpEventFrame (q : LinkPort) (kind : Nat) (domain : Nat) (seq : Nat) (t1 : Int) (t2 : Int) (t3 : Int) (t4 : Int) (corr : Int) (res : Int)
  /-- TOD_SENTENCE (R319). -/
  | todSentence (kind : Nat) (sumOk : Bool) (statusA : Bool) (second : Nat) (at_ : Nat)
  /-- PPS_EDGE (R320). -/
  | ppsEdge
  /-- TIU_EVENT (R321). -/
  | tiuEvent (inp : Nat) (t : Nat) (rising : Bool)
  /-- LMON_EVENT (R330). -/
  | lmonEvent (q : Port)
  /-- TIU_SHORT_PULSE (R323). -/
  | tiuShortPulse (inp : Nat)
  /-- TIU_DEAD_TIME_DROP (R324). -/
  | tiuDeadTimeDrop (inp : Nat) (t : Nat) (rising : Bool)
  /-- TIU_STUCK (R325). -/
  | tiuStuck (inp : Nat)
  /-- MEAS_ARM (R326). -/
  | measArm (v : Via)
  /-- MEAS_MODE_OFF (R327). -/
  | measModeOff (c : OdCaller)
  /-- INTERP_CAL_RUN (R329). -/
  | interpCalRun (inp : Nat) (one1 : Int) (two1 : Int) (one2 : Int) (two2 : Int)
  /-- INTERP_CAL_STALE (R329). -/
  | interpCalStale (inp : Nat) (at_ : Nat)
  /-- TIU_TS_AUX_READ (R333). -/
  | tiuTsAuxRead (init : Nat) (wd : Nat)
  /-- IBEND_FRAME_RECEIVE (R339). -/
  | ibendFrameReceive (inp : LinkPort) (f : Frame) (ok : Bool) (at_ : Nat) (waits : Bool) (h : Hint)
  /-- KEEPALIVE_SEND (R342). -/
  | keepaliveSend
  /-- LINK_LOSS (R342). -/
  | linkLoss (d : Side) (pcs : Bool)
  /-- LINK_UP (R342). -/
  | linkUp (d : Side) (peer : Nat)
  /-- TOPOLOGY_FRAME (R343). -/
  | topologyFrame (inp : LinkPort) (f : Frame) (beyond : List Nat)
  /-- RING_RESTORE (R344). -/
  | ringRestore (d : Side)
  /-- HEARTBEAT_RECEIVE (R346). -/
  | heartbeatReceive (inp : LinkPort) (f : Frame)
  /-- MANAGER_TIMEOUT (R346). -/
  | managerTimeout
  /-- MANAGER_LISTEN_END (R347). -/
  | managerListenEnd
  /-- JOIN_FRAME (R336). -/
  | joinFrame (inp : LinkPort) (f : Frame) (answer : Option Bool)
  /-- EPOCH_REQUEST (R348). -/
  | epochRequest (c : OdCaller) (lead : Nat) (spans : List SpanInfo)
  /-- PREPARE (R349). -/
  | prepare (inp : LinkPort) (f : Frame)
  /-- ACKNOWLEDGEMENT (R350). -/
  | acknowledgement (inp : LinkPort) (f : Frame)
  /-- CANCEL (R350). -/
  | cancel (inp : LinkPort) (f : Frame)
  /-- EPOCH_ANSWER_DEADLINE (R350). -/
  | epochAnswerDeadline
  /-- EPOCH_APPLY (R350). -/
  | epochApply
  /-- RESYNCHRONISE (R352). -/
  | resynchronise (spans : List SpanInfo)
  /-- FAULT_REPORT (R355). -/
  | faultReport (inp : LinkPort) (f : Frame)
  /-- FAULT_CLEAR (R356). -/
  | faultClear (c : OdCaller) (key : Nat)
  /-- PAIR_STATUS (R367). -/
  | pairStatus (inp : LinkPort) (f : Frame)
  /-- PARTNER_UNREACHABLE (R367). -/
  | partnerUnreachable (q : Port)
  /-- PILOT_FRAME_RECEIVE (R360). -/
  | pilotFrameReceive (q : Port) (syms : List Bool) (arr : Nat)
  /-- PILOT_LOSS (R359). -/
  | pilotLoss (q : Port) (drops : List Nat) (at_ : Nat)
  /-- TAKEOVER_APPLY (R367). -/
  | takeoverApply (q : Port)
  /-- FORCE_TAKEOVER (R367). -/
  | forceTakeover (c : OdCaller) (q : Port)
  /-- BREAK_POSITION_REPORT (R368). -/
  | breakPositionReport (q : Port)
  /-- PAIR_YIELD (R369). -/
  | pairYield (q : Port)
  /-- PAIR_RESTORE_HOLD (R369). -/
  | pairRestoreHold (x : SpanInfo)
  /-- HANDOFF_RECEIVE (R372). -/
  | handoffReceive (q : Port) (inp : LinkPort) (f : Frame)
  /-- HANDOFF_ACK (R372). -/
  | handoffAck (q : Port) (inp : LinkPort) (f : Frame)
  /-- HANDOFF_TIMEOUT (R372). -/
  | handoffTimeout (q : Port) (track : Nat)
  /-- KEY_EXCHANGE_FRAME (R475). -/
  | keyExchangeFrame (d : Side) (f : Frame)
  /-- KEY_EXCHANGE_TIMEOUT (R475). -/
  | keyExchangeTimeout (d : Side)
  /-- KEY_EXCHANGE_RETRY (R475). -/
  | keyExchangeRetry (d : Side)
  /-- REKEY (R477). -/
  | rekey (d : Side)
  /-- REKEY_RETRY (R477). -/
  | rekeyRetry (d : Side)
  /-- OLD_ASSOCIATION_EXPIRY (R477). -/
  | oldAssociationExpiry (d : Side)
  /-- CHN_DISABLE (R432). -/
  | chnDisable (init : Nat)
  /-- OD_READ (R389). -/
  | odRead (c : OdCaller) (k : OdKey)
  /-- OD_WRITE (R391). -/
  | odWrite (c : OdCaller) (k : OdKey) (v : List Byte) (h : Hint)
  /-- OD_BROADCAST_WRITE (R385). -/
  | odBroadcastWrite (c : OdCaller) (k : OdKey) (v : List Byte) (h : Hint)
  /-- OD_INFO (R390). -/
  | odInfo (c : OdCaller) (k : OdKey)
  /-- OD_UPLOAD_START (R398). -/
  | odUploadStart (c : OdCaller) (k : OdKey)
  /-- OD_UPLOAD_SEGMENT (R398). -/
  | odUploadSegment (c : OdCaller) (k : OdKey) (ofs : Nat)
  /-- OD_DOWNLOAD_START (R396). -/
  | odDownloadStart (c : OdCaller) (k : OdKey) (total : Nat) (crc : Nat)
  /-- OD_DOWNLOAD_SEGMENT (R396). -/
  | odDownloadSegment (c : OdCaller) (k : OdKey) (ofs : Nat) (v : List Byte) (h : Hint)
  /-- OD_TRANSFER_ABORT (R397). -/
  | odTransferAbort (c : OdCaller) (k : OdKey)
  /-- OD_OPEN_SESSION (R383). -/
  | odOpenSession (c : OdCaller) (level : Nat) (token : List Byte)
  /-- OD_CLOSE_SESSION (R383). -/
  | odCloseSession (c : OdCaller)
  /-- OD_UNSUPPORTED_SERVICE (R389). -/
  | odUnsupportedService (c : OdCaller) (k : OdKey) (svc : Nat) (v : List Byte)
  /-- OD_FORWARD_TIMEOUT (R384). -/
  | odForwardTimeout (c : OdCaller) (node : Nat)
  /-- SESSION_EXPIRY (R383). -/
  | sessionExpiry (num : Nat)
  /-- TRANSFER_IDLE_TIMEOUT (R397). -/
  | transferIdleTimeout (key : Nat)
  /-- UPLOAD_SNAPSHOT_TIMEOUT (R398). -/
  | uploadSnapshotTimeout (path : Path) (source : Nat) (key : Nat)
  /-- STORE_COMMIT (R399). -/
  | storeCommit (ok : Bool)
  /-- STORE_NOW (R399). -/
  | storeNow (c : OdCaller) (ok : Bool)
  /-- STORE_RETRY (R400). -/
  | storeRetry (ok : Bool)
  /-- RESTORE_DEFAULTS (R400). -/
  | restoreDefaults (c : OdCaller)
  /-- DICTIONARY_CARRIER_POST (R437). -/
  | dictionaryCarrierPost (e : Nat) (w0 : Nat) (w1 : Nat) (w2 : Nat) (w3 : Nat) (waits : Bool) (h : Hint)
  /-- REGISTER_WRITE (R409). -/
  | registerWrite (a : Access) (v : Nat)
  /-- SEQ_STATUS_WRITE (R412). -/
  | seqStatusWrite (a : Access) (v : Nat)
  /-- TIDE_NUM_LO_READ (R41). -/
  | tideNumLoRead (init : Nat) (wd : Nat)
  /-- IND_DATA_READ (R417). -/
  | indDataRead (init : Nat) (wd : Nat) (bad : Bool)
  /-- IND_DATA_WRITE (R417). -/
  | indDataWrite (init : Nat) (v : Nat)
  /-- MB_POST (R433). -/
  | mbPost (init : Nat) (e : Nat) (d : Nat) (len : Nat)
  /-- MB_RX_HDR_READ (R433). -/
  | mbRxHdrRead (init : Nat) (wd : Nat) (e : Nat) (src : Nat)
  /-- MB_DB_PEND_READ (R435). -/
  | mbDbPendRead (init : Nat) (wd : Nat) (e : Nat)
  /-- MB_DB_CLR (R435). -/
  | mbDbClr (init : Nat) (e : Nat) (v : Nat)
  /-- MB_DB_RING (R435). -/
  | mbDbRing (init : Nat) (e : Nat) (v : Nat)
  /-- ENDPOINT_RESET (R436). -/
  | endpointReset (e : Nat)
  /-- SEM_READ (R438). -/
  | semRead (init : Nat) (wd : Nat) (n : Nat)
  /-- SEM_WRITE (R438). -/
  | semWrite (init : Nat) (n : Nat) (v : Nat)
  /-- PCIE_RESET (R426). -/
  | pcieReset
  /-- EXPORT_RING_ENTRY (R424). -/
  | exportRingEntry
  /-- EXPORT_VECTOR (R424). -/
  | exportVector (n : Nat)
  /-- EXPORT_RING_RP_WRITE (R427). -/
  | exportRingRpWrite (init : Nat) (n : Nat) (v : Nat)
  /-- SPI_WRITE_FRAME (R428). -/
  | spiWriteFrame (b : List Byte)
  /-- SPI_READ_FRAME (R428). -/
  | spiReadFrame (b : List Byte)
  /-- SPI_RESET_FRAME (R430). -/
  | spiResetFrame
  /-- SPI_FRAME_ABORT (R430). -/
  | spiFrameAbort (b : List Byte) (n : Nat)
  /-- HK_SLOT_CONVERSION (R443). -/
  | hkSlotConversion (slot : Nat) (vp : Int) (vn : Int) (vref : Int)
  /-- HK_SCAN_PASS_START (R444). -/
  | hkScanPassStart
  /-- AUX_DATA_READ (R445). -/
  | auxDataRead (init : Nat) (wd : Nat) (done : Nat)
  /-- INJECT_INPUT (R446). -/
  | injectInput (v : Via) (e : Nat)
  /-- HK_SELF_CAL (R447). -/
  | hkSelfCal (v : Option Via)
  /-- HK_SELF_CAL_DONE (R448). -/
  | hkSelfCalDone (o1 : Int) (o2 : Int) (g1 : Nat) (g2 : Nat)
  /-- HK_SELF_CAL_STALE (R448). -/
  | hkSelfCalStale
  /-- SYS_CAL_ZERO (R449). -/
  | sysCalZero (c : OdCaller) (input : Nat)
  /-- SYS_CAL_FULL (R449). -/
  | sysCalFull (c : OdCaller) (input : Nat)
  /-- SYS_CAL_DONE (R449). -/
  | sysCalDone (s1 : Int) (s2 : Int)
  /-- REFIN_LOST (R442). -/
  | refinLost
  /-- REFRDY (R442). -/
  | refrdy
  /-- BRIDGE_CONVERSION_END (R451). -/
  | bridgeConversionEnd (n : Nat) (runs : List (Nat × Int × Nat))
  /-- BRIDGE_RESULT (R452). -/
  | bridgeResult (n : Nat)
  /-- BRIDGE_BREAK_DETECT (R453). -/
  | bridgeBreakDetect (n : Nat) (drive : Int) (vs : Int) (vp : Int) (vn : Int)
  /-- DAC_TRIM_RUN (R462). -/
  | dacTrimRun (q : Port) (res : List Int)
  /-- ATTEST_CHALLENGE (R469). -/
  | attestChallenge (c : OdCaller) (v : List Byte)
  /-- DEVICE_CERTIFICATE (R468). -/
  | deviceCertificate (c : OdCaller) (v : List Byte)
  /-- OWNER_KEY (R470). -/
  | ownerKey (c : OdCaller) (v : List Byte) (ok : Bool)
  /-- OWNER_UNLOCK (R473). -/
  | ownerUnlock (c : OdCaller) (v : List Byte)
  /-- OWNER_RELEASE (R473). -/
  | ownerRelease (c : OdCaller) (v : List Byte)
  /-- OWNER_TRANSFER (R473). -/
  | ownerTransfer (c : OdCaller) (v : List Byte)
  /-- OWNER_LOCK (R474). -/
  | ownerLock (c : OdCaller)
  /-- UPDATE_TOKEN (R483). -/
  | updateToken (c : OdCaller) (v : List Byte)
  /-- UPDATE_DISARM (R484). -/
  | updateDisarm (c : OdCaller)
  /-- UPDATE_APPLY_RESTART (R484). -/
  | updateApplyRestart (c : OdCaller)
  /-- UPDATE_APPLY_NEXT_START (R484). -/
  | updateApplyNextStart (c : OdCaller)
  /-- UPDATE_FORCE_FALLBACK (R484). -/
  | updateForceFallback (c : OdCaller)
  /-- IMAGE_INSTALL (R485). -/
  | imageInstall (vbatOk : Bool)
  /-- CONFIRM (R486). -/
  | confirm (who : Option OdCaller)
  /-- CONFIRM_TIMEOUT (R486). -/
  | confirmTimeout
  /-- FALLBACK (R487). -/
  | fallback
  /-- BOOT (R479). -/
  | boot (load : Option (List Byte))
  /-- PORST_ASSERT (R500). -/
  | porstAssert
  /-- PORST_RELEASE (R497). -/
  | porstRelease (straps : Nat) (pins : PinLevels)
  /-- SYSRST (R499). -/
  | sysrst (lowNs : Nat)
  /-- BROWN_OUT (R493). -/
  | brownOut
  /-- DOMAIN_SWITCH_ON (R494). -/
  | domainSwitchOn (d : Nat)
  /-- SAFE_HOLD_CLEAR (R503). -/
  | safeHoldClear (c : OdCaller)
  /-- RESET_REQUEST (R502). -/
  | resetRequest (c : OdCaller)
  /-- BWF_RESET_REQ (R519). -/
  | bwfResetReq (init : Nat)
  /-- STANDBY_REQUEST (R504). -/
  | standbyRequest (v : Via) (commitOk : Bool)
  /-- WAKE_N (R505). -/
  | wakeN (lowNs : Nat)
  /-- RTC_ALARM_WAKE (R505). -/
  | rtcAlarmWake
  /-- VMAIN_OK_FALL (R506). -/
  | vmainOkFall
  /-- MAIN_LOSS_DELAY (R506). -/
  | mainLossDelay (commitOk : Bool)
  /-- VMAIN_OK_RISE (R505). -/
  | vmainOkRise
  /-- THERMAL_POLL (R507). -/
  | thermalPoll (centre : Int) (edge : Int)
  /-- TAMPER_EDGE (R508). -/
  | tamperEdge (input : Nat) (commitOk : Bool)
  /-- VBAT_LOSS (R509). -/
  | vbatLoss
  /-- FATAL_FAULT (R510). -/
  | fatalFault (unit : Nat) (inst : Nat) (num : Nat)
  /-- CONTAINED_FAULT (R510). -/
  | containedFault (unit : Nat) (inst : Nat) (num : Nat)
  /-- CORRECTED_FAULT (R510). -/
  | correctedFault
  /-- FAULT_LOG_DRAIN (R512). -/
  | faultLogDrain
  /-- BWF_LOG_READ (R519). -/
  | bwfLogRead (init : Nat) (wd : Nat)
  /-- WATCHDOG_KICK (R513). -/
  | watchdogKick (init : Nat) (v : Nat)
  /-- MGMT_WATCHDOG_KICK (R519). -/
  | mgmtWatchdogKick (init : Nat) (v : Nat)
  /-- WATCHDOG_FIRST_EXPIRY (R513). -/
  | watchdogFirstExpiry (cp : Nat)
  /-- WATCHDOG_SECOND_EXPIRY (R513). -/
  | watchdogSecondExpiry (cp : Nat)
  /-- MGMT_WATCHDOG_EXPIRY (R513). -/
  | mgmtWatchdogExpiry
  /-- FABRIC_TRANSACTION_TIMEOUT (R514). -/
  | fabricTransactionTimeout (init : Nat) (addr : Nat) (write : Bool)
  /-- FULL_RESET_RELEASE (R500). -/
  | fullResetRelease (straps : Nat) (pins : PinLevels)
  /-- FREQ_REF_CAL_PERIOD (R194). -/
  | freqRefCalPeriod (q : Port)
  /-- LOCAL_PORT_LINK_CHANGE (R373). -/
  | localPortLinkChange (isUp : Bool)
  /-- RESET_REQUEST_NO_TIDE (R502). -/
  | resetRequestNoTide
  deriving DecidableEq, Repr

end Sys2Proof
end

