-- ==== Sys2Proof/Machine/Crypto.lean ====
section
/-! DEFINITION. SHA-256, HMAC, HKDF, ECDSA P-256 verification and the CRCs the spec names (R300, R466, R475). -/
namespace Sys2Proof.Machine
open Sys2Proof

/-! ## SHA-256 -/

/-- Round constants, first half. -/
def shaK0 : List Word := [
  0x428A2F98, 0x71374491, 0xB5C0FBCF, 0xE9B5DBA5, 0x3956C25B, 0x59F111F1, 0x923F82A4, 0xAB1C5ED5,
  0xD807AA98, 0x12835B01, 0x243185BE, 0x550C7DC3, 0x72BE5D74, 0x80DEB1FE, 0x9BDC06A7, 0xC19BF174,
  0xE49B69C1, 0xEFBE4786, 0x0FC19DC6, 0x240CA1CC, 0x2DE92C6F, 0x4A7484AA, 0x5CB0A9DC, 0x76F988DA,
  0x983E5152, 0xA831C66D, 0xB00327C8, 0xBF597FC7, 0xC6E00BF3, 0xD5A79147, 0x06CA6351, 0x14292967]

/-- Round constants, second half. -/
def shaK1 : List Word := [
  0x27B70A85, 0x2E1B2138, 0x4D2C6DFC, 0x53380D13, 0x650A7354, 0x766A0ABB, 0x81C2C92E, 0x92722C85,
  0xA2BFE8A1, 0xA81A664B, 0xC24B8B70, 0xC76C51A3, 0xD192E819, 0xD6990624, 0xF40E3585, 0x106AA070,
  0x19A4C116, 0x1E376C08, 0x2748774C, 0x34B0BCB5, 0x391C0CB3, 0x4ED8AA4A, 0x5B9CCA4F, 0x682E6FF3,
  0x748F82EE, 0x78A5636F, 0x84C87814, 0x8CC70208, 0x90BEFFFA, 0xA4506CEB, 0xBEF9A3F7, 0xC67178F2]

/-- Initial hash words. -/
def shaH : List Word := [
  0x6A09E667, 0xBB67AE85, 0x3C6EF372, 0xA54FF53A, 0x510E527F, 0x9B05688C, 0x1F83D9AB, 0x5BE0CD19]

/-- Rotate right. -/
def rotr (x : Word) (n : Nat) : Word := (x >>> n) ||| (x <<< (32 - n))

/-- The message schedule, newest word first, from 16 words (newest first). -/
def shaSched : Nat → List Word → List Word
  | 0, l => l
  | n + 1, l =>
    let w (i : Nat) : Word := l.getD (i - 1) 0
    let s0 := rotr (w 15) 7 ^^^ rotr (w 15) 18 ^^^ (w 15 >>> 3)
    let s1 := rotr (w 2) 17 ^^^ rotr (w 2) 19 ^^^ (w 2 >>> 10)
    shaSched n ((w 16 + s0 + w 7 + s1) :: l)

/-- The eight working words. -/
structure ShaW where
  a : Word
  b : Word
  c : Word
  d : Word
  e : Word
  f : Word
  g : Word
  h : Word
  deriving DecidableEq, Repr

/-- One round. -/
def shaRound (v : ShaW) (kw : Word × Word) : ShaW :=
  let s1 := rotr v.e 6 ^^^ rotr v.e 11 ^^^ rotr v.e 25
  let ch := (v.e &&& v.f) ^^^ ((~~~ v.e) &&& v.g)
  let t1 := v.h + s1 + ch + kw.1 + kw.2
  let s0 := rotr v.a 2 ^^^ rotr v.a 13 ^^^ rotr v.a 22
  let maj := (v.a &&& v.b) ^^^ (v.a &&& v.c) ^^^ (v.b &&& v.c)
  ⟨t1 + s0 + maj, v.a, v.b, v.c, v.d + t1, v.e, v.f, v.g⟩

/-- One block of 64 bytes. -/
def shaBlock (v : ShaW) (blk : List Byte) : ShaW :=
  let ws := (pieces 4 16 blk).map (fun p => (BitVec.ofNat 32 (beNat p) : Word))
  let sched := (shaSched 48 ws.reverse).reverse
  let r := ((shaK0 ++ shaK1).zip sched).foldl shaRound v
  ⟨v.a + r.a, v.b + r.b, v.c + r.c, v.d + r.d, v.e + r.e, v.f + r.f, v.g + r.g, v.h + r.h⟩

/-- The SHA-256 digest. -/
def sha256 (m : List Byte) : List Byte :=
  let n := m.length
  let pad := m ++ [0x80] ++ zeros ((119 - n % 64) % 64) ++ beBytes 8 (8 * n)
  let g (i : Nat) : Word := shaH.getD i 0
  let v := (pieces 64 (n / 64 + 2) pad).foldl shaBlock ⟨g 0, g 1, g 2, g 3, g 4, g 5, g 6, g 7⟩
  [v.a, v.b, v.c, v.d, v.e, v.f, v.g, v.h].flatMap (fun w => beBytes 4 w.toNat)

/-- HMAC-SHA-256. -/
def hmac (key m : List Byte) : List Byte :=
  let k := if key.length ≤ 64 then key ++ zeros (64 - key.length) else sha256 key ++ zeros 32
  sha256 (k.map (· ^^^ 0x5C) ++ sha256 (k.map (· ^^^ 0x36) ++ m))

/-- HKDF's expansion: `n` blocks from block number `i` on. -/
def hkdfExpand (prk info : List Byte) : Nat → Nat → List Byte → List Byte
  | 0, _, _ => []
  | n + 1, i, t =>
    let t' := hmac prk (t ++ info ++ [BitVec.ofNat 8 i])
    t' ++ hkdfExpand prk info n (i + 1) t'

/-- HKDF-SHA-256 of `len` bytes. -/
def hkdf (salt ikm info : List Byte) (len : Nat) : List Byte :=
  (hkdfExpand (hmac salt ikm) info (ceilDiv len 32) 1 []).take len

/-! ## P-256 -/

def ecP : Nat := 0xFFFFFFFF00000001000000000000000000000000FFFFFFFFFFFFFFFFFFFFFFFF
def ecN : Nat := 0xFFFFFFFF00000000FFFFFFFFFFFFFFFFBCE6FAADA7179E84F3B9CAC2FC632551
def ecB : Nat := 0x5AC635D8AA3A93E7B3EBBD55769886BC651D06B0CC53B0F63BCE3C3E27D2604B
def ecGx : Nat := 0x6B17D1F2E12C4247F8BCE6E563A440F277037D812DEB33A0F4A13945D898C296
def ecGy : Nat := 0x4FE342E2FE1A7F9B8EE7EB4A7C0F9E162BCE33576B315ECECBB6406837BF51F5

/-- x^e modulo m over the low `n` bits of e, from the highest down. -/
def powMod (m x e : Nat) : Nat → Nat → Nat
  | 0, acc => acc
  | n + 1, acc =>
    let sq := acc * acc % m
    powMod m x e n (if e.testBit n then sq * x % m else sq)

/-- The inverse modulo a prime. -/
def invMod (m x : Nat) : Nat := powMod m (x % m) (m - 2) 256 1

/-- A point in Jacobian coordinates; z = 0 is the point at infinity. -/
structure EcPt where
  x : Nat
  y : Nat
  z : Nat
  deriving DecidableEq, Repr

/-- Subtract modulo the field prime. -/
def fsub (a b : Nat) : Nat := (a + (ecP - b % ecP)) % ecP
/-- Multiply modulo the field prime. -/
def fmul (a b : Nat) : Nat := a * b % ecP

/-- Double a point. -/
def ecDbl (p : EcPt) : EcPt :=
  if p.z = 0 then p else
    let d := fmul p.z p.z
    let g := fmul p.y p.y
    let b := fmul p.x g
    let al := 3 * fmul (fsub p.x d) (p.x + d) % ecP
    let x3 := fsub (fmul al al) (8 * b)
    ⟨x3, fsub (fmul al (fsub (4 * b) x3)) (8 * fmul g g), 2 * fmul p.y p.z % ecP⟩

/-- Add two points. -/
def ecAdd (p q : EcPt) : EcPt :=
  if p.z = 0 then q else if q.z = 0 then p else
    let z1 := fmul p.z p.z
    let z2 := fmul q.z q.z
    let u1 := fmul p.x z2
    let u2 := fmul q.x z1
    let s1 := fmul p.y (fmul q.z z2)
    let s2 := fmul q.y (fmul p.z z1)
    if u1 = u2 then (if s1 = s2 then ecDbl p else ⟨1, 1, 0⟩) else
      let h := fsub u2 u1
      let r := fsub s2 s1
      let hh := fmul h h
      let hhh := fmul h hh
      let v := fmul u1 hh
      let x3 := fsub (fsub (fmul r r) hhh) (2 * v)
      ⟨x3, fsub (fmul r (fsub v x3)) (fmul s1 hhh), fmul h (fmul p.z q.z)⟩

/-- k times a point over the low `n` bits of k. -/
def ecMul (k : Nat) (p : EcPt) : Nat → EcPt → EcPt
  | 0, acc => acc
  | n + 1, acc =>
    let d := ecDbl acc
    ecMul k p n (if k.testBit n then ecAdd d p else d)

/-- Affine coordinates; none for the point at infinity. -/
def EcPt.affine (p : EcPt) : Option (Nat × Nat) :=
  if p.z = 0 then none else
    let zi := invMod ecP p.z
    let z2 := fmul zi zi
    some (fmul p.x z2, fmul p.y (fmul z2 zi))

/-- An uncompressed public key of 65 bytes, beginning with 0x04, on the curve (R470). -/
def ecKey? (k : List Byte) : Option EcPt :=
  let x := beNat ((k.drop 1).take 32)
  let y := beNat (k.drop 33)
  if k.length = 65 ∧ k.headD 0 = 4 ∧ x < ecP ∧ y < ecP
      ∧ fmul y y = (fmul x (fmul x x) + (ecP - 3) * x + ecB) % ecP then some ⟨x, y, 1⟩ else none

/-- The generator. -/
def ecG : EcPt := ⟨ecGx, ecGy, 1⟩

/-- The public key of a private number. -/
def ecPublic (d : Nat) : List Byte :=
  match (ecMul d ecG 256 ⟨1, 1, 0⟩).affine with
  | some (x, y) => (4 : Byte) :: (beBytes 32 x ++ beBytes 32 y)
  | none => zeros 65

/-- The ECDH shared secret: the x coordinate (R475). -/
def ecShared (d : Nat) (peer : List Byte) : List Byte :=
  match ecKey? peer with
  | none => zeros 32
  | some q => match (ecMul d q 256 ⟨1, 1, 0⟩).affine with
    | some (x, _) => beBytes 32 x
    | none => zeros 32

/-- ECDSA P-256 with SHA-256: a signature of r then s, 32 bytes each, big-endian. -/
def ecVerify (key msg sig : List Byte) : Bool :=
  let r := beNat (sig.take 32)
  let t := beNat (sig.drop 32)
  match ecKey? key with
  | none => false
  | some q =>
    if sig.length ≠ 64 ∨ r = 0 ∨ ecN ≤ r ∨ t = 0 ∨ ecN ≤ t then false else
      let w := invMod ecN t
      let u1 := beNat (sha256 msg) % ecN * w % ecN
      let u2 := r * w % ecN
      match (ecAdd (ecMul u1 ecG 256 ⟨1, 1, 0⟩) (ecMul u2 q 256 ⟨1, 1, 0⟩)).affine with
      | none => false
      | some (x, _) => x % ecN == r

/-! ## CRCs -/

/-- One bit of a reflected 32-bit CRC. -/
def crcBit (poly c : Nat) : Nat := if c % 2 = 1 then (c / 2) ^^^ poly else c / 2

/-- `n` bits. -/
def crcBits (poly : Nat) : Nat → Nat → Nat
  | 0, c => c
  | n + 1, c => crcBits poly n (crcBit poly c)

/-- CRC-32C (R300): reflected polynomial 0x82F63B78, all ones in and out. -/
def crc32c (bs : List Byte) : Nat :=
  (bs.foldl (fun c b => crcBits 0x82F63B78 8 (c ^^^ b.toNat)) 0xFFFFFFFF) ^^^ 0xFFFFFFFF

end Sys2Proof.Machine
end

