-- ==== Sys2Proof/Machine/Macsec.lean ====
section
/-! DEFINITION. AES-256 in Galois/Counter mode and the protection of a frame by IEEE 802.1AE with extended packet numbering (R341,
R475, R477). -/
namespace Sys2Proof.Machine
open Sys2Proof

/-! ## AES-256 -/

/-- The S-box, 32 entries to a number, the first lowest. -/
def sboxRows : List Nat := [
  0xC072A49CAFA2D4ADF04759FA7DC982CA76ABD7FE2B670130C56F6BF27B777C63,
  0x75B227EBE28012079A059618C323C7041531D871F1E5A534CCF73F362693FDB7,
  0xCF584C4A39BECB6A5BB1FC20ED00D153842FE329B3D63B52A05A6E1B1A2C8309,
  0xD2F3FF1021DAB6BCF5389D928F40A351A89F3C507F02F94585334D43FBAAEFD0,
  0xDB0B5EDE14B8EE4688902A22DC4F816073195D643D7EA7C41744975FEC130CCD,
  0x08AE7A65EAF4566CA94ED58D6D37C8E779E4959162ACD3C25C2406490A3A32E0,
  0x9E1DC186B95735610EF6034866B53E708A8BBD4B1F74DDE8C6B4A61C2E2578BA,
  0x16BB54B00F2D99416842E6BF0D89A18CDF2855CEE9871E9B948ED9691198F8E1]

/-- An entry of the S-box. -/
def sbox (x : Nat) : Nat := (sboxRows.getD (x / 32) 0 >>> (8 * (x % 32))) % 256

/-- Twice a byte in GF(2^8). -/
def xtime (x : Nat) : Nat := if x < 128 then 2 * x else (2 * x - 256) ^^^ 0x1B

/-- Byte-wise exclusive or. -/
def xorBytes (a b : List Nat) : List Nat := (a.zip b).map (fun e => e.1 ^^^ e.2)

/-- The key schedule, newest word first, from the 8 words of the key (newest first): word `i` is the next. -/
def aesWords : Nat → Nat → Nat → List (List Nat) → List (List Nat)
  | 0, _, _, l => l
  | n + 1, i, rc, l =>
    let t := l.headD []
    let t := if i % 8 = 0 then ((t.drop 1 ++ t.take 1).map sbox).zipIdx.map (fun e => if e.2 = 0 then e.1 ^^^ rc else e.1)
      else if i % 8 = 4 then t.map sbox else t
    aesWords n (i + 1) (if i % 8 = 0 then xtime rc else rc) (xorBytes (l.getD 7 []) t :: l)

/-- The 15 round keys of 16 bytes. -/
def aesKeys (key : List Byte) : List (List Nat) :=
  let k := key.map BitVec.toNat
  let first := ((upTo 8).map (fun i => (upTo 4).map (fun j => k.getD (4 * i + j) 0))).reverse
  let w := (aesWords 52 8 1 first).reverse
  (upTo 15).map (fun r => (upTo 4).flatMap (fun i => w.getD (4 * r + i) []))

/-- Row shift: byte `i` of the result, column by column. -/
def shiftRows (b : List Nat) : List Nat := (upTo 16).map (fun i => b.getD ((i + 4 * (i % 4)) % 16) 0)

/-- One column mixed. -/
def mixColumn (a b c d : Nat) : List Nat :=
  let all := a ^^^ b ^^^ c ^^^ d
  [a ^^^ all ^^^ xtime (a ^^^ b), b ^^^ all ^^^ xtime (b ^^^ c), c ^^^ all ^^^ xtime (c ^^^ d), d ^^^ all ^^^ xtime (d ^^^ a)]

/-- The four columns mixed. -/
def mixColumns : List Nat → List Nat
  | a :: b :: c :: d :: rest => mixColumn a b c d ++ mixColumns rest
  | _ => []

/-- The cipher of one block of 16 bytes. -/
def aesBlock (ks : List (List Nat)) (b : List Nat) : List Nat :=
  let one (b : List Nat) (k : List Nat) : List Nat := xorBytes (mixColumns (shiftRows (b.map sbox))) k
  let m := ((ks.drop 1).take 13).foldl one (xorBytes b (ks.headD []))
  xorBytes (shiftRows (m.map sbox)) (ks.getD 14 [])

/-! ## GCM -/

/-- A product in GF(2^128), the first bit of a block being the most significant of its number. -/
def ghashMul (x y : Nat) : Nat :=
  ((upTo 128).foldl (fun (e : Nat × Nat) i =>
    (if x.testBit (127 - i) then e.1 ^^^ e.2 else e.1, if e.2.testBit 0 then e.2 / 2 ^^^ (0xE1 * 2 ^ 120) else e.2 / 2)) (0, y)).1

/-- A number's 16 bytes, most significant first. -/
def block16 (n : Nat) : List Nat := (beBytes 16 n).map BitVec.toNat

/-- Bytes padded with zeros to whole blocks, as numbers. -/
def ghashBlocks (b : List Byte) : List Nat :=
  (pieces 16 (b.length / 16 + 1) (b ++ zeros ((16 - b.length % 16) % 16))).filterMap (fun p => if p.isEmpty then none else some (beNat p))

/-- GCM with a 12-byte IV: the ciphertext, then the 16-byte ICV. -/
def gcmSeal (key iv aad plain : List Byte) : List Byte :=
  let ks := aesKeys key
  let e (n : Nat) : Nat := beNat ((aesBlock ks (block16 n)).map (fun x => (BitVec.ofNat 8 x : Byte)))
  let j0 := beNat iv * 2 ^ 32 + 1
  let h := e 0
  let stream := (upTo (ceilDiv plain.length 16)).flatMap (fun i => beBytes 16 (e (j0 + 1 + i)))
  let cipher := (plain.zip stream).map (fun x => x.1 ^^^ x.2)
  let blocks := ghashBlocks aad ++ ghashBlocks cipher ++ [8 * aad.length * 2 ^ 64 + 8 * cipher.length]
  let tag := blocks.foldl (fun y b => ghashMul (y ^^^ b) h) 0
  cipher ++ beBytes 16 (tag ^^^ e j0)

/-! ## A protected frame (R341) -/

/-- The key material of one direction (R475): 32 bytes SAK, 4 bytes SSCI, 12 bytes salt. -/
def dirKeys (east : Bool) (keys : List Byte) : List Byte := (if east then keys else keys.drop 48).take 48

/-- A frame as IEEE 802.1AE protects it with GCM-AES-256 and extended packet numbering: the addresses, the SecTAG with the low
half of the packet number, the ciphertext of what followed the addresses, and the ICV. The IV is the SSCI and the whole packet
number, combined with the salt. The SecTAG carries no SCI, a link having two ends (PRESUMED, log 179). -/
def macsec (mat : List Byte) (an pn : Nat) (addrs plain : List Byte) : List Byte :=
  let short := if plain.length < 48 then plain.length else 0
  let tag := beBytes 2 0x88E5 ++ beBytes 1 (12 + an % 4) ++ beBytes 1 short ++ beBytes 4 (pn % 2 ^ 32)
  let iv := ((((mat.drop 32).take 4) ++ beBytes 8 pn).zip (mat.drop 36)).map (fun x => x.1 ^^^ x.2)
  addrs ++ tag ++ gcmSeal (mat.take 32) iv (addrs ++ tag) plain

end Sys2Proof.Machine
end

