-- ==== Sys2Proof/Config.lean ====
section
/-! DEFINITION. The free values: results the spec leaves open after which the block goes on. None has a body, so no
proof can see one. -/
namespace Sys2Proof

/-- A fresh free value per number taken: random session numbers (R383), nonces (R469, R475), data the spec calls
undefined or leaves unstated (log 2). -/
opaque Config.freeValue : Nat → Nat

/-- The next state of a channel's 32-bit LFSR: R278 states its length and seed, not its polynomial (log 9). -/
opaque Config.lfsrNext : Nat → Nat

/-- Bits that the devices give inverted in DRAM reads whose command does not carry them, by line: those of a job cut short, and
those of a migration's copy while it runs (R271, R281): log 174. -/
opaque Config.readErrs : Nat → List (Nat × List Nat)

/-- Rows that the controller refreshes as neighbours of a migration copy's activations: which of the two ranks, bank, row (R278,
R281): log 143. -/
opaque Config.copyRows : Nat → List (Nat × Nat × Nat)

/-- Whether a draw of a channel's LFSR refreshes the neighbours at probability 2^(−p): the test is not stated (log 9). -/
opaque Config.lfsrHit : Nat → Nat → Bool

/-- Where the Cellar region begins, MiB, of the 4,097 places R238 leaves it: log 52. -/
opaque Config.cellarBase : Nat

/-- The DEFLATE bytes of a chunk at a level (R294, R295): the encoder's choices are not stated (log 10). -/
opaque Config.deflate : List Byte → Nat → List Byte

/-- The ECDSA signature of a digest by the device key with a nonce number (R469, R475): log 11. -/
opaque Config.sign : List Byte → Nat → List Byte

/-- The public key within a certificate, its parsing not being given (R475): log 12. -/
opaque Config.certKey : List Byte → List Byte

/-- Whether a certificate chain is valid, its parsing not being given (R468, R475): log 12. -/
opaque Config.certValid : List Byte → Bool

/-- The payload bytes of a frame of a type whose contents these fields are: their layout is not given (R337): log 13. -/
opaque Config.fieldLayout : Nat → List Nat → List Byte

/-- The address of a port, by its number: 0 TRUNK_W, 1 TRUNK_E, 2 the local port. R337 names it and gives none: log 180. -/
opaque Config.portAddress : Nat → BitVec 48

/-- A field of a customer image's header, whose byte layout is not given (R232): log 41. -/
opaque Config.imageField : List Byte → Nat → Nat

/-- The name that a customer image carries (R235), where no header was spelt out: log 41. -/
opaque Config.imageName : List Byte → List Byte

/-- A word of a customer image's code, by its place in program memory (R203, R232): log 145. -/
opaque Config.imageCode : List Byte → Nat → Nat

/-- A word of the library program of a pool, and the entries of that program: 0 work, 2 abort (R216, R221): log 145. -/
opaque Config.libraryCode : Nat → Nat → Nat
opaque Config.libraryEntry : Nat → Nat → Nat

/-- What a customer image declares of an object of its range, and its default: 0 where it declares none, otherwise
1 + type code + 16 where it may be written (R405): log 65. -/
opaque Config.customerObject : List Byte → Nat → Nat

/-- The least and the largest value an image declares for such an object, in its type's encoding: log 65. -/
opaque Config.customerMin : List Byte → Nat → Nat
opaque Config.customerMax : List Byte → Nat → Nat

/-- Where the table of an image's objects holds such an object: log 65. -/
opaque Config.customerPlace : List Byte → Nat → Nat

/-- A byte of an image's initial data, by its place in the program's part of cluster memory (R232): log 145. -/
opaque Config.imageData : List Byte → Nat → Nat

/-- A Rayleigh or Kiln converter's codes after the corrections in use, in 1/256 LSB: the converter (0–3 X-I, X-Q, Y-I, Y-Q; 4, 5
Kiln I, Q), the channeliser's channel that they go to (0 of the Kiln converters), the corrections, the codes (R86, R100): log 124. -/
opaque Config.rxCorrect : Nat → Nat → List Int → List Int → List Int

/-- Tap t of the channeliser's prototype filter, and how many taps there are (R97): log 124. -/
opaque Config.rxTap : Nat → Int × Int
opaque Config.rxTaps : Nat

/-- Tap t of the Kiln filter bank's prototype in 32- and 16-channel mode, and how many taps it has (R178): log 124. -/
opaque Config.kilnTap : Bool → Nat → Int × Int
opaque Config.kilnTaps : Bool → Nat

/-- The own fixed converter and filter latency of the Rayleigh and of the Kiln path, ps (R94): log 125. -/
opaque Config.rxLatency : Nat
opaque Config.kilnLatency : Nat

/-- The frequency step of a slot channel's calibration tone at a rotation (R101): log 126. -/
opaque Config.toneStep : Nat → Nat

/-- The pilot carrier's phase at the edge of a Tide, in 2^(−32) of a cycle, by port and Tide (R57): log 113. -/
opaque Config.pilotPhase : Nat → Nat → Int

/-- The phase of the dither of a bias DAC, in 2^(−32) of a cycle, by port and DAC (R65): log 114. -/
opaque Config.ditherPhase : Nat → Nat → Int

/-- The angle, in LSBs of phase, taken for a complex value that is 0 (R123, R125): log 28. -/
opaque Config.zeroAngle : Int

end Sys2Proof
end

