-- ==== Sys2Proof/Machine/Num.lean ====
section
/-! DEFINITION. Numbers with a binary point, IEEE 754 binary32 (R377), and the elementary functions the
spec's formulas name. Real-valued intermediates are held to 60 bits (DESIGN CHOICE, log 8). -/
namespace Sys2Proof.Machine
open Sys2Proof

/-- Quotient of integers rounded to nearest, ties to even; `d` positive. -/
def divRne (n : Int) (d : Nat) : Int :=
  let q := n / (d : Int)
  let r := n - q * d
  if 2 * r < d then q else if (d : Int) < 2 * r then q + 1 else if q % 2 = 0 then q else q + 1

/-- Quotient of integers rounded to nearest, ties away from zero; `d` positive. -/
def divRound (n : Int) (d : Nat) : Int :=
  if 0 ≤ n then (2 * n + d) / (2 * d) else -((2 * (-n) + d) / (2 * d))

/-- Arithmetic shift right: the floor of a division by 2^k. -/
def asr (n : Int) (k : Nat) : Int := n / ((2 ^ k : Nat) : Int)

/-- A number m × 2^e. -/
structure Num where
  m : Int
  e : Int
  deriving DecidableEq, Repr

/-- m × 2^k for an integer k of either sign, as a pair of numerator and denominator. -/
def Num.ratio (x : Num) : Int × Nat :=
  if 0 ≤ x.e then (x.m * ((2 ^ x.e.toNat : Nat) : Int), 1) else (x.m, 2 ^ (-x.e).toNat)

/-- The bits a magnitude takes. -/
def bitLen (n : Nat) : Nat := if n = 0 then 0 else Nat.log2 n + 1

/-- Round the mantissa to `p` bits, nearest, ties to even. -/
def Num.round (p : Nat) (x : Num) : Num :=
  let l := bitLen x.m.natAbs
  if l ≤ p then x else ⟨divRne x.m (2 ^ (l - p)), x.e + ((l - p : Nat) : Int)⟩

/-- The precision of intermediates. -/
def Num.prec : Nat := 60

def Num.ofInt (n : Int) : Num := ⟨n, 0⟩
def Num.ofNat (n : Nat) : Num := ⟨n, 0⟩
def Num.zero : Num := ⟨0, 0⟩

/-- n / d. -/
def Num.ofRatio (n : Int) (d : Nat) : Num :=
  if d = 0 then Num.zero else
    let k := 80 + bitLen d - min (bitLen n.natAbs) (bitLen d)
    Num.round 60 ⟨divRne (n * ((2 ^ k : Nat) : Int)) d, -(k : Int)⟩

/-- The mantissas of two numbers at one exponent. -/
def Num.align (x y : Num) : Int × Int × Int :=
  if x.e ≤ y.e then (x.m, y.m * ((2 ^ (y.e - x.e).toNat : Nat) : Int), x.e)
  else (x.m * ((2 ^ (x.e - y.e).toNat : Nat) : Int), y.m, y.e)

def Num.add (x y : Num) : Num :=
  if x.m = 0 then y else if y.m = 0 then x else
    let a := x.align y
    Num.round 60 ⟨a.1 + a.2.1, a.2.2⟩

def Num.neg (x : Num) : Num := ⟨-x.m, x.e⟩
def Num.sub (x y : Num) : Num := x.add y.neg
def Num.mul (x y : Num) : Num := Num.round 60 ⟨x.m * y.m, x.e + y.e⟩

/-- Quotient; 0 where the divisor is 0 (callers rule that out). -/
def Num.div (x y : Num) : Num :=
  if y.m = 0 then Num.zero else
    let k := 64 + bitLen y.m.natAbs
    let q := divRne (x.m * ((2 ^ k : Nat) : Int)) y.m.natAbs
    Num.round 60 ⟨if y.m < 0 then -q else q, x.e - y.e - k⟩

def Num.abs (x : Num) : Num := ⟨x.m.natAbs, x.e⟩
def Num.lt (x y : Num) : Bool := let a := x.align y; decide (a.1 < a.2.1)
def Num.le (x y : Num) : Bool := let a := x.align y; decide (a.1 ≤ a.2.1)
def Num.isZero (x : Num) : Bool := x.m == 0
def Num.max (x y : Num) : Num := if x.lt y then y else x
def Num.min (x y : Num) : Num := if y.lt x then y else x

/-- The floor. -/
def Num.floor (x : Num) : Int := x.ratio.1 / (x.ratio.2 : Int)

/-- Nearest integer, ties to even. -/
def Num.nearest (x : Num) : Int := divRne x.ratio.1 x.ratio.2

/-- x × 2^k. -/
def Num.scale (x : Num) (k : Int) : Num := ⟨x.m, x.e + k⟩

/-- Integer square root by bisection on bits: the largest r with r² ≤ n. -/
def isqrtAux (n : Nat) : Nat → Nat → Nat
  | 0, r => r
  | k + 1, r => if (r + 2 ^ k) * (r + 2 ^ k) ≤ n then isqrtAux n k (r + 2 ^ k) else isqrtAux n k r

def isqrt (n : Nat) : Nat := isqrtAux n (bitLen n / 2 + 1) 0

/-- Square root of a number that is not negative. -/
def Num.sqrt (x : Num) : Num :=
  if x.m ≤ 0 then Num.zero else
    let k := 130 - Nat.min 128 (bitLen x.m.natAbs)
    let k' := if (x.e - k) % 2 = 0 then k else k + 1
    Num.round 60 ⟨isqrt (x.m.natAbs * 2 ^ k'), (x.e - k') / 2⟩

/-! IEEE 754 binary64 arithmetic: each operation's exact result rounded to 53 bits, ties to even. -/

/-- Round to binary64. -/
def Num.r64 (x : Num) : Num := Num.round 53 x

def Num.add64 (x y : Num) : Num := let a := x.align y; Num.round 53 ⟨a.1 + a.2.1, a.2.2⟩
def Num.sub64 (x y : Num) : Num := x.add64 y.neg
def Num.mul64 (x y : Num) : Num := Num.round 53 ⟨x.m * y.m, x.e + y.e⟩

/-- Quotient: 64 bits or more and one that tells whether more follow; 0 where the divisor is 0. -/
def Num.div64 (x y : Num) : Num :=
  let d := y.m.natAbs
  if d = 0 then Num.zero else
    let k := 64 + bitLen d
    let n := x.m.natAbs * 2 ^ k
    let q : Int := ((2 * (n / d) + (if n % d = 0 then 0 else 1) : Nat) : Int)
    Num.round 53 ⟨if decide (x.m < 0) = decide (y.m < 0) then q else -q, x.e - y.e - k - 1⟩

/-- Square root of a number that is not negative. -/
def Num.sqrt64 (x : Num) : Num :=
  if x.m ≤ 0 then Num.zero else
    let k := 130 - Nat.min 128 (bitLen x.m.natAbs)
    let k' := if (x.e - k) % 2 = 0 then k else k + 1
    let n := x.m.natAbs * 2 ^ k'
    let r := isqrt n
    Num.round 53 ⟨((2 * r + (if r * r = n then 0 else 1) : Nat) : Int), (x.e - k') / 2 - 1⟩

/-- Sum of a list. -/
def Num.sum (l : List Num) : Num := l.foldl Num.add Num.zero

/-- ln 2 to 80 bits. -/
def Num.ln2 : Num := ⟨837963523372001241319907, -80⟩

/-- π to 78 bits. -/
def Num.pi : Num := ⟨949488118409084645196998, -78⟩

/-- t + t³/3 + t⁵/5 + …: `n` terms of the inverse hyperbolic tangent; or, with `s` = −1, of the arc tangent. -/
def Num.atSeries (s : Int) (t2 : Num) : Nat → Nat → Num → Num
  | 0, _, _ => Num.zero
  | n + 1, k, p => (p.div (Num.ofNat k)).add (Num.atSeries s t2 n (k + 2) ((p.mul t2).mul (Num.ofInt s)))

/-- Natural logarithm of a positive number. -/
def Num.ln (x : Num) : Num :=
  if x.m ≤ 0 then Num.zero else
    let l := bitLen x.m.natAbs
    let f : Num := ⟨x.m, -((l : Nat) : Int)⟩
    let t := (f.sub (Num.ofInt 1)).div (f.add (Num.ofInt 1))
    ((Num.atSeries 1 (t.mul t) 34 1 t).scale 1).add (Num.ln2.mul (Num.ofInt (x.e + l)))

/-- Logarithm to base 10. -/
def Num.log10 (x : Num) : Num := (Num.ln x).div (Num.ln (Num.ofInt 10))

/-- `n` terms of the exponential series from the k-th. -/
def Num.expSeries (x : Num) : Nat → Nat → Num → Num
  | 0, _, p => p
  | n + 1, k, p => p.add (Num.expSeries x n (k + 1) ((p.mul x).div (Num.ofNat k)))

/-- Exponential. -/
def Num.exp (x : Num) : Num :=
  let k := (x.div Num.ln2).nearest
  let r := x.sub (Num.ln2.mul (Num.ofInt k))
  (Num.expSeries r 22 1 (Num.ofInt 1)).scale k

/-- 10^x. -/
def Num.exp10 (x : Num) : Num := Num.exp (x.mul (Num.ln (Num.ofInt 10)))

/-- `n` terms of the sine (k = 1, p = x) or cosine (k = 0, p = 1) series. -/
def Num.scSeries (x2 : Num) : Nat → Nat → Num → Num
  | 0, _, _ => Num.zero
  | n + 1, k, p => p.add (Num.scSeries x2 n (k + 2) ((p.mul x2).div (Num.ofInt (-((k + 1) * (k + 2) : Nat)))))

/-- x less the nearest multiple of 2π. -/
def Num.reduce (x : Num) : Num :=
  let k := (x.div (Num.pi.scale 1)).nearest
  x.sub ((Num.pi.scale 1).mul (Num.ofInt k))

def Num.sin (x : Num) : Num := let r := x.reduce; Num.scSeries (r.mul r) 20 1 r
def Num.cos (x : Num) : Num := let r := x.reduce; Num.scSeries (r.mul r) 20 0 (Num.ofInt 1)
def Num.tan (x : Num) : Num := (Num.sin x).div (Num.cos x)

/-- Halve an arc tangent's argument: x / (1 + √(1 + x²)). -/
def Num.atHalf (x : Num) : Num := x.div ((Num.ofInt 1).add (((x.mul x).add (Num.ofInt 1)).sqrt))

def Num.atan (x : Num) : Num :=
  let y := x.atHalf.atHalf.atHalf
  (Num.atSeries (-1) (y.mul y) 24 1 y).scale 3

/-- The angle of the point (x, y), in (−π, π]; 0 for the origin. -/
def Num.atan2 (y x : Num) : Num :=
  if x.m = 0 then (if y.m = 0 then Num.zero else if y.m < 0 then (Num.pi.scale (-1)).neg else Num.pi.scale (-1))
  else if 0 < x.m then Num.atan (y.div x)
  else if y.m < 0 then (Num.atan (y.div x)).sub Num.pi else (Num.atan (y.div x)).add Num.pi

/-! ## binary32 -/

/-- The binary32 NaN the model writes where the spec says NaN. -/
def nan32 : Nat := 0x7FC00000

/-- binary32 bits of a number, round to nearest even; too large gives infinity. -/
def Num.toF32 (x : Num) : Nat :=
  if x.m = 0 then 0 else
    let sg := if x.m < 0 then 2 ^ 31 else 0
    let l := bitLen x.m.natAbs
    let ex : Int := x.e + l - 24
    let ex := if ex < -149 then -149 else ex
    let q : Nat := if x.e ≤ ex then (divRne x.m.natAbs (2 ^ (ex - x.e).toNat)).toNat
      else x.m.natAbs * 2 ^ (x.e - ex).toNat
    let (q, ex) := if q = 2 ^ 24 then (2 ^ 23, ex + 1) else (q, ex)
    if q < 2 ^ 23 then sg + q
    else if 104 < ex then sg + 0x7F800000
    else sg + ((ex + 150).toNat) * 2 ^ 23 + (q - 2 ^ 23)

/-- Whether binary32 bits are a NaN or an infinity. -/
def f32Special (b : Nat) : Bool := bitsOf b 30 23 == 255

/-- The number of finite binary32 bits (0 for a NaN or an infinity). -/
def f32Num (b : Nat) : Num :=
  let ex := bitsOf b 30 23
  let fr := bitsOf b 22 0
  if ex = 255 then Num.zero else
    let m : Int := if ex = 0 then fr else fr + 2 ^ 23
    let e : Int := if ex = 0 then -149 else (ex : Int) - 150
    ⟨if bitOf b 31 then -m else m, e⟩

/-- Round a number to binary32. -/
def Num.r32 (x : Num) : Num := f32Num x.toF32

/-- binary32 bits of an integer. -/
def f32OfInt (n : Int) : Nat := (Num.ofInt n).toF32

/-- A number from decimal digits: n × 10^(−d). -/
def Num.dec (n : Int) (d : Nat) : Num := Num.ofRatio n (10 ^ d)

end Sys2Proof.Machine
end

