-- ==== Sys2Proof/Machine/State.lean ====
section
/-! DEFINITION. The block's state as plain data: every register, buffer, counter, mode and pin the spec names, and the
queue of waiting commands. INVENTORY.md lists each with its rule. -/
namespace Sys2Proof.Machine
open Sys2Proof

/-! ## Shared parts -/

/-- A status register's SEQ bits (R412): SEQNUM and the set bits, ascending, each with its seq_i. -/
structure SeqReg where
  num : Nat := 0
  set : List (Nat × Nat) := []
  deriving DecidableEq, Repr

/-- A complex number of the signal path (number format: log 8). -/
structure Cx where
  re : Num := ⟨0, 0⟩
  im : Num := ⟨0, 0⟩
  deriving DecidableEq, Repr

/-- A record on its way to a Cellar ring (R239): ring code, type, the tag's Time and Launch, the record; a time at which that
launch was made or due, which tells the plan it belongs to (R240; of a Kiln record when it was completed); and the channel
of a decimated record. -/
structure RingRec where
  ring : Nat
  type : Nat
  time : Nat
  launch : Nat
  bytes : List Byte
  lt : Nat
  ch : Nat := 0
  deriving DecidableEq, Repr

/-- A record that has reached the export DMA (R423): its kind (0–6; 7 a slip marker), port, and tag fields. -/
structure ExportRec where
  kind : Nat
  port : Port
  type : Nat
  time : Nat
  launch : Nat
  bytes : List Byte
  /-- `bytes` is a whole entry, tag and padding included: the exported copy of a capture (R255). -/
  copy : Bool := false
  deriving DecidableEq, Repr

/-- How a launch is driven (R49–R63): its slot, the chirp's bandwidth in MHz, direction, taper and length, the amplitudes
as binary32 values, the tone's frequency in kHz and length in ns (0 where it carries none), the pilot's offset in kHz (0
where none), IqSwap, and the gate's level, lead, lag and skew. `lit` is false where gate and DACs are muted. -/
structure Drive where
  slot : Nat
  bandwidth : Nat
  up : Bool
  taper : Nat
  length : Nat
  chirp : Nat
  tone : Nat
  toneKhz : Nat
  toneNs : Nat
  pilot : Nat
  pilotKhz : Int
  swap : Bool
  gate : Nat
  lead : Nat
  lag : Nat
  skew : Int
  lit : Bool
  deriving DecidableEq, Repr

/-- What the block sends out, newest first (log 4). -/
inductive Output where
  /-- An Ibend frame: its addresses, EtherType and 16-byte header as bytes (R337), the frame, and on a secured trunk the bytes
  as MACsec protects them (R341). -/
  | frame (port : LinkPort) (head : List Byte) (f : Frame) (sealed : List Byte)
  /-- A PTP message: its EtherType, the traffic class it takes on a trunk, its kind, domain and fields (R317). -/
  | ptp (port : LinkPort) (etherType cls kind domain : Nat) (fields : List Int)
  /-- A frame ended with an inverted FCS (R340). -/
  | stomped (port : LinkPort)
  /-- A dictionary response (R388). -/
  | response (path : Path) (source : Nat) (bytes : List Byte)
  /-- The answer of a register or memory read, and whether it met a bus error (R411). -/
  | readData (init : Nat) (value : Nat) (err : Bool)
  /-- A write that met a bus error (R411). -/
  | writeError (init : Nat)
  /-- An MSI-X vector (R422). -/
  | vector (n : Nat)
  /-- A posted write to host memory (R424). -/
  | hostWrite (addr : Nat) (bytes : List Byte)
  /-- What the SPI target drives (R428). -/
  | spi (bytes : List Byte)
  /-- The pilot's frame of a Tide: its 168 symbols, first symbol first (R58). -/
  | pilot (port : Port) (bits : List Bool)
  /-- A calibration tone at the Rayleigh converters (R101, R103): the slot whose channel it lies in, from when and for how long in ns
  of PTP time, its offset from the slot's centre in kHz, and its level in dB of full scale. -/
  | calTone (port : Port) (slot : Nat) (time dur : Nat) (khz level : Int)
  /-- A launch: its PTP time and what the DACs and the gate are driven with (R29, R52–R63). -/
  | launch (port : Port) (time : Nat) (drive : Drive)
  /-- The interrupt of the management core (R513). -/
  | mgmtInterrupt (cp : Nat)
  /-- A word the DRAM controller forwards (R271): its bytes, stream tag and poison flag. -/
  | word (init : Nat) (addr : Nat) (bytes : List Byte) (tag : Nat) (poison : Bool)
  /-- A command to a DRAM rank (R263, R274–R279): kind 0 refresh, 1 ZQ short calibration, 2 refresh of a row (bank, row),
  3 precharge power-down, 4 exit from self-refresh, 5 tracking of the read strobe's drift, 6 entry to self-refresh. -/
  | dram (rank kind bank row : Nat)
  /-- A raw export job's report of the entries that hold a poisoned word (R257): ring (+128 for port B), segment, Sequence. -/
  | exportReport (d : Nat) (entries : List (Nat × Nat × Nat))
  deriving DecidableEq, Repr

/-! ## Power, AON, Breakwater (spec/18_power_reset_faults.md) -/

/-- How far the start-up has come (R497, R500, R504). -/
inductive Phase where
  /-- PORST_N low. -/
  | porst
  /-- The internal reset of a full reset other than PORST_N. -/
  | held
  /-- Straps latched; PLLs, ROM. -/
  | starting
  /-- Firmware runs and the dictionary server answers. -/
  | running
  /-- Only AON runs. -/
  | standby
  deriving DecidableEq, Repr

/-- Pins, straps, domains, supply and thermal state. -/
structure Power where
  phase : Phase := .porst
  /-- Latched straps, laid out as StrapState (R403). -/
  straps : Nat := 0
  /-- Bit per switched domain (R494). -/
  domains : Nat := 0
  porstLow : Bool := true
  sysrstLow : Bool := false
  /-- A rail is out of tolerance after a brown-out (R493). -/
  brownOut : Bool := false
  /-- Level of ILOCK_N: high is open (R78). -/
  ilockOpen : Bool := true
  vmainOk : Bool := true
  ocxoRdy : Bool := false
  pwrEn : Bool := true
  /-- Die sensors, centre and edge, 1/16 °C (R518). -/
  tCentre : Int := 0
  tEdge : Int := 0
  thermWarn : Bool := false
  /-- Sensors whose warning fault has been raised since ThermalState was last 0, bit per sensor (R507). -/
  warned : Nat := 0
  /-- Consecutive polls at or above T_SHUT (R507), centre and edge. -/
  shutC : Nat := 0
  shutE : Nat := 0
  /-- A reset asked for at the next Tide edge (R502, R484). -/
  resetAsked : Bool := false
  /-- The main-loss count runs (R506). -/
  vmainCount : Bool := false
  /-- PLLs locked: sample, DAC, fabric (R310). -/
  pllS : Bool := false
  pllD : Bool := false
  pllF : Bool := false
  /-- The control processors' watchdogs past their first expiry (R513). -/
  wdogStage : Nat := 0
  deriving DecidableEq, Repr

/-- The groups of pins of R80 and R516. -/
inductive PinGroup where
  | pwren | network | pcie | spiMiso | hostirq | syn (port : Port) | bridge (n : Nat) | ddr | qspiCs
  | txDac (port : Port) | gate (port : Port) | biasDac (port : Port) | pump (port : Port) | laser (set : Port)
  deriving DecidableEq, Repr

/-- What a pin does (R80, R516). -/
inductive PinLevel where
  | undriven | boardPull | boardTermination | low | high | highZ | electricalIdle | released | zero | linkTraining | memTraining | romAccess | driven
  deriving DecidableEq, Repr

/-- The always-on domain (R501, R503, R505, R508). -/
structure Aon where
  /-- The RTC's reading at local time `rtcAt` (R313). -/
  rtc : Nat := 0
  rtcAt : Nat := 0
  rtcValid : Bool := false
  wakeAlarm : Nat := 0
  cause : Nat := 0
  fatalCount : Nat := 0
  lastKey : Nat := 0
  lastTime : Nat := 0
  /-- Times of the fatal resets AON still counts (R503). -/
  fatals : List Nat := []
  /-- The tamper log, oldest first, at most 8: input and RTC time. -/
  tamperLog : List (Nat × Nat) := []
  tamperCount : Nat := 0
  safeHold : Bool := false
  /-- Standby was entered for main supply loss (R505). -/
  mainLoss : Bool := false
  /-- Tamper inputs whose fault is owed at the next start (R508). -/
  tamperOwed : List Nat := []
  /-- A thermal shutdown's fault is owed at the next start, with its sensor (R507). -/
  shutOwed : Option Nat := none
  deriving DecidableEq, Repr

/-- One entry of FaultLog (R517). -/
structure FaultEntry where
  key : Nat
  time : Nat
  count : Nat
  deriving DecidableEq, Repr

/-- The Breakwater (R510–R513). -/
structure Bwf where
  /-- The hardware log, oldest first. -/
  log : List (Nat × Nat) := []
  faultLog : List FaultEntry := []
  /-- Keys reported in this Tide (R512). -/
  sent : List Nat := []
  contained : Nat := 0
  corrected : Nat := 0
  latchTime : Nat := 0
  deriving DecidableEq, Repr

/-! ## The Tide (spec/02_tide_and_launch_plan.md) -/

/-- The Tide grid and its counters. -/
structure Tide where
  running : Bool := false
  /-- A Tide of this start has run to its end (R486). -/
  ran : Bool := false
  /-- Tide edges of this start: the ordinal of the present Tide, which deadlines count by (R45). -/
  edges : Nat := 0
  num : Nat := 0
  /-- PTP time of the present Tide's edge, on the 8 ns grid (R24). -/
  edge : Nat := 0
  residual : Nat := 0
  slipCount : Nat := 0
  epoch : Nat := 0
  numHi : Nat := 0
  overrun : List Nat := [0, 0, 0, 0, 0]
  overrunRun : List Nat := [0, 0, 0, 0, 0]
  overrunRaised : List Bool := [false, false, false, false, false]
  /-- Stages that overran in the present Tide. -/
  overrunNow : List Bool := [false, false, false, false, false]
  deriving DecidableEq, Repr

/-! ## Launch and optics (spec/03_launch_and_optics_drive.md) -/

/-- The restart state of a point (R131). -/
inductive Restart where
  | none | soft | full
  deriving DecidableEq, Repr

/-- A decimation channel's epoch-applied settings (R170): DecimEnable, Preset, First, Stride, Count, Dest. -/
structure DecCfg where
  en : Bool := false
  preset : Nat := 0
  first : Nat := 0
  stride : Nat := 1
  count : Nat := 0
  dest : Nat := 0
  deriving DecidableEq, Repr

/-- The Lauter bank's epoch-applied settings (R171): LauterEnable, BandMask, Group, Dest. -/
structure LautCfg where
  en : Bool := false
  mask : Nat := 0
  group : Nat := 1
  dest : Nat := 0
  deriving DecidableEq, Repr

/-- The history clears that the next launch brings (R156, R167): each channel, the whole Lauter bank, single bands. -/
structure Clears where
  dec0 : Bool := false
  dec1 : Bool := false
  laut : Bool := false
  bands : Nat := 0
  deriving DecidableEq, Repr

/-- The settings a launch is made and processed under (R115): the epoch-applied and per-Tide objects in force. -/
structure Cfg where
  p : Nat := 4
  m : Nat := 32
  mask : Nat := 255
  w : Nat := 0
  c : Nat := 0
  b : Nat := 0
  tmin : Nat := 0
  phi : Nat := 0
  r0 : Nat := 0
  pitch : Nat := 1
  n : Nat := 0
  g : Nat := 1
  window : Nat := 1
  cm : Bool := true
  refStart : Nat := 0
  refLen : Nat := 0
  chirpBw : Nat := 100
  chirpDir : Nat := 0
  taper : Nat := 0
  fadeSnr : Nat := 6
  alignShift : Nat := 10
  minUpd : Nat := 16
  slew : Nat := 8192
  stale : Nat := 65536
  refSnr : Nat := 20
  unwrap : Nat := 24576
  jump : Nat := 16384
  gapLim : Nat := 8
  /-- WortSlotMask where WortEnable is 1, else 0; QualityToCellar; QualityExport. -/
  wort : Nat := 0
  qtc : Bool := true
  qx : Bool := false
  dec0 : DecCfg := {}
  dec1 : DecCfg := {}
  laut : LautCfg := {}
  deriving DecidableEq, Repr

/-- A launch that has been made and whose record has not yet arrived. -/
structure Launch where
  tide : Nat
  /-- Ordinal of its Tide among the Tides of this start (R45). -/
  nth : Nat
  j : Nat
  slot : Nat
  /-- Global index ℓ (R148). -/
  ell : Nat
  /-- PTP time of range sample 0, ns. -/
  time : Nat
  epoch : Nat
  dark : Bool
  tuning : Bool
  tone : Bool
  late : Bool
  missing : Bool
  biasUnlock : Bool
  calStale : Bool
  timeFree : Bool
  incomplete : Bool
  cfg : Cfg
  /-- An LMON event has measured it (R330). -/
  measured : Bool := false
  /-- The port's synthesiser was not locked when it was made, or has lost lock since (R180). -/
  synOff : Bool := false
  /-- The restart of every point and the clears it brings (R135, R156). -/
  restart : Restart := .none
  clr : Clears := {}
  deriving DecidableEq, Repr

/-- One port's optics drive. -/
structure Optics where
  state : Nat := 0
  bias : Nat := 0
  biasPH : Nat := 0
  biasI : Nat := 0
  biasQ : Nat := 0
  /-- Consecutive Tides with every bias error within the limit, and above it. -/
  inRun : Nat := 0
  overRun : Nat := 0
  pump : Nat := 0
  /-- LaserEnable 0 was written and the stop still runs; and 1 was written since (R76). -/
  stopping : Bool := false
  restart : Bool := false
  /-- The laser stayed on through the interlock (R79). -/
  laserKept : Bool := false
  /-- The restart the next entry to Live makes: 2 full until the port has been Live since its laser came on, then 1 soft
  (R135). -/
  liveKind : Nat := 2
  latOk : Bool := false
  latPs : Int := 0
  /-- Measured latencies of the present block and Tide: sum and count, ps (R72, R73). -/
  latSum : Int := 0
  latN : Nat := 0
  latPrev : Option Int := none
  calTries : Nat := 0
  calFail : Bool := false
  /-- The pump is at its setpoint and nothing but the next Tide edge is waited for (R75 step 6). -/
  atSet : Bool := false
  missRun : Nat := 0
  missRaised : Bool := false
  missCount : Nat := 0
  ilockCount : Nat := 0
  /-- Laser following (R71): running sweep, its step and pass, fine tracking, partner absent. -/
  sweeping : Bool := false
  sweepStep : Nat := 0
  sweepPass : Nat := 0
  /-- Ordinals of the first and last Tide of the latest sweep: they are flagged for laser tuning (R71, R127). -/
  tuned : Option (Nat × Nat) := none
  fine : Bool := false
  absent : Bool := false
  /-- How far fine tracking has moved the laser from LaserCurrent, Hz (R71). -/
  fineHz : Int := 0
  deriving DecidableEq, Repr

/-- A laser set's outputs (R69). -/
structure LaserSet where
  en : Bool := false
  lasi : Nat := 0
  last : Nat := 0
  deriving DecidableEq, Repr

/-! ## Receive conversion (spec/04_receive_conversion.md) -/

/-- A calibration item's progress (R457, R458): the first run's values, the accepted target, the correction in use. -/
structure CalItem where
  prev : Option (List Int) := none
  target : List Int := []
  use : List Int := []
  /-- 0 none, 1 pass, 2 fail, 3 stale or running, as its report codes say. -/
  state : Nat := 0
  count : Nat := 0
  time : Nat := 0
  fails : Nat := 0
  /-- Tides since the last acceptance. -/
  tides : Nat := 0
  tries : Nat := 0
  window : Bool := true
  deriving DecidableEq, Repr

/-- One port's Rayleigh and Kiln converters. -/
structure Rx where
  /-- Clips counted in the running Tide and in the last one, XI XQ YI YQ. -/
  clips : List Nat := [0, 0, 0, 0]
  lastClips : List Nat := [0, 0, 0, 0]
  peaks : List Nat := [0, 0, 0, 0]
  refPwr : Nat := 0xFFFF
  /-- Power of the reference samples of the Tide's records, and their number (R107). -/
  refSum : Num := ⟨0, 0⟩
  refN : Nat := 0
  /-- Per slot: the power of the tail windows of odd rotations over the Tide, X and Y, and their samples (R35, R119). -/
  tails : List (Num × Num × Nat) := List.replicate 8 (⟨0, 0⟩, ⟨0, 0⟩, 0)
  /-- Per slot: ℓ and time of the last launch whose record has come, after which its tail window lies. -/
  prev : List (Option (Nat × Nat)) := List.replicate 8 none
  /-- Where the records that have come lie outside their blind zones, from and to in ns, newest first (R88). -/
  spans : List (Nat × Nat) := []
  clipCount : Nat := 0
  overRun : Nat := 0
  overRaised : Bool := false
  /-- A foreground calibration runs; attempts failed; it has passed (R100). -/
  fgRunning : Bool := false
  fgTries : Nat := 0
  fgPass : Bool := false
  cal : CalItem := {}
  kClips : List Nat := [0, 0]
  kLastClips : List Nat := [0, 0]
  kPeaks : List Nat := [0, 0]
  kOverRun : Nat := 0
  kOverRaised : Bool := false
  kfgRunning : Bool := false
  kfgTries : Nat := 0
  kfgPass : Bool := false
  kfgFail : Bool := false
  kCal : CalItem := {}
  /-- The port has been Live since this start: background calibration runs (R101, R104). -/
  bgOn : Bool := false
  /-- Tone windows of the run in progress, per slot channel, and of the Kiln converters (R103, R104). -/
  windows : List Nat := List.replicate 8 0
  kWindows : Nat := 0
  deriving DecidableEq, Repr

/-! ## The Swash engine (spec/05_swash_phase_engine.md) -/

/-- A slot's estimates at one point (R122, R125, R129, R130). -/
structure SlotEst where
  e : Cx := {}
  u : Nat := 0
  b : Cx := {}
  bu : Nat := 0
  lam : Num := ⟨0, 0⟩
  frozen : Nat := 0
  deriving DecidableEq, Repr

/-- A launch at one point, kept until its alignment update is decided (R127). -/
structure PtLaunch where
  ell : Nat
  slot : Nat
  psi : Int
  u : Cx
  blocked : Bool
  resolved : Bool
  /-- Ordinal of its Tide. -/
  nth : Nat
  deriving DecidableEq, Repr

/-- A point's state. -/
structure SwPoint where
  acc : Nat := 0
  psiLast : Int := 0
  gap : Nat := 0
  rate : Int := 0
  first : Bool := true
  restart : Restart := .full
  anchor : Nat := 0
  /-- Estimates of slots 0–7. -/
  slots : List SlotEst := []
  hist : List PtLaunch := []
  /-- Launches up to this ℓ have had their update decided. -/
  decided : Nat := 0
  /-- Invalid launches since the point's last valid one (R165). -/
  lautGap : Nat := 0
  /-- Its state was lost on the launch before: its full restart takes effect on this one (R137). -/
  renewed : Bool := false
  deriving DecidableEq, Repr

/-- What one launch gave, for the decimation chain and the Lauter bank (R141). -/
structure SwLaunch where
  l : Launch
  words : List Int
  quals : List Nat
  /-- Record flags: a restart took effect, the reference was substituted. -/
  restart : Bool
  refSub : Bool
  deriving DecidableEq, Repr

/-- One port's Swash engine. -/
structure Swash where
  pts : List SwPoint := []
  /-- Most recent usable H of each slot (R124). -/
  lastH : List (Option Cx) := [none, none, none, none, none, none, none, none]
  /-- N0 per slot, X and Y: the means of up to 16 Tides, newest first (R119). -/
  noiseX : List (List Num) := [[], [], [], [], [], [], [], []]
  noiseY : List (List Num) := [[], [], [], [], [], [], [], []]
  /-- A restart of every point waits for the next launch (R135). -/
  pend : Restart := .none
  unwrapCount : Nat := 0
  anchorSwitches : Nat := 0
  restartCount : Nat := 0
  refSubCount : Nat := 0
  /-- Counts of the running Tide: words, valid, unwrap suspect, faded, substituted launches, lowest mean ρ. -/
  tWords : Nat := 0
  tValid : Nat := 0
  tUnwrap : Nat := 0
  tFade : Nat := 0
  tSubst : Nat := 0
  tSnrMin : Option Num := none
  /-- FROZEN was already set in this Tide (R129). -/
  tFrozen : Bool := false
  /-- The same of the last complete Tide, as the registers show them. -/
  rValid : Nat := 0
  rUnwrap : Nat := 0
  rFade : Nat := 0
  rSubst : Nat := 0
  rSnrMin : Nat := 0
  rNoiseX : Nat := 0xFFFF
  rNoiseY : Nat := 0xFFFF
  validFrac : Num := ⟨0, 0⟩
  resolvedFrac : Num := ⟨0, 0⟩
  frozenFrac : Num := ⟨0, 0⟩
  /-- The last launches' outputs, newest first, at most 1,600: the longest span, and the launches of the 64 µs in which an output
  may wait (R147, R161). -/
  out : List SwLaunch := []
  /-- Launches of the Tide whose records have come: count, and the latest launch. -/
  tLaunches : Nat := 0
  lastLaunch : Option Launch := none
  /-- Valid words of each point over the Tide whose records come, with its number and launches, and the same of the Tide
  before (R368). -/
  vTide : Nat := 0
  vN : Nat := 0
  vCur : List Nat := []
  lN : Nat := 0
  lCur : List Nat := []
  /-- The anchor record of the latest launch's Tide has been sent (R138). -/
  anchorSent : Bool := true
  deriving DecidableEq, Repr

/-! ## Decimation and Lauter (spec/06_decimation_and_lauter.md) -/

/-- What an output needs of its channel as it stood before a history clear or a change of preset: banks A and B, the active one, the
swaps, the first launch after the clear before, the points lost (R151–R153, R156, R157, R160). -/
structure DecPast where
  a : List Int := []
  b : List Int := []
  active : Nat := 0
  log : List (Nat × Nat) := []
  clearEll : Option Nat := none
  lost : List (Nat × Nat) := []
  deriving DecidableEq, Repr

/-- One decimation channel. -/
structure Decim where
  /-- Banks A and B: h[0] to h[6D − 1] (R151). -/
  bankA : List Int := []
  bankB : List Int := []
  active : Nat := 0
  /-- A swap to this bank has been asked for (R152). -/
  want : Option Nat := none
  /-- Time of the latest launch at the request: the boundary must follow it (R152). -/
  wantAt : Option Nat := none
  /-- The swaps that outputs still depend on, newest first: the output boundary, and the bank of the outputs whose first
  span launch follows it (R152). -/
  swapLog : List (Nat × Nat) := []
  swaps : Nat := 0
  /-- First launch after the latest history clear (R157); none before the first launch. -/
  clearEll : Option Nat := none
  /-- Points whose state was lost, each with the launch the error was met at (R160). -/
  lost : List (Nat × Nat) := []
  /-- The boundary launch of the latest output. -/
  lastOut : Option Nat := none
  /-- Times of the boundary launches whose outputs have not yet been emitted, oldest first (R161). -/
  due : List Nat := []
  /-- The channel as it stood for launches before a time: the first launch of a Tide that cleared it or changed its preset. -/
  past : Option (Nat × DecPast) := none
  deriving DecidableEq, Repr

/-- A biquad section's memory: x₁, x₂, y₁, y₂ (R163). -/
structure Biquad where
  x1 : Num := ⟨0, 0⟩
  x2 : Num := ⟨0, 0⟩
  y1 : Num := ⟨0, 0⟩
  y2 : Num := ⟨0, 0⟩
  deriving DecidableEq, Repr

/-- A section's coefficients b0, b1, b2, a1, a2, each a binary32 value. -/
structure BqCoef where
  b0 : Num
  b1 : Num
  b2 : Num
  a1 : Num
  a2 : Num
  deriving DecidableEq, Repr

/-- The Lauter sums of one Tide (R166, R168): its launches, the energy per point and band, valid launches per point, the
header's flags, and the last launch. -/
structure LautSum where
  launches : Nat := 0
  energy : List (List Num) := []
  valid : List Nat := []
  settling : Bool := false
  calStale : Bool := false
  incomplete : Bool := false
  restart : Bool := false
  refSub : Bool := false
  lateMissing : Bool := false
  dark : Bool := false
  biasUnlock : Bool := false
  last : Launch
  deriving DecidableEq, Repr

/-- A Lauter record as detection reads it: its Tide, launch settings, band mask, group size, and per group ValidFrac and
the codes of the enabled bands. -/
structure LautRec where
  last : Launch
  time : Nat
  settling : Bool
  incomplete : Bool
  mask : Nat
  group : Nat
  groups : List (Nat × List Nat)
  deriving DecidableEq, Repr

/-- One port's Lauter bank. -/
structure Lauter where
  /-- Coefficients of the two sections of bands 0–7, none where the band is off, each set with the ordinal of the Tide from which
  launches take it, newest first (R115, R163). -/
  coefs : List (Nat × List (Option (BqCoef × BqCoef))) := []
  clamp : Nat := 0
  /-- Filter state per point, per band. -/
  st : List (List (Biquad × Biquad)) := []
  /-- Launches since the latest clear (R167). -/
  since : Nat := 0
  /-- Sums of the Tide whose records are coming, and of a Tide that is complete. -/
  cur : Option LautSum := none
  done : Option LautSum := none
  deriving DecidableEq, Repr

/-! ## The object dictionary (spec/14_object_dictionary.md) -/

/-- An open session (R383). -/
structure Session where
  num : Nat
  path : Path
  source : Nat
  level : Nat
  /-- Expiry of its token, TIME64. -/
  expiry : Nat
  deriving DecidableEq, Repr

/-- An open download (R396). -/
structure Transfer where
  path : Path
  source : Nat
  session : Nat
  key : Nat
  total : Nat
  crc : Nat
  data : List Byte
  deriving DecidableEq, Repr

/-- An upload snapshot (R398): its requester, object, value, and which bytes have been read. -/
structure Snapshot where
  path : Path
  source : Nat
  key : Nat
  data : List Byte
  /-- Read pieces, as offset and length. -/
  got : List (Nat × Nat)
  deriving DecidableEq, Repr

/-- A kept response (R393). -/
structure Kept where
  path : Path
  source : Nat
  transaction : Nat
  response : List Byte
  deriving DecidableEq, Repr

/-- A request as the server takes it: its caller, service, object, data, what the world adds, and where its carrier wants the
response (R437). -/
structure Req where
  c : OdCaller
  svc : Nat
  k : OdKey
  data : List Byte
  h : Hint := {}
  buf : Option (Nat × Nat) := none
  deriving DecidableEq, Repr

/-- A forwarded request that awaits its answer (R384), or one node's part of a broadcast write (R385). -/
structure Forwarded where
  caller : OdCaller
  node : Nat
  key : Nat
  service : Nat
  /-- Part of the broadcast of this number. -/
  bcast : Option Nat
  /-- Where its carrier wants the response: offset in the host region and capacity (R437). -/
  buf : Option (Nat × Nat)
  deriving DecidableEq, Repr

/-- A broadcast write that gathers its answers (R385): its caller, object, (node, status) of those that answered, and the Tide in
which it was served here (R388). -/
structure Broadcast where
  num : Nat
  caller : OdCaller
  key : Nat
  tide : Nat
  results : List (Nat × Nat)
  buf : Option (Nat × Nat)
  deriving DecidableEq, Repr

/-- The dictionary: values by key (index × 256 + subindex) and the server. A value missing from a list is the default. -/
structure Od where
  /-- Values in force. -/
  act : List (Nat × List Byte) := []
  /-- Last values written, where they differ in kind from the value in force (R380). -/
  pend : List (Nat × List Byte) := []
  /-- The store image: accepted writes to persistent objects (R399), and whether some are uncommitted. -/
  image : List (Nat × List Byte) := []
  dirty : Bool := false
  /-- The last commit failed, and is retried (R400). -/
  commitFailed : Bool := false
  storeFails : Nat := 0
  requests : Nat := 0
  errors : Nat := 0
  busy : Nat := 0
  kept : List Kept := []
  sessions : List Session := []
  transfers : List Transfer := []
  snaps : List Snapshot := []
  fwd : List Forwarded := []
  bcasts : List Broadcast := []
  fwdCount : Nat := 0
  /-- Requests that wait to be served, at most 32, in arrival order (R392). -/
  queue : List Req := []
  /-- Requests that wait in a host path's carrier for firmware to start the server, one a path (R392). -/
  early : List Req := []
  deriving DecidableEq, Repr

/-! ## Host interfaces (spec/15_host_registers_mailboxes.md) -/

/-- An export ring's pointers (R423–R427). -/
structure ExpRing where
  wp : Nat := 0
  rp : Nat := 0
  drops : Nat := 0
  /-- Records dropped since the last entry; the Time, Launch and port of the first. -/
  gapN : Nat := 0
  gapTime : Nat := 0
  gapLaunch : Nat := 0
  gapPort : Port := .a
  seq : Nat := 0
  /-- WP has advanced since the ring's last vector. -/
  due : Bool := false
  deriving DecidableEq, Repr

/-- The bus-error capture, the indirect pairs, the export rings. -/
structure HostIf where
  busErrs : Nat := 0
  errAddr : Nat := 0
  errInit : Nat := 0
  errWrite : Bool := false
  rings : List ExpRing := List.replicate 8 {}
  /-- Records at the export DMA, first to go first (R423). -/
  expIn : List ExportRec := []
  deriving DecidableEq, Repr

/-- A mailbox channel from one endpoint to another (R433, R434). -/
structure Chan where
  data : List Nat := [0, 0, 0, 0, 0, 0, 0, 0]
  full : Bool := false
  len : Nat := 0
  /-- Stamped at the post: the sender's epoch and the serial. -/
  epoch : Nat := 0
  serial : Nat := 0
  next : Nat := 0
  discards : Nat := 0
  deriving DecidableEq, Repr

/-- An endpoint's receive side (R433, R435). -/
structure EndPt where
  /-- Holding registers per sender: header and words. -/
  hold : List (List Nat) := List.replicate 9 (List.replicate 8 0)
  /-- Doorbells: set bits with their sequence (R435). -/
  bells : SeqReg := {}
  latch : Nat := 0
  mask : Nat := 0
  epoch : Nat := 0
  deriving DecidableEq, Repr

/-- Mailboxes and semaphores. -/
structure Mbox where
  /-- Channel from s to d at 9 × s + d. -/
  chans : List Chan := List.replicate 81 {}
  ends : List EndPt := List.replicate 9 {}
  /-- Owner of each semaphore, as initiator ID. -/
  sems : List (Option Nat) := List.replicate 32 none
  nonInit : Nat := 0
  nonSem : Nat := 0
  deriving DecidableEq, Repr

/-! ## Time base (spec/12_time_and_timing.md) -/

/-- An input of the time-interval unit (R321–R325, R329). -/
structure TiuIn where
  level : Bool := false
  /-- The input is dead before this time, ps (R324). -/
  deadUntil : Nat := 0
  stuck : Bool := false
  dead : Nat := 0
  glitches : Nat := 0
  stucks : Nat := 0
  strays : Nat := 0
  /-- Gain and offset in service: sums of the 256 measurements of one and of two periods, ps (R329). -/
  gain : Int := 204800
  ofs : Int := 0
  calAt : Nat := 0
  stale : Bool := false
  /-- Which of its two interpolators is in service (R329). -/
  second : Bool := false
  /-- Events that its fixed consumer has not taken yet, ps, oldest first (R322). -/
  events : List Nat := []
  deriving DecidableEq, Repr

/-- The measurement series (R326–R328): parameters in force, progress and results. -/
structure Series where
  /-- MeasState. -/
  state : Nat := 0
  mode : Nat := 0
  start : Nat := 0
  stop : Nat := 0
  n : Nat := 1
  gate : Nat := 0
  taken : Nat := 0
  /-- The start event waiting for its stop, ps, and whether it counts. -/
  pend : Option (Nat × Bool) := none
  /-- Time of the latest stop event that no start waited for, ps. -/
  lastStop : Option Nat := none
  /-- GATE_IN's level at the arm, whether active, and its edges since, newest first: time in ps, and whether it turned active
  (R327). -/
  gateWas : Bool := false
  gateLog : List (Nat × Bool) := []
  sum : Nat := 0
  sumSq : Nat := 0
  low : Nat := 0
  high : Nat := 0
  flags : Nat := 0
  mean : Nat := 0
  std : Nat := 0
  min : Nat := 0
  max : Nat := 0
  /-- Timestamp FIFO: input and time in ps, oldest first; the time the last read latched. -/
  fifo : List (Nat × Nat) := []
  latch : Nat := 0
  overflow : Nat := 0
  deriving DecidableEq, Repr

/-- Local time and its servo, GNSS, PTP and the time-interval unit. -/
structure TimeBase where
  /-- Local time, ns since the PTP epoch (R312), as far as commands have brought it. -/
  now : Nat := 0
  /-- The counter of R312 at the latest tick of the sample clock, in 2^(−32) ns, and how many ticks of 8 ns have passed. -/
  tickAt : Nat := 0
  ticks : Nat := 0
  /-- TimeState (R314). -/
  state : Nat := 0
  /-- Servo offset θ, ns, and frequency correction y, 0.001 ppb (R312). -/
  theta : Int := 0
  y : Int := 0
  /-- Offset measured since the last servo sample (R314). -/
  offset : Option Int := none
  /-- Consecutive samples within LockThreshold (R314). -/
  lockRun : Nat := 0
  /-- The first Tide of this start has run (R312). -/
  tideRan : Bool := false
  warm : Bool := false
  /-- The servo has had a sample since the start, so that it has a frequency estimate (R308). -/
  synced : Bool := false
  /-- When the last Sync message came, and when GNSS ceased to be valid, ns (R314). -/
  syncAt : Nat := 0
  gnssAt : Nat := 0
  /-- A manager may be grandmaster: GNSS has become valid, or it runs free after GnssWait (R316). -/
  gmOn : Bool := false
  /-- The grandmaster says its time is not traceable (R315, R316). -/
  gmFree : Bool := false
  /-- GnssState, the time of the last PPS edge that was not ignored, less PpsDelay, ps; whether it followed the one before by 1 s;
  the second its sentence named and that of the edge before; the run of good seconds and of jumps (R319, R320). -/
  gnss : Nat := 0
  lastPps : Option Int := none
  stepOk : Bool := false
  /-- The last PPS edge, ps, and whether it was ignored as a jump. -/
  edgeAt : Option Nat := none
  edgeSkip : Bool := false
  sec : Option Nat := none
  prevSec : Option Nat := none
  ppsRun : Nat := 0
  jumps : Nat := 0
  jumpCount : Nat := 0
  /-- MeanPathDelayW and MeanPathDelayE, ps (R318), and the sequence number of the Sync messages. -/
  delayW : Nat := 0
  delayE : Nat := 0
  syncSeq : Nat := 0
  /-- Sequence number of the peer delay requests. -/
  reqSeq : Nat := 0
  inputs : List TiuIn := List.replicate 6 {}
  series : Series := {}
  calCount : Nat := 0
  calTime : Nat := 0
  calFails : Nat := 0
  deriving DecidableEq, Repr

/-- A port's microwave synthesiser (R311): powered, locked, the frequency in steps of 156.25 MHz / 2^24. -/
structure Synth where
  on : Bool := false
  locked : Bool := false
  steps : Nat := 0
  deriving DecidableEq, Repr


/-! ## The Kiln engine (spec/07_kiln_brillouin_engine.md) -/

/-- The settings an accumulation runs under (R184): the Kiln objects applied at epoch commit and what it takes from the
plan. -/
structure KilnCfg where
  toneKhz : Nat := 1900000
  mode16 : Bool := false
  shots : Nat := 17
  shift : Nat := 12
  dest : Nat := 0
  coilFirst : Nat := 0
  coilCount : Nat := 1
  b : Nat := 0
  bins : Nat := 0
  epoch : Nat := 0
  deriving DecidableEq, Repr

/-- An accumulation (R180–R182): its buffer, the accumulators A(i, c), the shots, and the coil temperatures reported
during it (R191). -/
structure KilnAcc where
  cfg : KilnCfg := {}
  /-- Launch time of its first shot (R182). -/
  start : Nat := 0
  buf : Nat := 0
  cells : List (List Nat) := []
  accepted : Nat := 0
  dropped : Nat := 0
  /-- Launch times of the first accepted and of the last shot; Tide and ℓ of the last. -/
  first : Option Nat := none
  last : Nat := 0
  lastTide : Nat := 0
  lastEll : Nat := 0
  /-- An accepted shot came before the warm-up completed (R195); a shot was free-running (R315). -/
  cold : Bool := false
  timeFree : Bool := false
  coil : List Num := []
  coilBreak : Bool := false
  deriving DecidableEq, Repr

/-- A zone as it stood at a profile's completion (R196). -/
structure Zone where
  first : Nat
  last : Nat
  mode : Nat
  ct : Num
  ce : Num
  ofs : Num
  held : Num
  deriving DecidableEq, Repr

/-- What the fit gives a bin: code (R190), SNR in 0.25 dB, shift ν in MHz, linewidth in MHz, floor. -/
structure BinFit where
  code : Nat
  snr : Nat := 0
  nu : Num := ⟨0, 0⟩
  gamma : Num := ⟨0, 0⟩
  floor : Num := ⟨0, 0⟩
  deriving DecidableEq, Repr

/-- A completed accumulation on its way to its profile (R183, R189–R198), with what was in force at its completion. -/
structure KilnFit where
  acc : KilnAcc
  seq : Nat
  synHz : Num
  eSyn : Int
  anchor : Option Num
  coilT : Option Num
  zones : List Zone
  /-- G(c) as binary32 bits; none where no shape has been accepted for the mode. -/
  shape : Option (List Nat)
  calStale : Bool
  /-- Ranges of the fit pool's cores: core, first ordinal among the non-blind bins, count (R220). -/
  ranges : Option (List (Nat × Nat × Nat)) := none
  /-- Ordinals left unfitted by a core's exception (R223). -/
  unfit : List Nat := []
  bins : Option (List BinFit) := none
  over_ : Bool := false
  incomplete : Bool := false
  /-- A core's work on it ended by a poisoned or uncorrectable read (R223); its record's format has no such flag (log 146). -/
  poisoned : Bool := false
  /-- Ordinal of the Tide in which it ended (R45). -/
  endedAt : Nat := 0
  deriving DecidableEq, Repr

/-- One port's Kiln engine. -/
structure Kiln where
  /-- Slot 0 launches whose Kiln record has not yet come. -/
  flight : List Launch := []
  /-- An accumulation waits to start, with a launch made at this time or later (R182, R184). -/
  waiting : Bool := false
  waitAt : Nat := 0
  acc : Option KilnAcc := none
  /-- The buffer the next accumulation takes. -/
  next : Nat := 0
  fits : List KilnFit := []
  seq : Nat := 0
  lastTime : Nat := 0
  lastAccepted : Nat := 0
  lastDropped : Nat := 0
  coilT : Option Num := none
  anchor : Option Num := none
  /-- A candidate has been accepted since the start; the previous profile's candidate; profiles since an acceptance. -/
  anchored : Bool := false
  prevCand : Option Num := none
  noAccept : Nat := 0
  coilFails : Nat := 0
  coilCount : Nat := 0
  coilTime : Nat := 0
  overruns : Nat := 0
  /-- Accepted shapes of the 32-channel and 16-channel modes, binary32 bits, and the state of each mode (R187). -/
  shape32 : Option (List Nat) := none
  shape16 : Option (List Nat) := none
  shapeState32 : Nat := 0
  shapeState16 : Nat := 0
  shapeRun : Bool := false
  /-- The shape calibration's running sums per channel, the launches in them, and its runs that have ended, newest first
  (R187). -/
  shapeSum : List Nat := []
  shapeN : Nat := 0
  shapeRuns : List (List Nat) := []
  floorCode : Nat := 0
  aliasLvl : Nat := 0xFFFF
  /-- The alias measure of a slot 0 launch that waits for the next launch's, and the Tide's differences: sum and number
  (R201). -/
  aliasWait : Option Num := none
  aliasSum : Num := ⟨0, 0⟩
  aliasN : Nat := 0
  /-- e_syn in force, Hz; a frequency reference calibration runs (R194). -/
  eSyn : Int := 0
  freq : CalItem := {}
  freqRun : Bool := false
  deriving DecidableEq, Repr

/-! ## The Brewhouse (spec/08_brewhouse_dsp.md) -/

/-- What a core is dispatched for (R216): detection, tracking or the Kiln fit of a port, or a customer program. -/
inductive Work where
  | detect (q : Port)
  | track (q : Port)
  | fit (q : Port)
  | customer (p : Nat)
  deriving DecidableEq, Repr

/-- A hardware loop (R203): first and last instruction, iterations left. -/
structure CoreLoop where
  first : Nat
  last : Nat
  left : Nat
  deriving DecidableEq, Repr

/-- What a core's program memory holds: nothing, the library's program of a pool, a customer image's code (R203, R216). -/
inductive CoreProg where
  | empty
  | library (pool : Nat)
  | image (img : List Byte)
  deriving DecidableEq, Repr

/-- One core (R203). -/
structure Core where
  /-- Its program memory (R203, R216). -/
  prog : CoreProg := .empty
  running : Bool := false
  /-- Waits for an event, or for DMA until at most this many descriptors are queued. -/
  waitEvent : Bool := false
  waitDma : Option Nat := none
  /-- An abort or a stop has been signalled and not answered (R221, R223). -/
  aborting : Bool := false
  stopping : Bool := false
  out : Bool := false
  work : Option Work := none
  /-- Ordinal of the Tide at whose edge its Tide work must have ended (R45); that of Tide work that waits for it to halt. -/
  due : Option Nat := none
  again : Option Nat := none
  /-- Since when a customer's work counts as busy (R222). -/
  since : Nat := 0
  pc : Nat := 0
  x : List Host.Cell := []
  y : List Host.Cell := []
  /-- V0–V15, 128 bits each. -/
  v : List Nat := List.replicate 16 0
  /-- A0–A7, eight lanes of 48 bits, two's complement. -/
  a : List (List Int) := List.replicate 8 (List.replicate 8 0)
  s : List Nat := List.replicate 16 0
  ag : List AgSetup := List.replicate 8 ⟨0, 0, 0, 1, 0, 0⟩
  best : Int := 0
  bestIdx : Nat := 0xFFFFFFFF
  loops : List CoreLoop := []
  rets : List Nat := []
  /-- Queued descriptors, each with the customer program that queued it, none for the library's (R203, R234). -/
  dma : List (Option Nat × DmaDesc) := []
  accOvf : Bool := false
  sat : Bool := false
  deriving DecidableEq, Repr

/-- A cell's background (R224, R226): b, and while learning the sum and number of its non-zero codes. -/
structure DetCell where
  b : Nat := 0
  sum : Nat := 0
  n : Nat := 0
  deriving DecidableEq, Repr

/-- An open detection (R224, R225). -/
structure Detection where
  first : Nat
  last : Nat
  peak : Nat
  excess : Nat
  bands : Nat
  /-- Tides it has been open. -/
  age : Nat
  /-- Consecutive evaluated Tides in which no group of its extent was hot. -/
  off : Nat
  deriving DecidableEq, Repr

/-- An entry of a detection record (R227). -/
structure DetEntry where
  first : Nat
  last : Nat
  peak : Nat
  excess : Nat
  bands : Nat
  state : Nat
  deriving DecidableEq, Repr

/-- A detection record on its way to tracking (R227). -/
structure DetRec where
  time : Nat
  tide : Nat
  epoch : Nat
  entries : List DetEntry
  flags : Nat
  groups : Nat
  group : Nat
  evaluated : Bool
  /-- Ordinal of its Tide (R45). -/
  nth : Nat
  /-- The settings the record's distances are formed with (R228): r_0, p, n, g. -/
  cfg : Cfg
  deriving DecidableEq, Repr

/-- A port's detection under way: the record, the ranges (core, first group, count) still working, those that faulted. -/
structure DetWork where
  lrec : LautRec
  busy : List (Nat × Nat × Nat)
  faulted : List (Nat × Nat) := []
  incomplete : Bool := false
  poisoned : Bool := false
  /-- Per group evaluated so far, its hot bands and largest excess (R219, R224). -/
  hots : List (Nat × Nat) := []
  deriving DecidableEq, Repr

/-- The settings that the library evaluates a record under: DetEnable, DetBandMask, DetLearnTides, the size of R213. -/
structure DetUse where
  on : Bool := false
  mask : Nat := 0
  learn : Nat := 0
  ge : Nat := 0
  trunc : Bool := false
  deriving DecidableEq, Repr

/-- One port's detection library. -/
structure Detect where
  cells : List (List DetCell) := []
  /-- Consecutive evaluated Tides each group has been hot. -/
  hotRun : List Nat := []
  opened : List Detection := []
  learned : Nat := 0
  ge : Nat := 0
  trunc : Bool := false
  /-- Settings in use, and the changes that await the first record of a Tide, by its ordinal: true where it also clears the
  library (R213, R226). -/
  use : DetUse := {}
  changes : List (Nat × Bool) := []
  /-- Tides of a lower ordinal are done with; the one that a deadline ended without a record, for stage 2 (R46, R218). -/
  doneTo : Nat := 0
  missed : Option Nat := none
  work : Option DetWork := none
  /-- The Tide's record, for tracking, and for the Cellar's triggers. -/
  done : Option DetRec := none
  trig : Option DetRec := none
  deriving DecidableEq, Repr

/-- A track (R229–R231). -/
structure Track where
  id : Nat
  x : Num
  v : Num
  misses : Nat := 0
  confirmed : Bool := false
  pairings : Nat := 0
  age : Nat := 0
  excess : Nat
  firstTide : Nat
  time : Nat
  /-- Consecutive Tides close to each other confirmed track, by its TrackId. -/
  near : List (Nat × Nat) := []
  deriving DecidableEq, Repr

/-- One port's tracking library. -/
structure Tracker where
  tracks : List Track := []
  serial : Nat := 0
  drops : Nat := 0
  /-- Tracks handed off, which the next record reports in state 2 (R372). -/
  ending : List Track := []
  /-- The detection record being tracked, and the core. -/
  work : Option (Nat × DetRec) := none
  /-- Tides of a lower ordinal are done with. -/
  doneTo : Nat := 0
  /-- Tracking is disabled from the Tide of this ordinal on; its tracks go with the record of the Tide before (R230). -/
  dropAt : Option Nat := none
  deriving DecidableEq, Repr

/-- A record in a customer program's output queue (R221, R223): the core that published it, the deadline of its work, flags. -/
structure OutRec where
  bytes : List Byte
  core : Nat
  due : Option Nat
  incomplete : Bool := false
  poisoned : Bool := false
  deriving DecidableEq, Repr

/-- A customer program (R232–R234). -/
structure Program where
  image : List Byte := []
  hdr : ImageHeader := {}
  /-- Base and length of its part of cluster memory. -/
  memBase : Nat := 0
  memLen : Nat := 0
  /-- ProgramState. -/
  state : Nat := 0
  cores : List Nat := []
  faults : Nat := 0
  faultRun : Nat := 0
  faultNow : Bool := false
  /-- Bytes waiting in its stream rings, ports A and B (R214). -/
  ringA : List (List Byte) := []
  ringB : List (List Byte) := []
  /-- Bytes written into each ring since the program started: where the next record begins in pool SRAM (R212). -/
  putA : Nat := 0
  putB : Nat := 0
  /-- Customer objects written since the image was loaded or the program stopped (R405, log 65). -/
  objs : List (Nat × List Byte) := []
  /-- Its output queue. -/
  outputs : List OutRec := []
  deriving DecidableEq, Repr

/-- The cluster. -/
structure Brew where
  cores : List Core := List.replicate 16 {}
  fitQueue : List Port := []
  faults : Nat := 0
  drops : Nat := 0
  progs : List Program := List.replicate 4 {}
  /-- Busy cycles of each core's per-Tide work in the running Tide, and the largest fraction of the last (R222). -/
  busy : List Nat := List.replicate 16 0
  peak : Num := ⟨0, 0⟩
  deriving DecidableEq, Repr


/-! ## Chain and paired spans (spec/13_chain_and_paired_spans.md) -/

/-- One trunk link: R342–R344 and its key exchange (R475–R477). -/
structure Link where
  up : Bool := false
  /-- The PCS has block lock. -/
  pcs : Bool := false
  secured : Bool := false
  wrapped : Bool := false
  /-- Came back in a ring and is held unused (R344). -/
  held : Bool := false
  /-- RING_RESTORE: wrapping ends at the next Tide edge. -/
  restore : Bool := false
  /-- Key exchange: 0 none, 1 first frames sent, 2 peer verified, signatures sent, 3 peer's signature verified. -/
  xStep : Nat := 0
  /-- The running exchange is a re-key (R477). -/
  rekey : Bool := false
  /-- The own ephemeral key's number and nonce. -/
  ephem : Nat := 0
  nonce : List Byte := []
  /-- The exchange's transcript: this end's part and the peer's. -/
  sent : List Byte := []
  got : List Byte := []
  /-- The peer's device certificate. -/
  peerCert : List Byte := []
  /-- Keys in use and the older association's (R477): key material as HKDF gives it. -/
  keys : List Byte := []
  oldKeys : List Byte := []
  /-- A new association is installed and not yet used for sending. -/
  fresh : Bool := false
  /-- The association's number, and the extended packet numbers that the next frames sent with it and with the older one carry
  (R341). -/
  an : Nat := 0
  pn : Nat := 1
  oldPn : Nat := 1
  /-- Neighbour's node. -/
  peer : Nat := 0
  deriving DecidableEq, Repr

/-- What an egress port holds of what it has sent. -/
structure Egress where
  /-- What its token bucket lacks of being full, in thousandths of a bit, and when (R338). -/
  spent : Nat := 0
  spentAt : Nat := 0
  /-- Fault keys forwarded by it in the present Tide (R355). -/
  faultKeys : List Nat := []
  deriving DecidableEq, Repr

/-- What an epoch of the manager's own carries: nodes to resynchronise, ports and spans to realign, ends to restore, the hand-back
and the number it follows (R347, R352, R363, R369). -/
structure Carried where
  resync : List Nat := []
  realign : List Port := []
  spans : List SpanInfo := []
  ahead : Option Nat := none
  restore : List (Nat × Nat) := []
  giveBack : Nat := 0
  deriving DecidableEq, Repr

/-- An entry of the manager's fault table (R356). -/
structure FaultRow where
  key : Nat
  reports : Nat
  first : Nat
  last : Nat
  node : Nat
  deriving DecidableEq, Repr

/-- The duplicate filter of one source and class (R339). -/
structure Seen where
  source : Nat
  cls : Nat
  high : Nat
  /-- Sequence numbers seen within the window. -/
  nums : List Nat
  deriving DecidableEq, Repr

/-- A pending epoch at a node (R349, R350): its number, target Tide, and the snapshot taken. -/
structure EpochPend where
  num : Nat
  tide : Nat
  snap : List (Nat × List Byte)
  /-- The snapshot came as this node's full image (R352). -/
  image : Bool
  /-- The plan period it carries (R386). -/
  period : Nat
  /-- It hands the manager role back to this strapped manager; 0 none (R347). -/
  handBack : Nat
  /-- Ends of spans, as node and port, that return to PairState 2 (R369). -/
  restore : List (Nat × Nat)
  deriving DecidableEq, Repr

/-- A present node as the manager counts it (R345): status requests missed, its epoch and one-way latency in ns. -/
structure NodeRow where
  node : Nat
  missed : Nat
  epoch : Nat
  latency : Nat
  deriving DecidableEq, Repr

/-- The link agent, relay, and manager. -/
structure Chain where
  w : Link := {}
  e : Link := {}
  /-- The egress ports: the trunks and the local port. -/
  outW : Egress := {}
  outE : Egress := {}
  outL : Egress := {}
  localUp : Bool := false
  /-- ChainState (R373). -/
  state : Nat := 0
  /-- Acting manager's node; 0 none. -/
  acting : Nat := 0
  /-- This node acts as manager. -/
  iAct : Bool := false
  /-- Lost the role to another strapped manager until the next start (R336). -/
  demoted : Bool := false
  /-- A strapped manager still listens (R347). -/
  listening : Bool := false
  /-- Tides since the last heartbeat. -/
  quiet : Nat := 0
  /-- Heartbeats sent. -/
  beats : Nat := 0
  nodes : List NodeRow := []
  /-- Next sequence number of each class. -/
  seqs : List Nat := [0, 0, 0, 0, 0]
  seen : List Seen := []
  /-- Port by which each source's last frame came. -/
  dirs : List (Nat × LinkPort) := []
  /-- Lost links of the ring, by fault key, each with the nodes whose learned direction is turned round (R343). -/
  breaks : List (Nat × List Nat) := []
  /-- Restored links, which revert at the next Tide edge (R344). -/
  reverts : List Nat := []
  /-- The ring state as the acting manager's heartbeat says, and the node count (R346). -/
  ring : Bool := false
  count : Nat := 0
  /-- HopLimit as the acting manager's heartbeat says (R339, R373). -/
  hopLimit : Nat := 1023
  pend : Option EpochPend := none
  /-- Nodes whose acknowledgement the manager awaits. -/
  awaiting : List Nat := []
  result : Nat := 255
  refuser : Nat := 0
  /-- Class 3 rates declared to the running prepare by the nodes reached over TRUNK_W and TRUNK_E, kbit/s (R353, log 59). -/
  loadW : Nat := 0
  loadE : Nat := 0
  /-- Snapshots accepted for the pending epoch. -/
  accepted : List (Nat × List (Nat × List Byte)) := []
  /-- Chain image (R352): node and its snapshot. -/
  images : List (Nat × List (Nat × List Byte)) := []
  /-- Nodes to resynchronise once no epoch is pending. -/
  resync : List Nat := []
  /-- A paired port of the manager's is to be realigned (R363), and ends of spans to be restored (R369), once no epoch is
  pending; a strapped manager that the role goes back to, 0 none (R347). -/
  realign : List Port := []
  /-- Spans whose ends have left their alignment or are to be restored (R363, R369). -/
  spans : List SpanInfo := []
  /-- The later of two managers' active epochs, which the next epoch's number follows (R347), and how far the status request
  that the epoch waits for has come: 2 to be sent, 1 sent in this Tide, 0 answered (log 181). -/
  ahead : Option Nat := none
  meet : Nat := 0
  restore : List (Nat × Nat) := []
  giveBack : Nat := 0
  /-- What the pending epoch carries of these, to be carried again where it is cancelled. -/
  carried : Carried := {}
  /-- ChainLatency, µs. -/
  latency : Nat := 0
  table : List FaultRow := []
  overflow : Nat := 0
  dupDrops : Nat := 0
  stomped : Nat := 0
  policed : Nat := 0
  deriving DecidableEq, Repr

/-- A hand-off that awaits its acknowledgement (R372). -/
structure Handoff where
  track : Nat
  tide : Nat
  deriving DecidableEq, Repr

/-- What the far end of a span says of its port (R361, R365, R59): the node it names, PairMode, P, M, SlotMask, C, B, W,
r_0, PilotOffset in kHz, LaunchOffset, the first failing code of its takeover plan, whether it faces the manager, and whether its
delay carries the warm-up flag (R309). -/
structure Partner where
  names : Nat
  mode : Nat
  p : Nat
  m : Nat
  mask : Nat
  c : Nat
  b : Nat
  w : Nat
  r0 : Nat
  ofs : Int
  phi : Nat
  takeCode : Nat
  faces : Bool
  cold : Bool
  deriving DecidableEq, Repr

/-- One port's pairing (R357–R372). -/
structure Pair where
  /-- PairState. -/
  state : Nat := 0
  present : Bool := false
  goodRun : Nat := 0
  /-- Tide of the last good frame (R359). -/
  lastGood : Nat := 0
  /-- Last arrivals less the own Tide edge, 100 ps, newest first, at most 16 (R360). -/
  arrivals : List Int := []
  /-- Of each of these, whether it was measured while the oscillator was not warm (R309). -/
  cold : List Bool := []
  delayOut : Option Int := none
  skewRaised : Bool := false
  level : Nat := 0xFFFF
  /-- The far pilot carries flag bit 1. -/
  farTaken : Bool := false
  /-- Tides since the last pair status. -/
  quiet : Nat := 0
  unreachable : Bool := false
  partnerOptics : Nat := 0
  partnerState : Nat := 0
  partnerPilot : Bool := false
  /-- What the partner last said of its own port (log 58). -/
  partner : Option Partner := none
  /-- Target Tide of a takeover (R367). -/
  takeAt : Option Nat := none
  /-- Yields from this Tide's edge on (R369). -/
  yieldAt : Option Nat := none
  /-- The pilot's frame of this Tide waits for what takes effect at its edge (R58). -/
  pilotOwed : Bool := false
  /-- The symbols of the frame that the pilot carries in this Tide (R58). -/
  pilotSyms : List Bool := []
  /-- Flag bit 2 of the far pilot: the far end follows (R58). -/
  farFollows : Bool := false
  breakPos : Int := 0
  suggest : Nat := 0
  takeovers : Nat := 0
  handoffs : Nat := 0
  handFails : Nat := 0
  open_ : List Handoff := []
  deriving DecidableEq, Repr



/-! ## Housekeeping (spec/16_housekeeping_calibration.md) -/

/-- AUX_DATA (R445, R465), with the time of its result. -/
structure Aux where
  source : Nat := 0
  entry : Nat := 0
  inj : Bool := false
  diff : Bool := false
  ovr : Bool := false
  brk : Bool := false
  settling : Bool := false
  new : Bool := false
  value : Nat := 0
  time : Nat := 0
  deriving DecidableEq, Repr

/-- A result the sequencer has moved to firmware (R445): SourceValue as binary32 bits, and when it was converted. -/
structure HkVal where
  bits : Nat
  time : Nat
  /-- Its result was flagged: a code at a limit, or a break (R275, R445). -/
  broken : Bool := false
  deriving DecidableEq, Repr

/-- The settings a bridge conversion runs under (R451, R454). -/
structure BrCfg where
  en : Bool := false
  vmode : Bool := false
  uA : Nat := 500
  mV : Nat := 2500
  gain : Nat := 1
  ms : Nat := 100
  settle : Nat := 2
  func : Nat := 1
  deriving DecidableEq, Repr

/-- A bridge conversion that has ended and is delivered 10 µs later (R451). -/
structure BrRes where
  code : Int
  ovr : Bool
  cfg : BrCfg
  brk : Bool
  /-- It is among the first SettleCount results under its settings (R454). -/
  first : Bool
  deriving DecidableEq, Repr

/-- A bridge channel (R450–R455). -/
structure Bridge where
  /-- Settings of the running conversion. -/
  cfg : BrCfg := {}
  /-- A break was detected during it. -/
  brk : Bool := false
  /-- Results still to carry SETTLING after new settings, and after a break. -/
  setA : Nat := 0
  setB : Nat := 0
  wait : Option BrRes := none
  /-- BR_LAST: code and flags (settling, break, overrange). -/
  code : Int := 0
  flags : Nat := 0
  ratio : Nat := 0x7FC00000
  temp : Nat := 0x7FC00000
  breaks : Nat := 0
  deriving DecidableEq, Repr

/-- Which calibration holds the converter's scan slots (R447–R449): none, self, or system on an input (offset or gain). -/
inductive HkRun where
  | none
  | self
  | sys (full : Bool) (input : Nat)
  deriving DecidableEq, Repr

/-- The housekeeping converter. -/
structure Hk where
  refRdy : Bool := false
  refLost : Bool := false
  aux : Aux := {}
  overruns : Nat := 0
  injResult : Nat := 0x7FC00000
  injDrops : Nat := 0
  scanLate : Nat := 0
  /-- Slot last served (R443), the pass's next entry (R444), and a pass due while one runs. -/
  slot : Nat := 0
  pass : Option Nat := none
  passDue : Bool := false
  /-- The injected request that waits: source + 32 for differential (R446). -/
  inj : Option Nat := none
  /-- New entries of the scan list wait for the end of a pass (R444). -/
  listDue : Bool := false
  /-- The sequencer's write queue, oldest first, at most 16 (R445). -/
  queue : List Aux := []
  /-- SourceValue by source. -/
  values : List (Nat × HkVal) := []
  run : HkRun := .none
  /-- The self-calibration at ENABLE has ended (R447); it has been repeated. -/
  ready : Bool := false
  again : Bool := false
  /-- Factors accepted and in use: offset in 1/16 LSB, gain with 0x8000 = 1. -/
  ofsT : Int := 0
  gainT : Nat := 0x8000
  ofs : Int := 0
  gain : Nat := 0x8000
  selfState : Nat := 0
  calCount : Nat := 0
  calTime : Nat := 0
  sysState : Nat := 0
  calFails : Nat := 0
  br0 : Bridge := {}
  br1 : Bridge := {}
  deriving DecidableEq, Repr



/-! ## The DRAM controller (spec/10_dram_controller.md) -/

/-- A migration of a channel (R281–R283): the retiring rank, its start, the MiB copied, MigrationState. -/
structure Migration where
  rank : Nat
  start : Nat
  copied : Nat := 0
  state : Nat := 1
  deriving DecidableEq, Repr

/-- The capture of DDRC_ERR_LO and DDRC_ERR_HI (R289). -/
structure DramErr where
  line : Nat := 0
  rank : Nat := 0
  mis : Bool := false
  tag : Nat := 0
  deriving DecidableEq, Repr

/-- The controller. -/
structure Dram where
  trained : Bool := false
  /-- Channels in use, lowest first (R264). -/
  chans : List Nat := []
  /-- Chip select that serves CS0 and CS1 of channel c, at 2c and 2c + 1. -/
  serving : List Nat := [0, 1, 0, 1, 0, 1, 0, 1]
  /-- A channel's spare is fitted, trained and unused. -/
  spare : List Bool := [false, false, false, false]
  retired : Nat := 0
  degraded : Nat := 0
  chDegraded : Bool := false
  result : Nat := 0
  hot : Nat := 0
  /-- Postponed refreshes per rank, at 3 × channel + CS (R276); a spare's while it is copied to. -/
  backlog : List Nat := List.replicate 12 0
  lfsr : List Nat := [1, 2, 3, 4]
  /-- Ranks in precharge power-down, as 3 × channel + CS (R279). -/
  asleep : List Nat := []
  /-- Migrations by channel, and the channel of the latest. -/
  migs : List (Nat × Migration) := []
  lastMig : Option Nat := none
  corrected : Nat := 0
  uncorrectable : Nat := 0
  misaddress : Nat := 0
  poisoned : Nat := 0
  /-- Corrected words of each rank in the present window (R280). -/
  ce : List Nat := List.replicate 12 0
  /-- The patrol scrub's next line, passes, and the last pass's end (R280). -/
  scrubAt : Nat := 0
  passes : Nat := 0
  lastScrub : Nat := 0
  err : DramErr := {}
  /-- Channels that training lost before firmware ran: their contained fault is still to be raised (R264). -/
  owed : List Nat := []
  /-- Metadata of lines by address / 32 (R270, R271): poison flag + 2 × stream tag; 0 where not listed. -/
  info : List (Nat × Nat) := []
  deriving DecidableEq, Repr



/-! ## Cask engines (spec/11_cask_compression.md) -/

/-- A running job: its descriptor's address, and what its descriptor said when it was read (R293). -/
structure CaskJob where
  addr : Nat
  src : Nat
  len : Nat
  dst : Nat
  cap : Nat
  op : Nat
  level : Nat
  flags : Nat
  log2 : Nat
  /-- NextSequence, InputConsumed and OutputProduced it starts from (R304). -/
  seq : Nat
  consumed : Nat
  produced : Nat
  deriving DecidableEq, Repr

/-- An engine: its queue of descriptor addresses, and the running job (R290, R291). -/
structure CaskEng where
  queue : List Nat := []
  job : Option CaskJob := none
  /-- Set CASK_STAT bits for which a job's descriptor requested the interrupt (R291, R306). -/
  asked : Nat := 0
  deriving DecidableEq, Repr

/-- A compression job of firmware's for an export (R292): capture, port, ring and segment of its manifest entry, the engine in
whose hands it is, if any, and which of firmware's descriptors it has, once submitted. -/
structure ExportJob where
  d : Nat
  q : Port
  c : Nat
  seg : Nat
  eng : Option Nat := none
  slot : Option Nat := none
  deriving DecidableEq, Repr

/-- CMP0, CMP1, DCMP, firmware's jobs in them, and the counts of R305. -/
structure Cask where
  engs : List CaskEng := [{}, {}, {}]
  jobs : List ExportJob := []
  written : Nat := 0
  raw : Nat := 0
  noSpace : Nat := 0
  decErrors : Nat := 0
  deriving DecidableEq, Repr



/-! ## The Cellar (spec/09_cellar_capture.md) -/

/-- A ring entry as the Cellar keeps track of it (R239): offset of its tag in the segment, whole length, type, tag Sequence,
Time and Launch, the launch's ordinal among the port's launches (R240) and its launch time (of a Kiln record when it was
completed), the gap flag, and the channel of a decimated record. -/
structure RingEntry where
  ofs : Nat
  size : Nat
  type : Nat
  seq : Nat
  time : Nat
  launch : Nat
  ord : Int
  lt : Nat
  gap : Bool
  ch : Nat := 0
  deriving DecidableEq, Repr

/-- A segment that holds entries or is withdrawn: its entries, oldest first, and the captures that hold it (R250). -/
structure Segment where
  entries : List RingEntry := []
  held : List Nat := []
  deriving DecidableEq, Repr

/-- A ring (R237–R239): base address, segment bytes, segment count (0: no ring), the segments by index, the open segment and
its fill, the entry count, a gap in progress (records dropped, the first of them), and the latest entry that has been
overwritten (R246). -/
structure Ring where
  base : Nat := 0
  segBytes : Nat := 0
  n : Nat := 0
  segs : List (Nat × Segment) := []
  cur : Nat := 0
  fill : Nat := 0
  count : Nat := 0
  dropN : Nat := 0
  dropTime : Nat := 0
  dropLaunch : Nat := 0
  dropLt : Nat := 0
  gapNext : Bool := false
  gone : Option RingEntry := none
  deriving DecidableEq, Repr

/-- A run of launches on one Tide grid (R24, R240): from this PTP time on; the Tide whose edge that is, P, M, φ; the ℓ and the
ordinal of its first launch; how many changes of P or M have come before it. -/
structure PlanRun where
  start : Nat
  tide : Nat
  p : Nat
  m : Nat
  phi : Nat
  ell : Nat
  ord : Int
  plan : Nat := 0
  deriving DecidableEq, Repr

/-- A resolved trigger (R244): descriptor, source, the trigger's port, launch ordinal and ℓ, range sample, resolved time,
whether it came over a trunk, and the time it was resolved from, where it was. -/
structure Trigger where
  d : Nat
  source : Nat
  port : Port
  ord : Int
  ell : Nat
  r : Nat
  time : Nat
  trunk : Bool
  due : Option Nat := none
  deriving DecidableEq, Repr

/-- One port's Cellar block. -/
structure Cellar where
  rings : List Ring := [{}, {}, {}, {}, {}]
  /-- Plan runs, newest first. -/
  runs : List PlanRun := []
  queue : List Trigger := []
  deriving DecidableEq, Repr

/-- A capture descriptor (R249–R256). -/
structure Capture where
  state : Nat := 0
  port : Port := .a
  both : Bool := false
  mask : Nat := 0
  ell : Nat := 0
  r : Nat := 0
  time : Nat := 0
  /-- Window on the trigger's port, as ordinals, and on the other port as launch times, the end known once made. -/
  first : Int := 0
  last : Int := 0
  trig : Int := 0
  tFirst : Nat := 0
  tLast : Option Nat := none
  /-- Sequence of the last Kiln profile before the trigger, per port (R249). -/
  kilnA : Nat := 0
  kilnB : Nat := 0
  flags : Nat := 0
  miss : Nat := 0
  secondary : Nat := 0
  seconds : List Int := []
  lastAcc : Option Nat := none
  /-- The frozen limit has ended filling (R251), or a disarm or a commit has (R253). -/
  full : Bool := false
  manifest : List Byte := []
  /-- ExportJob that runs or ran last, and its settings (R305). -/
  job : Nat := 0
  level : Nat := 1
  delta : Bool := true
  log2 : Nat := 20
  /-- Of the running job: an engine job of it has not ended well; what its completion report lists so far (R257, R292, R298). -/
  failed : Bool := false
  report : List (Nat × Nat × Nat) := []
  deriving DecidableEq, Repr


/-! ## Identity, flash and fuses (spec/17_identity_and_update.md) -/

/-- The owner record (R470). -/
structure OwnerRec where
  key : List Byte
  counter : Nat
  locked : Bool
  /-- Its device signature holds. -/
  intact : Bool
  deriving DecidableEq, Repr

/-- A bank of the persistent store (R488). -/
structure Bank where
  valid : Bool := false
  version : Nat := 0
  seq : Nat := 0
  data : List (Nat × List Byte) := []
  deriving DecidableEq, Repr

/-- The QSPI flash (R481). -/
structure Flash where
  cert : List Byte := []
  ca : List Byte := []
  owner : Option OwnerRec := none
  banks : List Bank := [{}, {}, {}, {}]
  guarded : Option Nat := none
  active : List Byte := []
  previous : List Byte := []
  staging : List Byte := []
  /-- Journal: an image is armed; it awaits confirmation; the last start fell back (R485–R487). -/
  armed : Bool := false
  awaiting : Bool := false
  /-- Trunk links up before the update: W, E (R486). -/
  linksUp : Bool × Bool := (false, false)
  /-- Calibration results by item (R400, R461). -/
  cal : List (Nat × List Int) := []
  /-- Last time held in the store (R313, R509). -/
  lastTime : Nat := 0
  /-- Ranks retired under the memory configuration beside them (R283; log 175). -/
  retired : Nat := 0
  retiredCfg : Nat := 0
  deriving DecidableEq, Repr

/-- The OTP fuses and ROM keys (log 7). -/
structure Otp where
  ordering : List Byte := []
  revision : List Byte := []
  serial : List Byte := []
  variant : Nat := 0
  pubKey : List Byte := []
  certHash : List Byte := []
  secVersion : Nat := 0
  revoked : Nat := 0
  /-- Penkoit's public keys of index 0–3, whose hashes the ROM holds (R479), and the key of Vendor tokens (R472). -/
  romKeys : List (List Byte) := []
  vendorKey : List Byte := []
  deriving DecidableEq, Repr

/-- Ownership and update state of the running firmware. -/
structure Ident where
  idState : Nat := 0
  /-- The device certificate in use since the last start (R380, R468). -/
  cert : List Byte := []
  attest : List Byte := []
  authFails : Nat := 0
  tokenFails : Nat := 0
  stageState : Nat := 0
  stageResult : Nat := 255
  /-- A kind 2 token of the staged image is held (R483). -/
  tokenHeld : Bool := false
  imageState : Nat := 0
  /-- Local time at which the firmware started (R486), ns. -/
  startAt : Nat := 0
  /-- The image that awaits confirmation was installed in this start (R485, R487). -/
  fresh : Bool := false
  /-- SYS faults of the boot that firmware raises once it runs (R468, R470, R479, R487, R489). -/
  owed : List Nat := []
  fallbacks : Nat := 0
  /-- The header of the image that runs. -/
  running : List Byte := []
  /-- Triggers are held off for an update (R484). -/
  holdOff : Bool := false
  /-- A contained fault of firmware itself since start (R486). -/
  fwFault : Bool := false
  /-- Both slots have failed and the ROM waits for a load (R479). -/
  loadWait : Bool := false
  /-- This start has checked the supplies for an armed image (R485 step 1). -/
  checked : Bool := false
  deriving DecidableEq, Repr



/-! ## The whole -/

/-- Everything one fibre port owns. -/
structure PortState where
  /-- The port has an active plan (R38). -/
  hasPlan : Bool := false
  planResult : Nat := 255
  kilnResult : Nat := 255
  cellarResult : Nat := 255
  pairResult : Nat := 255
  /-- Computed by the last PlanCheck (R39, R242). -/
  chkInterval : Nat := 0
  chkTail : Nat := 0
  chkRate : Num := ⟨0, 0⟩
  portRate : Nat := 0
  /-- Slot and index of the latest launch (R41). -/
  lastSlot : Nat := 0
  lastJ : Nat := 0
  /-- The latest launch's time and drive, which DACs and gate carry (R63). -/
  lastDrive : Option (Nat × Drive) := none
  /-- Launches whose records have not yet come, oldest first. -/
  flight : List Launch := []
  opt : Optics := {}
  laser : LaserSet := {}
  rx : Rx := {}
  sw : Swash := {}
  dec0 : Decim := {}
  dec1 : Decim := {}
  laut : Lauter := {}
  pair : Pair := {}
  /-- Records that wait at the Cellar's ring inputs, oldest first (R239). -/
  celIn : List RingRec := []
  syn : Synth := {}
  /-- The transmit DAC trims, and the gaps gathered since the last run (R462). -/
  trim : CalItem := {}
  gaps : Nat := 0
  /-- The sweep of laser following has ended: a full restart at the first launch of the next Tide (R135). -/
  restartNext : Bool := false
  /-- History clears that the next launch brings (R156, R167). -/
  clr : Clears := {}
  /-- Records that wait at the cluster's stream port, oldest first (R214). -/
  brewIn : List RingRec := []
  /-- The latest Lauter record, for detection (R169). -/
  lautRec : Option LautRec := none
  kiln : Kiln := {}
  det : Detect := {}
  trk : Tracker := {}
  cel : Cellar := {}
  deriving DecidableEq, Repr

/-- The state of the block. -/
structure State where
  /-- Commands that wait, first in first out. -/
  pending : List Instr := []
  /-- Counter that numbers the free values taken (log 2). -/
  free : Nat := 0
  /-- What the block has sent, newest first (log 4). -/
  out : List Output := []
  power : Power := {}
  aon : Aon := {}
  bwf : Bwf := {}
  /-- Status registers' SEQ bits, by register address (window × 0x10000 + offset). -/
  stats : List (Nat × SeqReg) := []
  /-- Stored RW and RWS register fields, by address; a register not listed holds its reset value (R13). -/
  regs : List (Nat × Nat) := []
  /-- CFGERR_OFS captures, by address of the status register (R12). -/
  cfgOfs : List (Nat × Nat) := []
  od : Od := {}
  host : HostIf := {}
  mbox : Mbox := {}
  tide : Tide := {}
  pa : PortState := {}
  pb : PortState := {}
  time : TimeBase := {}
  chain : Chain := {}
  flash : Flash := {}
  otp : Otp := {}
  ident : Ident := {}
  brew : Brew := {}
  hk : Hk := {}
  dram : Dram := {}
  cask : Cask := {}
  /-- Capture descriptors 0–15. -/
  caps : List Capture := List.replicate 16 {}
  /-- Memory by fabric address (R406): canonical, unlisted bytes read 0 (log 6). -/
  mem : List Host.Cell := []
  deriving DecidableEq, Repr

/-- Why the block could stop. No command of the model stops it: every rule of the spec gives an effect. -/
inductive Fault where
  /-- Raised by nothing: kept so that the type has a value. Safe. -/
  | none
  deriving DecidableEq, Repr

/-- Why a command has no meaning. -/
inductive Refusal where
  /-- A command whose meaning is not written yet. Safe: nothing is claimed of it. -/
  | notModelled (mnemonic : String)
  deriving DecidableEq, Repr

/-- The block while PORST_N is low, before the release: every register at its Reset value (R13); log 3 and log 5 name
the values the spec does not give. -/
def State.reset : State := {}

end Sys2Proof.Machine
end

