-- ==== Sys2Proof/Machine/Flags.lean ====
section
/-! DEFINITION. Status bits and the sequence rule (R412, R413). -/
namespace Sys2Proof.Machine

/-- How far the sequence number `b` lies behind `a`, modulo 256. -/
def seqBehind (a b : Nat) : Nat := (a + 256 - b % 256) % 256

/-- seq_i advances with SEQNUM so that no age exceeds 127 (R413). -/
def seqAge (num q : Nat) : Nat := if seqBehind num q ≤ 127 then q else (num + 129) % 256

/-- Set bits in one cycle (R412): SEQNUM advances by 1 and the bits take its value. -/
def SeqReg.raise (r : SeqReg) (bits : List Nat) : SeqReg :=
  if bits.isEmpty then r else
    let num := (r.num + 1) % 256
    let aged := r.set.map (fun e => (e.1, seqAge num e.2))
    { num := num, set := bits.foldl (fun l b => insertKey b num l) aged }

/-- Whether a bit is set. -/
def SeqReg.has (r : SeqReg) (b : Nat) : Bool := r.set.any (fun e => e.1 == b)

/-- A write of `v` clears a set bit i where bit i of `v` is 1 and the two comparisons of R412 hold. -/
def SeqReg.write (r : SeqReg) (v : Nat) : SeqReg :=
  let q := bitsOf v 31 24
  if seqBehind r.num q < 128 then
    { r with set := r.set.filter (fun e => !(bitOf v e.1 && decide (seqBehind q e.2 < 128))) }
  else r

/-- The set bits as a mask. -/
def SeqReg.mask (r : SeqReg) : Nat := r.set.foldl (fun n e => n ||| 2 ^ e.1) 0

/-- SEQNUM and the SEQ bits as the register reads them. -/
def SeqReg.value (r : SeqReg) : Nat := r.num * 2 ^ 24 + r.mask

end Sys2Proof.Machine
end

