-- ==== Sys2Proof/Machine/TableTypes.lean ====
section
/-! DEFINITION. The shapes of the object and register tables. -/
namespace Sys2Proof.Machine

/-- Object types (R377). -/
inductive ObjType where
  | bool | u8 | u16 | u32 | u64 | i16 | i32 | f32 | str | blob | time64
  deriving DecidableEq, Repr

/-- Object access (R378). -/
inductive Acc where
  | ro | rw | wo | rws
  deriving DecidableEq, Repr

/-- When a write takes effect (R380). -/
inductive Applies where
  | immediate | nextTide | epoch | nextStart
  deriving DecidableEq, Repr

/-- The values an object accepts beyond its type: all; a closed range; a closed range of a binary32 in units of
10^(−d); a listed set; 0 or a closed range; a housekeeping input below `n` with an optional +32; a magnitude in a closed
range, of either sign. -/
inductive Rng where
  | full
  | between (lo hi : Int)
  | fbetween (lo hi : Int) (d : Nat)
  | oneOf (l : List Int)
  | orZero (lo hi : Int)
  | hkInput (n : Nat)
  | magnitude (lo hi : Int)
  /-- Bounds in the type's own encoding, as a customer image declares them (R405). -/
  | coded (lo hi : Nat)
  deriving DecidableEq, Repr

/-- Which straps a default comes from (R381, R334, R335, R403). -/
inductive StrapDefault where
  | all | role | node | gnss
  deriving DecidableEq, Repr

/-- An object's default: none stated, a number (for F32 its bits), or computed from the straps. -/
inductive Dflt where
  | none
  | int (n : Int)
  | strap (k : StrapDefault)
  deriving DecidableEq, Repr

/-- One row of the object tables: `n` objects from subindex `sub` on. -/
structure ObjRow where
  idx : Nat
  sub : Nat
  n : Nat
  ty : ObjType
  acc : Acc
  /-- Write privilege (R379); 255 where the object is not writable. -/
  wp : Nat
  ap : Applies
  pers : Bool
  rng : Rng
  dflt : Dflt
  /-- Largest length of a STR or BLOB; 65,535 stands for any larger limit. -/
  maxLen : Nat
  name : String
  deriving DecidableEq, Repr

/-- One row of the register tables. -/
structure RegRow where
  win : Nat
  ofs : Nat
  rw : Nat
  rws : Nat
  seq : Nat
  rst : Nat
  name : String
  deriving DecidableEq, Repr

end Sys2Proof.Machine
end

