-- ==== Sys2Proof/Machine/ObjTable.lean ====
section
/-! DEFINITION. The object tables of the spec as data (R15, R376–R381): one row per object, or per run of
objects that differ only in their subindex. Port B, channel 1, zone, capture, input, bridge and program instances
share the rows of the first instance (`canonIndex`). -/
namespace Sys2Proof.Machine

/-- Object rows, part 0. -/
def objRows0 : List ObjRow := [
  ⟨0x1000, 0x1, 1, .str, .ro, 255, .immediate, false, .full, .none, 255, "VendorName"⟩,
  ⟨0x1000, 0x2, 1, .str, .ro, 255, .immediate, false, .full, .none, 255, "OrderingCode"⟩,
  ⟨0x1000, 0x3, 1, .str, .ro, 255, .immediate, false, .full, .none, 255, "SiliconRevision"⟩,
  ⟨0x1000, 0x4, 1, .str, .ro, 255, .immediate, false, .full, .none, 255, "SerialNumber"⟩,
  ⟨0x1000, 0x5, 1, .u16, .ro, 255, .immediate, false, .full, .strap .all, 0, "StrapState"⟩,
  ⟨0x1001, 0x1, 1, .blob, .rw, 3, .nextStart, true, .full, .none, 4096, "DeviceCertificate"⟩,
  ⟨0x1001, 0x2, 1, .blob, .ro, 255, .immediate, false, .full, .none, 4096, "CaCertificate"⟩,
  ⟨0x1001, 0x3, 1, .blob, .ro, 255, .immediate, false, .full, .none, 65, "DevicePublicKey"⟩,
  ⟨0x1001, 0x4, 1, .u8, .ro, 255, .immediate, false, .full, .none, 0, "IdentityState"⟩,
  ⟨0x1001, 0x5, 1, .blob, .ro, 255, .immediate, false, .full, .none, 8, "DeviceId"⟩,
  ⟨0x1002, 0x1, 1, .blob, .wo, 0, .immediate, false, .full, .none, 32, "AttestChallenge"⟩,
  ⟨0x1002, 0x2, 1, .blob, .ro, 255, .immediate, false, .full, .none, 148, "AttestResponse"⟩,
  ⟨0x1100, 0x1, 1, .u8, .ro, 255, .nextStart, true, .full, .strap .role, 0, "Role"⟩,
  ⟨0x1100, 0x2, 1, .u8, .rw, 2, .nextStart, true, .between 0 63, .int 0, 0, "NodeHigh"⟩,
  ⟨0x1100, 0x3, 1, .u16, .ro, 255, .nextStart, true, .full, .strap .node, 0, "NodeAddress"⟩,
  ⟨0x1100, 0x4, 1, .u16, .rw, 2, .nextStart, true, .full, .int 34997, 0, "IbendEtherType"⟩,
  ⟨0x1100, 0x6, 1, .u16, .rw, 1, .immediate, false, .between 100 10000, .int 2000, 0, "BulkRate"⟩,
  ⟨0x1100, 0x7, 1, .u16, .rw, 1, .immediate, false, .between 16 4096, .int 256, 0, "BulkBurst"⟩,
  ⟨0x1100, 0x8, 1, .bool, .rw, 1, .nextStart, true, .full, .int 0, 0, "LocalIbend"⟩,
  ⟨0x1100, 0x9, 1, .u8, .ro, 255, .immediate, false, .full, .int 0, 0, "LinkState"⟩,
  ⟨0x1100, 0xa, 1, .u32, .ro, 255, .immediate, false, .full, .int 0, 0, "DuplicateDrops"⟩,
  ⟨0x1100, 0xb, 1, .u32, .ro, 255, .immediate, false, .full, .int 0, 0, "StompedFrames"⟩,
  ⟨0x1100, 0xc, 1, .u32, .ro, 255, .immediate, false, .full, .int 0, 0, "PolicedDrops"⟩,
  ⟨0x1110, 0x1, 1, .u32, .rw, 1, .immediate, false, .between 10 60000, .int 1000, 0, "OdTimeout"⟩,
  ⟨0x1110, 0x2, 1, .u8, .rw, 2, .nextStart, true, .between 0 1, .int 0, 0, "LocalPortPrivilege"⟩,
  ⟨0x1110, 0x3, 1, .u8, .wo, 1, .immediate, false, .full, .none, 0, "StoreNow"⟩,
  ⟨0x1110, 0x4, 1, .u8, .wo, 2, .nextStart, true, .full, .none, 0, "RestoreDefaults"⟩,
  ⟨0x1110, 0x5, 1, .bool, .ro, 255, .immediate, false, .full, .int 0, 0, "StorePending"⟩,
  ⟨0x1110, 0x6, 1, .u32, .ro, 255, .immediate, false, .full, .int 0, 0, "StoreFailCount"⟩,
  ⟨0x1110, 0x7, 1, .u64, .ro, 255, .immediate, false, .full, .int 0, 0, "RequestCount"⟩]

/-- Object rows, part 1. -/
def objRows1 : List ObjRow := [
  ⟨0x1110, 0x8, 1, .u32, .ro, 255, .immediate, false, .full, .int 0, 0, "ErrorCount"⟩,
  ⟨0x1110, 0x9, 1, .u8, .ro, 255, .immediate, false, .full, .int 0, 0, "SessionCount"⟩,
  ⟨0x1110, 0xa, 1, .u8, .ro, 255, .immediate, false, .full, .int 0, 0, "TransferCount"⟩,
  ⟨0x1110, 0xb, 1, .u32, .ro, 255, .immediate, false, .full, .int 0, 0, "BusyCount"⟩,
  ⟨0x1200, 0x1, 1, .u8, .ro, 255, .immediate, false, .full, .int 0, 0, "TimeState"⟩,
  ⟨0x1200, 0x2, 1, .time64, .ro, 255, .immediate, false, .full, .none, 0, "LocalTime"⟩,
  ⟨0x1200, 0x3, 1, .i32, .ro, 255, .immediate, false, .full, .int 0, 0, "ServoOffset"⟩,
  ⟨0x1200, 0x4, 1, .f32, .ro, 255, .immediate, false, .full, .int 0, 0, "ServoFrequency"⟩,
  ⟨0x1200, 0x5, 1, .u32, .rw, 1, .immediate, false, .between 10 100000, .int 1000, 0, "LockThreshold"⟩,
  ⟨0x1200, 0x6, 1, .u32, .rw, 1, .immediate, false, .between 60 604800, .int 3600, 0, "HoldoverLimit"⟩,
  ⟨0x1200, 0x7, 1, .u8, .ro, 255, .immediate, false, .full, .int 0, 0, "WarmupState"⟩,
  ⟨0x1200, 0x8, 1, .bool, .rw, 2, .nextStart, true, .full, .int 1, 0, "OcxoRdyWired"⟩,
  ⟨0x1200, 0x9, 1, .f32, .rw, 1, .immediate, false, .fbetween 1 1000 1, .int 1084227584, 0, "WarmupStability"⟩,
  ⟨0x1200, 0xa, 1, .u16, .rw, 1, .immediate, false, .between 10 3600, .int 60, 0, "WarmupHold"⟩,
  ⟨0x1200, 0xb, 1, .u16, .rw, 1, .immediate, false, .between 60 7200, .int 900, 0, "WarmupTimeout"⟩,
  ⟨0x1200, 0xc, 1, .i16, .rw, 1, .immediate, false, .full, .int 37, 0, "LeapSeconds"⟩,
  ⟨0x1200, 0xd, 1, .bool, .rw, 2, .nextStart, true, .full, .int 0, 0, "ManagerFreeRun"⟩,
  ⟨0x1200, 0xe, 1, .u32, .rw, 1, .nextStart, true, .between 10 86400, .int 600, 0, "GnssWait"⟩,
  ⟨0x1210, 0x1, 1, .u8, .rw, 1, .nextStart, true, .between 0 127, .int 0, 0, "PtpDomain"⟩,
  ⟨0x1210, 0x2, 1, .i16, .rw, 1, .nextStart, true, .between (-7) 0, .int (-4), 0, "SyncLog2Interval"⟩,
  ⟨0x1210, 0x3, 1, .i16, .rw, 1, .nextStart, true, .between (-4) 4, .int 0, 0, "PdelayLog2Interval"⟩,
  ⟨0x1210, 0x4, 1, .i32, .rw, 1, .immediate, false, .full, .int 0, 0, "AsymmetryW"⟩,
  ⟨0x1210, 0x5, 1, .i32, .rw, 1, .immediate, false, .full, .int 0, 0, "AsymmetryE"⟩,
  ⟨0x1210, 0x6, 1, .i32, .rw, 1, .immediate, false, .full, .int 0, 0, "TrunkWLatency"⟩,
  ⟨0x1210, 0x7, 1, .i32, .rw, 1, .immediate, false, .full, .int 0, 0, "TrunkELatency"⟩,
  ⟨0x1210, 0x8, 1, .i32, .rw, 1, .immediate, false, .full, .int 0, 0, "LocalLatency"⟩,
  ⟨0x1210, 0x9, 1, .bool, .rw, 1, .nextStart, true, .full, .int 0, 0, "LocalPtpMaster"⟩,
  ⟨0x1210, 0xa, 1, .u32, .ro, 255, .immediate, false, .full, .int 0, 0, "MeanPathDelayW"⟩,
  ⟨0x1210, 0xb, 1, .u32, .ro, 255, .immediate, false, .full, .int 0, 0, "MeanPathDelayE"⟩,
  ⟨0x1220, 0x1, 1, .bool, .rw, 1, .nextStart, true, .full, .strap .gnss, 0, "GnssEnable"⟩]

/-- Object rows, part 2. -/
def objRows2 : List ObjRow := [
  ⟨0x1220, 0x2, 1, .u32, .rw, 1, .nextStart, true, .between 4800 115200, .int 9600, 0, "TodBaud"⟩,
  ⟨0x1220, 0x3, 1, .u8, .rw, 1, .immediate, false, .between 0 2, .int 2, 0, "TodSentence"⟩,
  ⟨0x1220, 0x4, 1, .i32, .rw, 1, .immediate, false, .full, .int 0, 0, "PpsDelay"⟩,
  ⟨0x1220, 0x5, 1, .u8, .ro, 255, .immediate, false, .full, .int 0, 0, "GnssState"⟩,
  ⟨0x1220, 0x6, 1, .u32, .ro, 255, .immediate, false, .full, .int 0, 0, "PpsJumpCount"⟩,
  ⟨0x1230, 0x1, 1, .u16, .rw, 1, .immediate, false, .between 0 2550, .int 1250, 0, "Threshold"⟩,
  ⟨0x1230, 0x2, 1, .u8, .rw, 1, .immediate, false, .between 0 2, .int 0, 0, "Slope"⟩,
  ⟨0x1230, 0x3, 1, .u32, .rw, 1, .immediate, false, .between 1 16000000, .int 500000, 0, "StuckTime"⟩,
  ⟨0x1230, 0x4, 1, .u32, .ro, 255, .immediate, false, .full, .int 0, 0, "DeadTimeCount"⟩,
  ⟨0x1230, 0x5, 1, .u32, .ro, 255, .immediate, false, .full, .int 0, 0, "GlitchCount"⟩,
  ⟨0x1230, 0x6, 1, .u32, .ro, 255, .immediate, false, .full, .int 0, 0, "StuckCount"⟩,
  ⟨0x1230, 0x7, 1, .u32, .ro, 255, .immediate, false, .full, .int 0, 0, "StrayCount"⟩,
  ⟨0x1240, 0x1, 1, .u8, .rw, 1, .immediate, false, .between 0 3, .int 0, 0, "MeasMode"⟩,
  ⟨0x1240, 0x2, 1, .u8, .rw, 1, .immediate, false, .between 0 5, .int 2, 0, "StartInput"⟩,
  ⟨0x1240, 0x3, 1, .u8, .rw, 1, .immediate, false, .between 0 5, .int 2, 0, "StopInput"⟩,
  ⟨0x1240, 0x4, 1, .u16, .rw, 1, .immediate, false, .between 1 65535, .int 1000, 0, "SampleCount"⟩,
  ⟨0x1240, 0x5, 1, .u8, .rw, 1, .immediate, false, .between 0 2, .int 0, 0, "GateMode"⟩,
  ⟨0x1240, 0x6, 1, .u8, .wo, 1, .immediate, false, .full, .none, 0, "MeasArm"⟩,
  ⟨0x1240, 0x7, 1, .u8, .ro, 255, .immediate, false, .full, .int 0, 0, "MeasState"⟩,
  ⟨0x1240, 0x8, 1, .u64, .ro, 255, .immediate, false, .full, .int 0, 0, "Mean"⟩,
  ⟨0x1240, 0x9, 1, .f32, .ro, 255, .immediate, false, .full, .int 0, 0, "StdDev"⟩,
  ⟨0x1240, 0xa, 1, .u64, .ro, 255, .immediate, false, .full, .int 0, 0, "Min"⟩,
  ⟨0x1240, 0xb, 1, .u64, .ro, 255, .immediate, false, .full, .int 0, 0, "Max"⟩,
  ⟨0x1240, 0xc, 1, .u8, .ro, 255, .immediate, false, .full, .int 0, 0, "MeasFlags"⟩,
  ⟨0x1240, 0xd, 1, .u32, .ro, 255, .immediate, false, .full, .int 0, 0, "InterpCalCount"⟩,
  ⟨0x1240, 0xe, 1, .time64, .ro, 255, .immediate, false, .full, .int 0, 0, "InterpCalTime"⟩,
  ⟨0x1240, 0xf, 1, .u32, .ro, 255, .immediate, false, .full, .int 0, 0, "FifoOverflowCount"⟩,
  ⟨0x1240, 0x10, 1, .u32, .ro, 255, .immediate, false, .full, .int 0, 0, "InterpCalFailCount"⟩,
  ⟨0x1300, 0x1, 1, .u8, .ro, 255, .immediate, false, .full, .none, 0, "ResetCause"⟩,
  ⟨0x1300, 0x2, 1, .u32, .ro, 255, .immediate, false, .full, .int 0, 0, "FatalCount"⟩]

/-- Object rows, part 3. -/
def objRows3 : List ObjRow := [
  ⟨0x1300, 0x3, 1, .u32, .ro, 255, .immediate, false, .full, .int 0, 0, "LastFatalKey"⟩,
  ⟨0x1300, 0x4, 1, .time64, .ro, 255, .immediate, false, .full, .int 0, 0, "LastFatalTime"⟩,
  ⟨0x1300, 0x5, 1, .u16, .rw, 2, .nextStart, true, .between 100 10000, .int 1000, 0, "WatchdogPeriod"⟩,
  ⟨0x1300, 0x6, 1, .u8, .wo, 2, .immediate, false, .full, .none, 0, "ResetRequest"⟩,
  ⟨0x1300, 0x7, 1, .u8, .wo, 2, .immediate, false, .full, .none, 0, "StandbyRequest"⟩,
  ⟨0x1300, 0x8, 1, .time64, .rw, 1, .immediate, false, .full, .int 0, 0, "WakeAlarm"⟩,
  ⟨0x1300, 0x9, 1, .u8, .rw, 2, .immediate, true, .between 0 1, .int 0, 0, "MainLossAction"⟩,
  ⟨0x1300, 0xa, 1, .u16, .rw, 2, .immediate, true, .between 0 3600, .int 60, 0, "MainLossDelay"⟩,
  ⟨0x1300, 0xb, 1, .bool, .ro, 255, .immediate, false, .full, .none, 0, "VmainState"⟩,
  ⟨0x1300, 0xc, 1, .f32, .ro, 255, .immediate, false, .full, .none, 0, "DieTemperature"⟩,
  ⟨0x1300, 0xd, 1, .u8, .ro, 255, .immediate, false, .full, .int 0, 0, "ThermalState"⟩,
  ⟨0x1300, 0xe, 1, .u32, .rw, 2, .immediate, true, .between 60 86400, .int 600, 0, "ThermalRestart"⟩,
  ⟨0x1300, 0xf, 1, .u8, .rw, 2, .immediate, true, .between 0 1, .int 0, 0, "TamperAction"⟩,
  ⟨0x1300, 0x10, 1, .u32, .ro, 255, .immediate, false, .full, .int 0, 0, "TamperCount"⟩,
  ⟨0x1300, 0x11, 1, .bool, .rw, 2, .immediate, false, .between 0 0, .int 0, 0, "SafeHold"⟩,
  ⟨0x1300, 0x12, 1, .u16, .ro, 255, .immediate, false, .full, .none, 0, "DomainState"⟩,
  ⟨0x1300, 0x13, 1, .u64, .ro, 255, .immediate, false, .full, .int 0, 0, "CorrectedCount"⟩,
  ⟨0x1300, 0x14, 1, .u32, .ro, 255, .immediate, false, .full, .int 0, 0, "ContainedCount"⟩,
  ⟨0x1300, 0x15, 1, .blob, .ro, 255, .immediate, false, .full, .none, 65535, "FaultLog"⟩,
  ⟨0x1400, 0x1, 1, .blob, .wo, 2, .immediate, false, .full, .none, 65535, "OwnerKey"⟩,
  ⟨0x1400, 0x2, 1, .blob, .ro, 255, .immediate, false, .full, .none, 32, "OwnerKeyHash"⟩,
  ⟨0x1400, 0x3, 1, .u8, .ro, 255, .immediate, false, .full, .int 0, 0, "OwnerState"⟩,
  ⟨0x1400, 0x4, 1, .u8, .wo, 2, .immediate, false, .full, .none, 0, "OwnerLock"⟩,
  ⟨0x1400, 0x5, 1, .blob, .wo, 0, .immediate, false, .full, .none, 65535, "OwnerToken"⟩,
  ⟨0x1400, 0x6, 1, .blob, .wo, 0, .immediate, false, .full, .none, 65535, "OwnerTransfer"⟩,
  ⟨0x1400, 0x7, 1, .u8, .rw, 2, .nextStart, true, .between 0 1, .int 0, 0, "TrunkPeerPolicy"⟩,
  ⟨0x1400, 0x8, 1, .u32, .rw, 2, .immediate, true, .between 600 604800, .int 86400, 0, "RekeyInterval"⟩,
  ⟨0x1400, 0x9, 1, .u32, .ro, 255, .immediate, false, .full, .int 0, 0, "AuthFailCount"⟩,
  ⟨0x1400, 0xa, 1, .u32, .ro, 255, .immediate, false, .full, .int 0, 0, "TokenFailCount"⟩,
  ⟨0x1400, 0xb, 1, .u32, .ro, 255, .immediate, false, .full, .int 0, 0, "OwnerCounter"⟩]

/-- Object rows, part 4. -/
def objRows4 : List ObjRow := [
  ⟨0x1410, 0x1, 1, .blob, .wo, 2, .immediate, false, .full, .none, 65535, "ImageStage"⟩,
  ⟨0x1410, 0x2, 1, .u8, .ro, 255, .immediate, false, .full, .int 0, 0, "StageState"⟩,
  ⟨0x1410, 0x3, 1, .u8, .ro, 255, .immediate, false, .full, .int 255, 0, "StageResult"⟩,
  ⟨0x1410, 0x4, 1, .blob, .wo, 2, .immediate, false, .full, .none, 65535, "UpdateToken"⟩,
  ⟨0x1410, 0x5, 1, .u8, .wo, 2, .immediate, false, .between 0 3, .none, 0, "UpdateApply"⟩,
  ⟨0x1410, 0x6, 1, .u32, .rw, 2, .immediate, true, .between 60 86400, .int 600, 0, "ConfirmTimeout"⟩,
  ⟨0x1410, 0x7, 1, .u8, .wo, 1, .immediate, false, .full, .none, 0, "Confirm"⟩,
  ⟨0x1410, 0x8, 1, .bool, .rw, 2, .immediate, true, .full, .int 1, 0, "AutoConfirm"⟩,
  ⟨0x1410, 0x9, 1, .u8, .ro, 255, .immediate, false, .full, .none, 0, "ImageState"⟩,
  ⟨0x1410, 0xa, 1, .u32, .ro, 255, .immediate, false, .full, .int 0, 0, "ConfirmRemaining"⟩,
  ⟨0x1410, 0xb, 1, .str, .ro, 255, .immediate, false, .full, .none, 255, "ActiveVersion"⟩,
  ⟨0x1410, 0xc, 1, .str, .ro, 255, .immediate, false, .full, .none, 255, "PreviousVersion"⟩,
  ⟨0x1410, 0xd, 1, .str, .ro, 255, .immediate, false, .full, .none, 255, "StagedVersion"⟩,
  ⟨0x1410, 0xe, 1, .u32, .ro, 255, .immediate, false, .full, .none, 0, "SecurityVersion"⟩,
  ⟨0x1410, 0xf, 1, .u32, .ro, 255, .immediate, false, .full, .int 0, 0, "FallbackCount"⟩,
  ⟨0x1410, 0x10, 1, .f32, .rw, 2, .immediate, true, .fbetween 20 36 1, .int 1075419546, 0, "UpdateVbatMin"⟩,
  ⟨0x1410, 0x11, 1, .u8, .ro, 255, .immediate, false, .full, .int 0, 0, "UpdateBlock"⟩,
  ⟨0x2000, 0x1, 1, .u8, .rw, 1, .epoch, false, .between 1 16, .int 4, 0, "TidePeriod"⟩,
  ⟨0x2000, 0x2, 1, .u64, .ro, 255, .immediate, false, .full, .none, 0, "TideNumber"⟩,
  ⟨0x2000, 0x3, 1, .u8, .ro, 255, .immediate, false, .full, .int 0, 0, "TideState"⟩,
  ⟨0x2000, 0x4, 1, .u32, .rw, 1, .immediate, false, .between 1000 1000000, .int 20000, 0, "TideSlipThreshold"⟩,
  ⟨0x2000, 0x5, 1, .u32, .ro, 255, .immediate, false, .full, .int 0, 0, "TideSlipCount"⟩,
  ⟨0x2000, 0x6, 1, .u16, .ro, 255, .immediate, false, .full, .int 0, 0, "ActiveEpoch"⟩,
  ⟨0x2001, 0x1, 5, .u32, .ro, 255, .immediate, false, .full, .int 0, 0, "OverrunCount"⟩,
  ⟨0x2010, 0x1, 1, .u16, .rw, 1, .epoch, false, .between 1 8000, .int 32, 0, "LaunchesPerTide"⟩,
  ⟨0x2010, 0x2, 1, .u8, .rw, 1, .epoch, false, .full, .int 255, 0, "SlotMask"⟩,
  ⟨0x2010, 0x3, 1, .u32, .rw, 1, .epoch, false, .full, .int 123786, 0, "RangeWindow"⟩,
  ⟨0x2010, 0x4, 1, .u16, .rw, 1, .epoch, false, .full, .int 250, 0, "ChirpLength"⟩,
  ⟨0x2010, 0x5, 1, .u16, .rw, 1, .epoch, false, .full, .int 32, 0, "BlindZone"⟩,
  ⟨0x2010, 0x6, 1, .u16, .rw, 1, .epoch, false, .full, .int 125, 0, "TailMinimum"⟩]

/-- Object rows, part 5. -/
def objRows5 : List ObjRow := [
  ⟨0x2010, 0x7, 1, .u32, .rw, 1, .epoch, false, .full, .int 0, 0, "LaunchOffset"⟩,
  ⟨0x2010, 0x8, 1, .f32, .rw, 1, .epoch, false, .fbetween 14000 15500 4, .int 1069280762, 0, "GroupIndex"⟩,
  ⟨0x2010, 0x9, 1, .i32, .rw, 1, .nextTide, false, .full, .int 0, 0, "DistanceOffset"⟩,
  ⟨0x2010, 0xa, 1, .u8, .rw, 1, .nextTide, false, .between 20 90, .int 60, 0, "TailPowerLimit"⟩,
  ⟨0x2010, 0x10, 1, .u8, .wo, 1, .immediate, false, .full, .none, 0, "PlanCheck"⟩,
  ⟨0x2010, 0x11, 1, .u8, .ro, 255, .immediate, false, .full, .int 255, 0, "PlanResult"⟩,
  ⟨0x2010, 0x12, 1, .u64, .ro, 255, .immediate, false, .full, .none, 0, "LaunchInterval"⟩,
  ⟨0x2010, 0x13, 1, .u32, .ro, 255, .immediate, false, .full, .none, 0, "TailWindow"⟩,
  ⟨0x2010, 0x14, 1, .f32, .ro, 255, .immediate, false, .full, .none, 0, "PerPointRate"⟩,
  ⟨0x2100, 0x1, 1, .bool, .rw, 1, .immediate, false, .full, .int 0, 0, "LaserEnable"⟩,
  ⟨0x2100, 0x2, 1, .u16, .rw, 1, .immediate, false, .full, .int 0, 0, "LaserCurrent"⟩,
  ⟨0x2100, 0x3, 1, .u16, .rw, 1, .immediate, false, .full, .int 32768, 0, "LaserTemperature"⟩,
  ⟨0x2100, 0x4, 1, .u16, .rw, 1, .immediate, false, .between 10 10000, .int 500, 0, "LaserSettle"⟩,
  ⟨0x2100, 0x5, 1, .f32, .rw, 1, .immediate, false, .full, .int 1073741824, 0, "LaserTuneCoarse"⟩,
  ⟨0x2100, 0x6, 1, .f32, .rw, 1, .immediate, false, .full, .int 1048576000, 0, "LaserTuneFine"⟩,
  ⟨0x2100, 0x7, 1, .u8, .ro, 255, .epoch, false, .full, .int 0, 0, "LaserFollow"⟩,
  ⟨0x2100, 0x8, 1, .bool, .rw, 2, .immediate, false, .full, .int 0, 0, "InterlockLaserOff"⟩,
  ⟨0x2100, 0x9, 1, .bool, .rws, 1, .immediate, false, .full, .int 0, 0, "IqSwap"⟩,
  ⟨0x2100, 0x10, 1, .u8, .rw, 1, .epoch, false, .between 10 100, .int 100, 0, "ChirpBandwidth"⟩,
  ⟨0x2100, 0x11, 1, .u8, .rw, 1, .epoch, false, .between 0 2, .int 0, 0, "ChirpDirection"⟩,
  ⟨0x2100, 0x12, 1, .u8, .rw, 1, .epoch, false, .between 0 2, .int 1, 0, "ChirpTaper"⟩,
  ⟨0x2100, 0x13, 1, .f32, .rw, 1, .nextTide, false, .fbetween 0 1 0, .int 1060320051, 0, "ChirpAmplitude"⟩,
  ⟨0x2100, 0x14, 1, .f32, .rw, 1, .nextTide, false, .fbetween 0 1 0, .int 1048576000, 0, "KilnToneAmplitude"⟩,
  ⟨0x2100, 0x15, 1, .f32, .rw, 1, .nextTide, false, .fbetween 0 1 1, .int 1017370378, 0, "PilotAmplitude"⟩,
  ⟨0x2100, 0x16, 1, .i32, .rw, 1, .epoch, false, .magnitude 505000 620000, .int (-562500), 0, "PilotOffset"⟩,
  ⟨0x2100, 0x17, 1, .bool, .ro, 255, .epoch, false, .full, .int 0, 0, "PilotActive"⟩,
  ⟨0x2100, 0x20, 1, .u8, .rws, 1, .immediate, false, .between 1 63, .int 48, 0, "GateOpenLevel"⟩,
  ⟨0x2100, 0x21, 1, .u8, .rws, 1, .immediate, false, .between 0 63, .int 16, 0, "GatePilotLevel"⟩,
  ⟨0x2100, 0x22, 1, .u8, .rws, 1, .immediate, false, .between 0 90, .int 20, 0, "GateLead"⟩,
  ⟨0x2100, 0x23, 1, .u8, .rws, 1, .immediate, false, .between 0 90, .int 20, 0, "GateLag"⟩]

/-- Object rows, part 6. -/
def objRows6 : List ObjRow := [
  ⟨0x2100, 0x24, 1, .i16, .rws, 1, .immediate, false, .between (-100) 100, .int 0, 0, "GateSkew"⟩,
  ⟨0x2100, 0x30, 1, .u8, .rws, 1, .immediate, false, .between 0 1, .int 1, 0, "BiasMode"⟩,
  ⟨0x2100, 0x31, 1, .u16, .rw, 1, .immediate, false, .full, .int 32768, 0, "BiasManualPH"⟩,
  ⟨0x2100, 0x32, 1, .u16, .rw, 1, .immediate, false, .full, .int 32768, 0, "BiasManualI"⟩,
  ⟨0x2100, 0x33, 1, .u16, .rw, 1, .immediate, false, .full, .int 32768, 0, "BiasManualQ"⟩,
  ⟨0x2100, 0x34, 1, .u16, .rws, 1, .immediate, false, .between 16 2048, .int 256, 0, "DitherAmplitude"⟩,
  ⟨0x2100, 0x35, 1, .u16, .rw, 1, .nextTide, false, .between 1 1024, .int 32, 0, "BiasErrorLimit"⟩,
  ⟨0x2100, 0x36, 1, .u8, .rws, 1, .immediate, false, .between 0 15, .int 0, 0, "BiasMonitorInput"⟩,
  ⟨0x2100, 0x37, 1, .u8, .ro, 255, .immediate, false, .full, .int 0, 0, "BiasState"⟩,
  ⟨0x2100, 0x40, 1, .u16, .rw, 1, .immediate, false, .full, .int 0, 0, "PumpSetpoint"⟩,
  ⟨0x2100, 0x41, 1, .u16, .rw, 1, .immediate, false, .between 1 65535, .int 64, 0, "PumpSlew"⟩,
  ⟨0x2100, 0x42, 1, .u16, .rw, 2, .immediate, false, .full, .int 65535, 0, "PumpLimit"⟩,
  ⟨0x2100, 0x50, 1, .i32, .rw, 1, .immediate, false, .full, .int 0, 0, "LmonOffset"⟩,
  ⟨0x2100, 0x51, 1, .u32, .ro, 255, .immediate, false, .full, .none, 0, "TransmitLatency"⟩,
  ⟨0x2100, 0x52, 1, .u32, .ro, 255, .immediate, false, .full, .int 0, 0, "LaunchMissingCount"⟩,
  ⟨0x2100, 0x53, 1, .u8, .ro, 255, .immediate, false, .full, .int 0, 0, "OpticsState"⟩,
  ⟨0x2100, 0x54, 1, .u32, .ro, 255, .immediate, false, .full, .int 0, 0, "InterlockCount"⟩,
  ⟨0x2100, 0x60, 1, .u32, .rw, 1, .epoch, false, .between 0 2000000, .int 0, 0, "RxPathDelay"⟩,
  ⟨0x2100, 0x61, 1, .u8, .rws, 1, .immediate, false, .between 0 7, .int 0, 0, "RxInputSwap"⟩,
  ⟨0x2100, 0x62, 1, .u16, .rw, 1, .epoch, false, .between 0 1008, .int 48, 0, "ReferenceStart"⟩,
  ⟨0x2100, 0x63, 1, .u16, .rw, 1, .epoch, false, .between 16 1024, .int 64, 0, "ReferenceLength"⟩,
  ⟨0x2100, 0x64, 1, .u8, .rw, 1, .nextTide, false, .between 10 90, .int 50, 0, "ReferenceMinPower"⟩,
  ⟨0x2100, 0x65, 1, .u8, .rw, 1, .epoch, false, .between 0 90, .int 45, 0, "AntiAliasRejection"⟩,
  ⟨0x2100, 0x66, 1, .u16, .rw, 1, .nextTide, false, .between 1 65535, .int 256, 0, "ClipLimit"⟩,
  ⟨0x2100, 0x67, 1, .bool, .rw, 1, .epoch, false, .full, .int 0, 0, "WortEnable"⟩,
  ⟨0x2100, 0x68, 1, .u8, .rw, 1, .epoch, false, .full, .int 255, 0, "WortSlotMask"⟩,
  ⟨0x2100, 0x69, 1, .u8, .rw, 1, .epoch, false, .between 0 4, .int 3, 0, "WortShift"⟩,
  ⟨0x2100, 0x6a, 1, .u32, .ro, 255, .immediate, false, .full, .int 0, 0, "ClipCount"⟩,
  ⟨0x2100, 0x6b, 1, .u8, .ro, 255, .immediate, false, .full, .int 0, 0, "RxCalState"⟩,
  ⟨0x2100, 0x6c, 1, .u32, .rw, 1, .epoch, false, .between 0 2000000, .int 0, 0, "KilnPathDelay"⟩]

/-- Object rows, part 7. -/
def objRows7 : List ObjRow := [
  ⟨0x3100, 0x1, 1, .u32, .rw, 1, .epoch, false, .full, .int 1347, 0, "OutputStart"⟩,
  ⟨0x3100, 0x2, 1, .u8, .rw, 1, .epoch, false, .between 1 64, .int 1, 0, "OutputPitch"⟩,
  ⟨0x3100, 0x3, 1, .u32, .rw, 1, .epoch, false, .between 1 131072, .int 122429, 0, "OutputCount"⟩,
  ⟨0x3100, 0x4, 1, .u8, .rw, 1, .epoch, false, .between 1 64, .int 10, 0, "Gauge"⟩,
  ⟨0x3100, 0x5, 1, .u8, .rw, 1, .epoch, false, .between 0 2, .int 1, 0, "CompressionWindow"⟩,
  ⟨0x3100, 0x6, 1, .u8, .rw, 1, .nextTide, false, .between 0 30, .int 6, 0, "FadeSnr"⟩,
  ⟨0x3100, 0x7, 1, .u8, .rw, 1, .nextTide, false, .between 4 16, .int 10, 0, "AlignShift"⟩,
  ⟨0x3100, 0x8, 1, .u8, .rw, 1, .nextTide, false, .between 4 255, .int 16, 0, "AlignMinUpdates"⟩,
  ⟨0x3100, 0x9, 1, .u16, .rw, 1, .nextTide, false, .between 1024 32767, .int 8192, 0, "AlignSlewLimit"⟩,
  ⟨0x3100, 0xa, 1, .u32, .rw, 1, .nextTide, false, .between 256 16777215, .int 65536, 0, "AlignStaleLimit"⟩,
  ⟨0x3100, 0xb, 1, .bool, .rw, 1, .epoch, false, .full, .int 1, 0, "CommonModeEnable"⟩,
  ⟨0x3100, 0xc, 1, .u8, .rw, 1, .nextTide, false, .between 0 40, .int 20, 0, "ReferenceSnr"⟩,
  ⟨0x3100, 0xd, 1, .u16, .rw, 1, .nextTide, false, .between 8192 32767, .int 24576, 0, "UnwrapLimit"⟩,
  ⟨0x3100, 0xe, 1, .u16, .rw, 1, .nextTide, false, .between 4096 32767, .int 16384, 0, "JumpLimit"⟩,
  ⟨0x3100, 0xf, 1, .u8, .rw, 1, .nextTide, false, .between 1 255, .int 8, 0, "GapLimit"⟩,
  ⟨0x3100, 0x10, 1, .bool, .rw, 1, .nextTide, false, .full, .int 0, 0, "QualityExport"⟩,
  ⟨0x3100, 0x11, 1, .bool, .rw, 1, .epoch, false, .full, .int 1, 0, "QualityToCellar"⟩,
  ⟨0x3100, 0x12, 1, .f32, .rw, 1, .immediate, false, .fbetween 5 10 1, .int 1061662228, 0, "PhotoelasticFactor"⟩,
  ⟨0x3100, 0x13, 1, .f32, .rw, 1, .immediate, false, .fbetween 1500 1630 0, .int 1153549271, 0, "Wavelength"⟩,
  ⟨0x3100, 0x14, 1, .f32, .ro, 255, .immediate, false, .full, .int 1067567809, 0, "StrainPerLsb"⟩,
  ⟨0x3100, 0x20, 1, .u64, .ro, 255, .immediate, false, .full, .int 0, 0, "UnwrapSuspectCount"⟩,
  ⟨0x3100, 0x21, 1, .f32, .ro, 255, .immediate, false, .full, .int 0, 0, "ValidFraction"⟩,
  ⟨0x3100, 0x22, 1, .u32, .ro, 255, .immediate, false, .full, .int 0, 0, "AnchorSwitchCount"⟩,
  ⟨0x3100, 0x23, 1, .u32, .ro, 255, .immediate, false, .full, .int 0, 0, "RestartCount"⟩,
  ⟨0x3100, 0x24, 1, .u32, .ro, 255, .immediate, false, .full, .int 0, 0, "RefSubstituteCount"⟩,
  ⟨0x3100, 0x25, 1, .f32, .ro, 255, .immediate, false, .full, .int 0, 0, "ResolvedFraction"⟩,
  ⟨0x3100, 0x26, 1, .f32, .ro, 255, .immediate, false, .full, .int 0, 0, "FrozenFraction"⟩,
  ⟨0x3120, 0x1, 1, .bool, .rw, 1, .epoch, false, .full, .int 0, 0, "DecimEnable"⟩,
  ⟨0x3120, 0x2, 1, .u8, .rw, 1, .epoch, false, .between 0 5, .int 3, 0, "DecimPreset"⟩,
  ⟨0x3120, 0x3, 1, .u32, .rw, 1, .epoch, false, .full, .int 0, 0, "DecimFirst"⟩]

/-- Object rows, part 8. -/
def objRows8 : List ObjRow := [
  ⟨0x3120, 0x4, 1, .u8, .rw, 1, .epoch, false, .between 1 64, .int 1, 0, "DecimStride"⟩,
  ⟨0x3120, 0x5, 1, .u32, .rw, 1, .epoch, false, .between 1 131072, .int 122429, 0, "DecimCount"⟩,
  ⟨0x3120, 0x6, 1, .u8, .rw, 1, .epoch, false, .between 0 15, .int 1, 0, "DecimDest"⟩,
  ⟨0x3120, 0x7, 1, .u8, .rw, 1, .nextTide, false, .between 0 100, .int 50, 0, "DecimMinValid"⟩,
  ⟨0x3120, 0x8, 1, .u8, .rw, 1, .immediate, false, .between 0 1, .int 0, 0, "BankSelect"⟩,
  ⟨0x3120, 0x9, 1, .u8, .ro, 255, .immediate, false, .full, .int 0, 0, "BankActive"⟩,
  ⟨0x3120, 0xa, 1, .blob, .rw, 1, .immediate, false, .full, .none, 3072, "BankA"⟩,
  ⟨0x3120, 0xb, 1, .blob, .rw, 1, .immediate, false, .full, .none, 3072, "BankB"⟩,
  ⟨0x3120, 0xc, 1, .f32, .ro, 255, .immediate, false, .full, .int 1111359488, 0, "GroupDelay"⟩,
  ⟨0x3120, 0xd, 1, .u32, .ro, 255, .immediate, false, .full, .int 0, 0, "SwapCount"⟩,
  ⟨0x3130, 0x1, 1, .bool, .rw, 1, .epoch, false, .full, .int 1, 0, "LauterEnable"⟩,
  ⟨0x3130, 0x2, 1, .u8, .rw, 1, .epoch, false, .full, .int 15, 0, "LauterBandMask"⟩,
  ⟨0x3130, 0x3, 1, .u8, .rw, 1, .epoch, false, .between 1 64, .int 1, 0, "LauterGroup"⟩,
  ⟨0x3130, 0x4, 1, .u16, .rw, 1, .nextTide, false, .between 0 65535, .int 256, 0, "LauterSettle"⟩,
  ⟨0x3130, 0x5, 1, .u8, .rw, 1, .nextTide, false, .between 0 100, .int 50, 0, "LauterMinValid"⟩,
  ⟨0x3130, 0x6, 1, .u8, .rw, 1, .epoch, false, .between 0 3, .int 1, 0, "LauterDest"⟩,
  ⟨0x3130, 0x7, 1, .u8, .ro, 255, .immediate, false, .full, .int 0, 0, "BandClampMask"⟩,
  ⟨0x3131, 0x1, 1, .f32, .rw, 1, .epoch, false, .fbetween 0 4000 0, .int 1084227584, 0, "BandLow"⟩,
  ⟨0x3131, 0x2, 2, .f32, .rw, 1, .epoch, false, .fbetween 0 4000 0, .int 1101004800, 0, "BandLow"⟩,
  ⟨0x3131, 0x4, 2, .f32, .rw, 1, .epoch, false, .fbetween 0 4000 0, .int 1120403456, 0, "BandLow"⟩,
  ⟨0x3131, 0x6, 2, .f32, .rw, 1, .epoch, false, .fbetween 0 4000 0, .int 1140457472, 0, "BandLow"⟩,
  ⟨0x3131, 0x8, 1, .f32, .rw, 1, .epoch, false, .fbetween 0 4000 0, .int 1157234688, 0, "BandLow"⟩,
  ⟨0x3131, 0x9, 1, .f32, .rw, 1, .epoch, false, .fbetween 0 4000 0, .int 0, 0, "BandLow"⟩,
  ⟨0x3131, 0xa, 1, .f32, .rw, 1, .epoch, false, .fbetween 0 4000 0, .int 1084227584, 0, "BandLow"⟩,
  ⟨0x3131, 0xb, 1, .f32, .rw, 1, .epoch, false, .fbetween 0 4000 0, .int 1157234688, 0, "BandLow"⟩,
  ⟨0x3131, 0xc, 1, .f32, .rw, 1, .epoch, false, .fbetween 0 4000 0, .int 1163575296, 0, "BandLow"⟩,
  ⟨0x3131, 0xd, 1, .f32, .rw, 1, .epoch, false, .fbetween 0 4000 0, .int 1065353216, 0, "BandLow"⟩,
  ⟨0x3131, 0xe, 1, .f32, .rw, 1, .epoch, false, .fbetween 0 4000 0, .int 1084227584, 0, "BandLow"⟩,
  ⟨0x3131, 0xf, 1, .f32, .rw, 1, .epoch, false, .fbetween 0 4000 0, .int 1065353216, 0, "BandLow"⟩,
  ⟨0x3131, 0x10, 1, .f32, .rw, 1, .epoch, false, .fbetween 0 4000 0, .int 1084227584, 0, "BandLow"⟩]

/-- Object rows, part 9. -/
def objRows9 : List ObjRow := [
  ⟨0x4010, 0x1, 1, .bool, .rw, 1, .epoch, false, .full, .int 0, 0, "KilnEnable"⟩,
  ⟨0x4010, 0x2, 1, .u32, .rw, 1, .epoch, false, .between 1500000 2200000, .int 1900000, 0, "KilnToneFrequency"⟩,
  ⟨0x4010, 0x3, 1, .u8, .rw, 1, .epoch, false, .between 20 100, .int 50, 0, "KilnToneLength"⟩,
  ⟨0x4010, 0x4, 1, .u32, .rw, 1, .epoch, false, .between 10400000 11300000, .int 10800000, 0, "KilnCentreShift"⟩,
  ⟨0x4010, 0x5, 1, .u8, .rw, 1, .epoch, false, .oneOf [16, 32], .int 32, 0, "KilnChannels"⟩,
  ⟨0x4010, 0x6, 1, .u8, .rw, 1, .epoch, false, .between 10 20, .int 17, 0, "KilnShotsLog2"⟩,
  ⟨0x4010, 0x7, 1, .bool, .rws, 1, .immediate, false, .full, .int 0, 0, "KilnIqSwap"⟩,
  ⟨0x4010, 0x8, 1, .u8, .rw, 1, .nextTide, false, .between 0 30, .int 10, 0, "KilnMinSnr"⟩,
  ⟨0x4010, 0x9, 1, .f32, .rw, 1, .nextTide, false, .fbetween 0 1 0, .int 1061997773, 0, "KilnMinFit"⟩,
  ⟨0x4010, 0xa, 1, .u8, .rw, 1, .nextTide, false, .between 2 8, .int 5, 0, "KilnFitSpan"⟩,
  ⟨0x4010, 0xb, 1, .u8, .rw, 1, .nextTide, false, .between 0 100, .int 90, 0, "KilnMinShotFraction"⟩,
  ⟨0x4010, 0xc, 1, .u8, .rw, 1, .epoch, false, .between 0 15, .int 9, 0, "KilnDest"⟩,
  ⟨0x4010, 0xd, 1, .u8, .rw, 1, .nextTide, false, .between 20 90, .int 50, 0, "AliasLimit"⟩,
  ⟨0x4010, 0xe, 1, .u8, .ro, 255, .immediate, false, .full, .int 255, 0, "KilnPlanResult"⟩,
  ⟨0x4010, 0xf, 1, .u8, .rw, 1, .epoch, false, .between 0 24, .int 12, 0, "KilnPowerShift"⟩,
  ⟨0x4010, 0x10, 1, .u16, .rw, 1, .epoch, false, .full, .int 24, 0, "CoilFirstBin"⟩,
  ⟨0x4010, 0x11, 1, .u16, .rw, 1, .epoch, false, .between 1 4096, .int 180, 0, "CoilBinCount"⟩,
  ⟨0x4010, 0x12, 1, .u8, .rw, 1, .nextTide, false, .between 0 1, .int 0, 0, "CoilBridgeChannel"⟩,
  ⟨0x4010, 0x13, 1, .f32, .rw, 1, .nextTide, false, .fbetween 5 15 1, .int 1065353216, 0, "CoilCt"⟩,
  ⟨0x4010, 0x14, 1, .u32, .rw, 1, .nextTide, false, .between 10 10000, .int 500, 0, "CoilTolerance"⟩,
  ⟨0x4010, 0x15, 1, .u32, .rw, 1, .nextTide, false, .between 1 10000, .int 200, 0, "CoilSlew"⟩,
  ⟨0x4011, 0x1, 1, .u8, .ro, 255, .immediate, false, .full, .int 0, 0, "KilnState"⟩,
  ⟨0x4011, 0x2, 1, .u32, .ro, 255, .immediate, false, .full, .int 0, 0, "ProfileSequence"⟩,
  ⟨0x4011, 0x3, 1, .time64, .ro, 255, .immediate, false, .full, .int 0, 0, "LastProfileTime"⟩,
  ⟨0x4011, 0x4, 1, .u32, .ro, 255, .immediate, false, .full, .int 0, 0, "ShotsAccepted"⟩,
  ⟨0x4011, 0x5, 1, .u32, .ro, 255, .immediate, false, .full, .int 0, 0, "ShotsDropped"⟩,
  ⟨0x4011, 0x6, 1, .f32, .ro, 255, .immediate, false, .full, .int 2143289344, 0, "CoilTemperature"⟩,
  ⟨0x4011, 0x7, 1, .f32, .ro, 255, .immediate, false, .full, .int 2143289344, 0, "Anchor"⟩,
  ⟨0x4011, 0x8, 1, .u8, .ro, 255, .immediate, false, .full, .int 0, 0, "AnchorState"⟩,
  ⟨0x4011, 0x9, 1, .u32, .ro, 255, .immediate, false, .full, .int 0, 0, "FitOverrunCount"⟩]

/-- Object rows, part 10. -/
def objRows10 : List ObjRow := [
  ⟨0x4011, 0xa, 1, .u8, .wo, 1, .immediate, false, .full, .none, 0, "ShapeCal"⟩,
  ⟨0x4011, 0xb, 1, .u8, .ro, 255, .immediate, false, .full, .int 0, 0, "ShapeCalState"⟩,
  ⟨0x4011, 0xc, 1, .f32, .ro, 255, .immediate, false, .full, .int 0, 0, "KilnFloorCode"⟩,
  ⟨0x4011, 0xd, 1, .u16, .ro, 255, .immediate, false, .full, .int 65535, 0, "AliasLevel"⟩,
  ⟨0x4011, 0xe, 1, .u32, .ro, 255, .immediate, false, .full, .int 0, 0, "CoilCalFailCount"⟩,
  ⟨0x4011, 0xf, 1, .u32, .ro, 255, .immediate, false, .full, .int 0, 0, "CoilCalCount"⟩,
  ⟨0x4011, 0x10, 1, .time64, .ro, 255, .immediate, false, .full, .int 0, 0, "CoilCalTime"⟩,
  ⟨0x4011, 0x11, 1, .u32, .ro, 255, .immediate, false, .full, .int 0, 0, "KilnSynthActual"⟩,
  ⟨0x4011, 0x12, 1, .i32, .ro, 255, .immediate, false, .full, .int 0, 0, "SynthError"⟩,
  ⟨0x4011, 0x13, 1, .u32, .ro, 255, .immediate, false, .full, .int 0, 0, "FreqRefCalCount"⟩,
  ⟨0x4011, 0x14, 1, .time64, .ro, 255, .immediate, false, .full, .int 0, 0, "FreqRefCalTime"⟩,
  ⟨0x4100, 0x1, 1, .u16, .rw, 1, .immediate, false, .between 0 40959, .int 0, 0, "ZoneFirstBin"⟩,
  ⟨0x4100, 0x2, 1, .u16, .rw, 1, .immediate, false, .between 0 40959, .int 0, 0, "ZoneLastBin"⟩,
  ⟨0x4100, 0x3, 1, .u8, .rw, 1, .immediate, false, .between 0 3, .int 0, 0, "ZoneMode"⟩,
  ⟨0x4100, 0x4, 1, .f32, .rw, 1, .immediate, false, .fbetween 5 15 1, .int 1065353216, 0, "ZoneCt"⟩,
  ⟨0x4100, 0x5, 1, .f32, .rw, 1, .immediate, false, .fbetween 2 8 2, .int 1027987001, 0, "ZoneCe"⟩,
  ⟨0x4100, 0x6, 1, .f32, .rw, 1, .immediate, false, .fbetween (-100) 100 0, .int 0, 0, "ZoneOffset"⟩,
  ⟨0x4100, 0x7, 1, .f32, .rw, 1, .immediate, false, .fbetween (-100) 10000 0, .int 0, 0, "ZoneHeld"⟩,
  ⟨0x5000, 0x1, 1, .u32, .ro, 255, .immediate, false, .full, .none, 0, "CellarCapacity"⟩,
  ⟨0x5000, 0x2, 1, .u64, .ro, 255, .immediate, false, .full, .int 45000000000, 0, "RealTimeBudget"⟩,
  ⟨0x5000, 0x3, 1, .u64, .ro, 255, .immediate, false, .full, .int 0, 0, "RealTimeCommitted"⟩,
  ⟨0x5010, 0x1, 1, .u32, .rw, 1, .epoch, false, .between 0 65536, .int 8192, 0, "RingSize"⟩,
  ⟨0x5010, 0x2, 1, .u16, .rw, 1, .epoch, false, .between 1 1024, .int 64, 0, "SegmentSize"⟩,
  ⟨0x5010, 0x3, 1, .u32, .rw, 1, .epoch, false, .between 0 65536, .int 512, 0, "RingSize"⟩,
  ⟨0x5010, 0x4, 1, .u16, .rw, 1, .epoch, false, .between 1 1024, .int 8, 0, "SegmentSize"⟩,
  ⟨0x5010, 0x5, 1, .u32, .rw, 1, .epoch, false, .between 0 65536, .int 256, 0, "RingSize"⟩,
  ⟨0x5010, 0x6, 1, .u16, .rw, 1, .epoch, false, .between 1 1024, .int 4, 0, "SegmentSize"⟩,
  ⟨0x5010, 0x7, 1, .u32, .rw, 1, .epoch, false, .between 0 65536, .int 0, 0, "RingSize"⟩,
  ⟨0x5010, 0x8, 1, .u16, .rw, 1, .epoch, false, .between 1 1024, .int 256, 0, "SegmentSize"⟩,
  ⟨0x5010, 0x9, 1, .u32, .rw, 1, .epoch, false, .between 0 65536, .int 128, 0, "RingSize"⟩]

/-- Object rows, part 11. -/
def objRows11 : List ObjRow := [
  ⟨0x5010, 0xa, 1, .u16, .rw, 1, .epoch, false, .between 1 1024, .int 2, 0, "SegmentSize"⟩,
  ⟨0x5010, 0x10, 1, .u8, .ro, 255, .immediate, false, .full, .int 255, 0, "CellarPlanResult"⟩,
  ⟨0x5010, 0x11, 1, .u64, .ro, 255, .immediate, false, .full, .int 0, 0, "PortRate"⟩,
  ⟨0x5040, 0x1, 1, .u8, .rw, 1, .immediate, false, .between 1 9, .int 1, 0, "ExportLevel"⟩,
  ⟨0x5040, 0x2, 1, .bool, .rw, 1, .immediate, false, .full, .int 1, 0, "ExportDelta"⟩,
  ⟨0x5040, 0x3, 1, .u8, .rw, 1, .immediate, false, .between 16 24, .int 20, 0, "ExportChunkLog2"⟩,
  ⟨0x5040, 0x4, 1, .u64, .ro, 255, .immediate, false, .full, .int 0, 0, "ContainersWritten"⟩,
  ⟨0x5040, 0x5, 1, .u32, .ro, 255, .immediate, false, .full, .int 0, 0, "RawStoredCount"⟩,
  ⟨0x5040, 0x6, 1, .u32, .ro, 255, .immediate, false, .full, .int 0, 0, "OutOfSpaceCount"⟩,
  ⟨0x5040, 0x7, 1, .u32, .ro, 255, .immediate, false, .full, .int 0, 0, "DecompressErrorCount"⟩,
  ⟨0x5080, 0x1, 1, .u8, .rw, 2, .nextStart, true, .oneOf [1, 2, 4], .int 4, 0, "ChannelCount"⟩,
  ⟨0x5080, 0x2, 1, .u8, .rw, 2, .nextStart, true, .between 1 2, .int 2, 0, "ActiveRanks"⟩,
  ⟨0x5080, 0x3, 1, .bool, .rw, 2, .nextStart, true, .full, .int 1, 0, "SpareRank"⟩,
  ⟨0x5080, 0x4, 1, .u8, .rw, 2, .nextStart, true, .oneOf [4, 8, 16], .int 16, 0, "DeviceDensity"⟩,
  ⟨0x5080, 0x5, 1, .u16, .rw, 2, .nextStart, true, .oneOf [2400, 2666, 2933, 3200], .int 3200, 0, "DataRate"⟩,
  ⟨0x5080, 0x6, 1, .u8, .rw, 2, .nextStart, true, .between 8 16, .int 12, 0, "InterleaveLog2"⟩,
  ⟨0x5080, 0x7, 1, .bool, .rw, 2, .nextStart, true, .full, .int 1, 0, "InterleaveHash"⟩,
  ⟨0x5080, 0x8, 1, .u8, .rw, 2, .nextStart, true, .between 4 12, .int 8, 0, "NeighbourLog2"⟩,
  ⟨0x5081, 0x1, 1, .u8, .rw, 1, .immediate, false, .between 0 1, .int 0, 0, "TempSource"⟩,
  ⟨0x5081, 0x2, 1, .u8, .rw, 1, .immediate, false, .between 0 15, .int 12, 0, "ThermistorInput"⟩,
  ⟨0x5081, 0x3, 1, .blob, .rw, 1, .immediate, false, .full, .none, 128, "ThermistorTable"⟩,
  ⟨0x5081, 0x4, 1, .u32, .rw, 1, .immediate, false, .orZero 100 100000, .int 1000, 0, "PowerDownIdle"⟩,
  ⟨0x5081, 0x5, 1, .u8, .rw, 1, .immediate, false, .between 1 168, .int 24, 0, "ScrubPeriod"⟩,
  ⟨0x5081, 0x6, 1, .u16, .rw, 1, .immediate, false, .between 1 65535, .int 1024, 0, "CeThreshold"⟩,
  ⟨0x5081, 0x7, 1, .u32, .rw, 1, .immediate, false, .between 60 86400, .int 3600, 0, "CeWindow"⟩,
  ⟨0x5081, 0x8, 1, .u16, .rw, 1, .immediate, false, .between 256 4096, .int 2048, 0, "MigrateRate"⟩,
  ⟨0x5082, 0x1, 1, .u8, .ro, 255, .immediate, false, .full, .none, 0, "ActiveChannels"⟩,
  ⟨0x5082, 0x2, 1, .u32, .ro, 255, .immediate, false, .full, .none, 0, "ActiveCapacity"⟩,
  ⟨0x5082, 0x3, 1, .u8, .ro, 255, .immediate, false, .full, .int 0, 0, "HotChannels"⟩,
  ⟨0x5082, 0x4, 1, .u64, .ro, 255, .immediate, false, .full, .int 0, 0, "CorrectedCount"⟩]

/-- Object rows, part 12. -/
def objRows12 : List ObjRow := [
  ⟨0x5082, 0x5, 1, .u32, .ro, 255, .immediate, false, .full, .int 0, 0, "UncorrectableCount"⟩,
  ⟨0x5082, 0x6, 1, .u32, .ro, 255, .immediate, false, .full, .int 0, 0, "MisaddressCount"⟩,
  ⟨0x5082, 0x7, 1, .u32, .ro, 255, .immediate, false, .full, .int 0, 0, "PoisonWrittenCount"⟩,
  ⟨0x5082, 0x8, 1, .u8, .ro, 255, .immediate, false, .full, .int 0, 0, "MigrationState"⟩,
  ⟨0x5082, 0x9, 1, .u32, .ro, 255, .immediate, false, .full, .int 0, 0, "RetiredRanks"⟩,
  ⟨0x5082, 0xa, 1, .u32, .ro, 255, .immediate, false, .full, .int 0, 0, "ScrubPasses"⟩,
  ⟨0x5082, 0xb, 1, .time64, .ro, 255, .immediate, false, .full, .int 0, 0, "LastScrubTime"⟩,
  ⟨0x5082, 0xc, 1, .u32, .ro, 255, .immediate, false, .full, .none, 0, "TrainingResult"⟩,
  ⟨0x5083, 0x1, 1, .u8, .wo, 2, .immediate, false, .between 0 11, .none, 0, "RankRetire"⟩,
  ⟨0x5100, 0x1, 1, .bool, .rw, 1, .immediate, false, .full, .int 0, 0, "CaptureArm"⟩,
  ⟨0x5100, 0x2, 1, .u8, .rw, 1, .epoch, false, .between 0 6, .int 0, 0, "TriggerSource"⟩,
  ⟨0x5100, 0x3, 1, .u8, .rw, 1, .epoch, false, .between 0 2, .int 0, 0, "CapturePort"⟩,
  ⟨0x5100, 0x4, 1, .u8, .rw, 1, .epoch, false, .between 0 31, .int 1, 0, "RingMask"⟩,
  ⟨0x5100, 0x5, 1, .u32, .rw, 1, .epoch, false, .between 0 16777215, .int 10000, 0, "PreLaunches"⟩,
  ⟨0x5100, 0x6, 1, .u32, .rw, 1, .epoch, false, .between 1 16777215, .int 10000, 0, "PostLaunches"⟩,
  ⟨0x5100, 0x7, 1, .u32, .rw, 1, .epoch, false, .full, .int 1347, 0, "TriggerSample"⟩,
  ⟨0x5100, 0x8, 1, .f32, .rw, 1, .epoch, false, .fbetween 5 400 1, .int 1086324736, 0, "TrigMinExcess"⟩,
  ⟨0x5100, 0x9, 1, .u8, .rw, 1, .epoch, false, .full, .int 255, 0, "TrigBandMask"⟩,
  ⟨0x5100, 0xa, 1, .u16, .rw, 1, .epoch, false, .between 1 65535, .int 100, 0, "TrigHoldoff"⟩,
  ⟨0x5100, 0xb, 1, .bool, .rw, 1, .epoch, false, .full, .int 0, 0, "TrigRetrigger"⟩,
  ⟨0x5100, 0xc, 1, .u32, .rw, 1, .epoch, false, .between 1 33554430, .int 100000, 0, "MaxLaunches"⟩,
  ⟨0x5100, 0xd, 1, .bool, .rw, 1, .epoch, false, .full, .int 0, 0, "TrigAutoRelease"⟩,
  ⟨0x5100, 0xe, 1, .u8, .rw, 1, .epoch, false, .between 0 3, .int 0, 0, "ForwardMask"⟩,
  ⟨0x5100, 0xf, 1, .time64, .wo, 1, .immediate, false, .full, .none, 0, "TriggerTime"⟩,
  ⟨0x5100, 0x10, 1, .u8, .ro, 255, .immediate, false, .full, .int 0, 0, "CaptureState"⟩,
  ⟨0x5100, 0x11, 1, .u64, .ro, 255, .immediate, false, .full, .int 0, 0, "TriggerLaunch"⟩,
  ⟨0x5100, 0x12, 1, .u32, .ro, 255, .immediate, false, .full, .int 0, 0, "MissCount"⟩,
  ⟨0x5100, 0x13, 1, .u32, .ro, 255, .immediate, false, .full, .int 0, 0, "SecondaryCount"⟩,
  ⟨0x5100, 0x14, 1, .u8, .ro, 255, .immediate, false, .full, .int 0, 0, "CaptureFlags"⟩,
  ⟨0x5100, 0x15, 1, .blob, .ro, 255, .immediate, false, .full, .none, 65535, "Manifest"⟩]

/-- Object rows, part 13. -/
def objRows13 : List ObjRow := [
  ⟨0x5100, 0x16, 1, .u8, .wo, 1, .immediate, false, .full, .none, 0, "CaptureRelease"⟩,
  ⟨0x5100, 0x17, 1, .u8, .rw, 1, .immediate, false, .between 0 3, .int 0, 0, "ExportJob"⟩,
  ⟨0x6010, 0x1, 1, .bool, .rw, 1, .epoch, false, .full, .int 1, 0, "DetEnable"⟩,
  ⟨0x6010, 0x2, 1, .u8, .rw, 1, .epoch, false, .full, .int 15, 0, "DetBandMask"⟩,
  ⟨0x6010, 0x3, 1, .f32, .rw, 1, .nextTide, false, .fbetween 5 400 1, .int 1086324736, 0, "DetThreshold"⟩,
  ⟨0x6010, 0x4, 1, .u8, .rw, 1, .nextTide, false, .between 1 255, .int 2, 0, "DetOnTides"⟩,
  ⟨0x6010, 0x5, 1, .u8, .rw, 1, .nextTide, false, .between 1 255, .int 5, 0, "DetOffTides"⟩,
  ⟨0x6010, 0x6, 1, .u8, .rw, 1, .nextTide, false, .between 0 255, .int 4, 0, "DetMergeGap"⟩,
  ⟨0x6010, 0x7, 1, .u8, .rw, 1, .nextTide, false, .between 2 16, .int 8, 0, "DetBgShift"⟩,
  ⟨0x6010, 0x8, 1, .u16, .rw, 1, .epoch, false, .between 16 65535, .int 256, 0, "DetLearnTides"⟩,
  ⟨0x6010, 0x9, 1, .u32, .rw, 1, .nextTide, false, .between 256 16777215, .int 150000, 0, "DetMaxTides"⟩,
  ⟨0x6010, 0xa, 1, .u16, .ro, 255, .immediate, false, .full, .int 0, 0, "DetOpenCount"⟩,
  ⟨0x6010, 0xb, 1, .u32, .ro, 255, .immediate, false, .full, .int 0, 0, "DetEvaluatedGroups"⟩,
  ⟨0x6030, 0x1, 1, .bool, .rw, 1, .epoch, false, .full, .int 1, 0, "TrackEnable"⟩,
  ⟨0x6030, 0x2, 1, .u32, .rw, 1, .nextTide, false, .between 100 1000000, .int 20000, 0, "TrackGate"⟩,
  ⟨0x6030, 0x3, 1, .u32, .rw, 1, .nextTide, false, .between 1000 200000, .int 90000, 0, "TrackMaxSpeed"⟩,
  ⟨0x6030, 0x4, 1, .f32, .rw, 1, .nextTide, false, .fbetween 0 1 0, .int 1050253722, 0, "TrackAlpha"⟩,
  ⟨0x6030, 0x5, 1, .f32, .rw, 1, .nextTide, false, .fbetween 0 1 0, .int 1017370378, 0, "TrackBeta"⟩,
  ⟨0x6030, 0x6, 1, .u8, .rw, 1, .nextTide, false, .between 1 255, .int 8, 0, "TrackConfirm"⟩,
  ⟨0x6030, 0x7, 1, .u8, .rw, 1, .nextTide, false, .between 1 255, .int 16, 0, "TrackWindow"⟩,
  ⟨0x6030, 0x8, 1, .u16, .rw, 1, .nextTide, false, .between 1 65535, .int 250, 0, "TrackMaxMiss"⟩,
  ⟨0x6030, 0x9, 1, .u16, .ro, 255, .immediate, false, .full, .int 0, 0, "TrackCount"⟩,
  ⟨0x6030, 0xa, 1, .u32, .ro, 255, .immediate, false, .full, .int 0, 0, "TrackDropCount"⟩,
  ⟨0x7000, 0x1, 1, .u8, .ro, 255, .immediate, false, .full, .int 0, 0, "ChainState"⟩,
  ⟨0x7000, 0x2, 1, .bool, .rw, 2, .nextStart, true, .full, .int 0, 0, "RingEnable"⟩,
  ⟨0x7000, 0x3, 1, .u16, .ro, 255, .immediate, false, .full, .int 0, 0, "ActingManager"⟩,
  ⟨0x7000, 0x4, 1, .u16, .ro, 255, .immediate, false, .full, .int 0, 0, "NodeCount"⟩,
  ⟨0x7000, 0x5, 1, .u16, .rw, 1, .immediate, false, .between 16 65535, .int 250, 0, "EpochLead"⟩,
  ⟨0x7000, 0x6, 1, .u16, .rw, 1, .immediate, false, .between 2 16383, .int 25, 0, "EpochGuard"⟩,
  ⟨0x7000, 0x7, 1, .u16, .wo, 1, .immediate, false, .full, .none, 0, "EpochRequest"⟩]

/-- Object rows, part 14. -/
def objRows14 : List ObjRow := [
  ⟨0x7000, 0x8, 1, .u8, .ro, 255, .immediate, false, .full, .int 0, 0, "EpochState"⟩,
  ⟨0x7000, 0x9, 1, .u8, .ro, 255, .immediate, false, .full, .int 255, 0, "EpochResult"⟩,
  ⟨0x7000, 0xa, 1, .u16, .ro, 255, .immediate, false, .full, .int 0, 0, "EpochRefuser"⟩,
  ⟨0x7000, 0xb, 1, .u8, .rw, 2, .immediate, false, .between 2 255, .int 8, 0, "ManagerTimeout"⟩,
  ⟨0x7000, 0xc, 1, .u32, .ro, 255, .immediate, false, .full, .int 0, 0, "ChainLatency"⟩,
  ⟨0x7000, 0xd, 1, .u16, .rw, 1, .immediate, false, .between 1 3600, .int 10, 0, "RingRestoreHold"⟩,
  ⟨0x7000, 0xe, 1, .u16, .rw, 1, .immediate, false, .between 1000 9000, .int 6000, 0, "StreamLimit"⟩,
  ⟨0x7000, 0xf, 1, .u32, .rw, 1, .immediate, false, .between 0 86400, .int 60, 0, "PairRestoreHold"⟩,
  ⟨0x7000, 0x10, 1, .blob, .ro, 255, .immediate, false, .full, .none, 65535, "FaultTable"⟩,
  ⟨0x7000, 0x11, 1, .u32, .wo, 1, .immediate, false, .full, .none, 0, "FaultClear"⟩,
  ⟨0x7000, 0x12, 1, .u32, .ro, 255, .immediate, false, .full, .int 0, 0, "FaultOverflowCount"⟩,
  ⟨0x7000, 0x13, 1, .u16, .rw, 1, .immediate, false, .between 1 1023, .int 1023, 0, "HopLimit"⟩,
  ⟨0x7010, 0x1, 1, .u8, .rw, 1, .epoch, false, .between 0 2, .int 0, 0, "PairMode"⟩,
  ⟨0x7010, 0x2, 1, .u16, .rw, 1, .epoch, false, .between 1 1023, .int 0, 0, "PartnerNode"⟩,
  ⟨0x7010, 0x3, 1, .u32, .rw, 1, .epoch, false, .full, .int 0, 0, "SpanLength"⟩,
  ⟨0x7010, 0x4, 1, .u32, .rw, 1, .nextTide, false, .full, .int 0, 0, "HandoffPoint"⟩,
  ⟨0x7010, 0x5, 1, .u32, .rw, 1, .nextTide, false, .between 0 1000000, .int 100000, 0, "HandoffMargin"⟩,
  ⟨0x7010, 0x6, 1, .u16, .rw, 1, .epoch, false, .between 1 8000, .int 32, 0, "TakeoverLaunches"⟩,
  ⟨0x7010, 0x7, 1, .u32, .rw, 1, .epoch, false, .full, .int 123786, 0, "TakeoverWindow"⟩,
  ⟨0x7010, 0x8, 1, .u32, .rw, 1, .epoch, false, .full, .int 122429, 0, "TakeoverPoints"⟩,
  ⟨0x7010, 0x9, 1, .u8, .ro, 255, .immediate, false, .full, .int 0, 0, "PairState"⟩,
  ⟨0x7010, 0xa, 1, .u8, .ro, 255, .immediate, false, .full, .int 255, 0, "PairPlanResult"⟩,
  ⟨0x7010, 0xb, 1, .u16, .ro, 255, .immediate, false, .full, .int 0, 0, "AlignSuggest"⟩,
  ⟨0x7010, 0xc, 1, .u32, .ro, 255, .immediate, false, .full, .int 4294967295, 0, "DelayIn"⟩,
  ⟨0x7010, 0xd, 1, .u32, .ro, 255, .immediate, false, .full, .int 4294967295, 0, "DelayOut"⟩,
  ⟨0x7010, 0xe, 1, .u32, .ro, 255, .immediate, false, .full, .int 4294967295, 0, "AlignedDelay"⟩,
  ⟨0x7010, 0xf, 1, .i32, .ro, 255, .immediate, false, .full, .int 0, 0, "ClockSkew"⟩,
  ⟨0x7010, 0x10, 1, .u8, .rw, 1, .nextTide, false, .between 3 30, .int 10, 0, "PilotLossDrop"⟩,
  ⟨0x7010, 0x11, 1, .u16, .ro, 255, .immediate, false, .full, .int 65535, 0, "PilotLevel"⟩,
  ⟨0x7010, 0x12, 1, .i32, .ro, 255, .immediate, false, .full, .int 0, 0, "BreakPosition"⟩]

/-- Object rows, part 15. -/
def objRows15 : List ObjRow := [
  ⟨0x7010, 0x13, 1, .u8, .wo, 1, .immediate, false, .full, .none, 0, "ForceTakeover"⟩,
  ⟨0x7010, 0x14, 1, .u32, .ro, 255, .immediate, false, .full, .int 0, 0, "TakeoverCount"⟩,
  ⟨0x7010, 0x15, 1, .u32, .ro, 255, .immediate, false, .full, .int 0, 0, "HandoffCount"⟩,
  ⟨0x7010, 0x16, 1, .u32, .ro, 255, .immediate, false, .full, .int 0, 0, "HandoffFailCount"⟩,
  ⟨0x8000, 0x1, 1, .u8, .rw, 2, .nextStart, true, .between 0 2, .int 0, 0, "HkReference"⟩,
  ⟨0x8000, 0x2, 1, .u8, .rw, 1, .nextStart, true, .between 0 1, .int 0, 0, "HkAlign"⟩,
  ⟨0x8000, 0x3, 1, .u8, .rw, 1, .nextTide, false, .between 0 32, .int 0, 0, "ScanLength"⟩,
  ⟨0x8000, 0x4, 1, .u32, .rw, 1, .nextTide, false, .between 10 1000000, .int 1000, 0, "ScanPeriod"⟩,
  ⟨0x8000, 0x5, 1, .u8, .ro, 255, .immediate, false, .full, .int 0, 0, "RefState"⟩,
  ⟨0x8000, 0x6, 1, .u32, .ro, 255, .immediate, false, .full, .int 0, 0, "OverrunCount"⟩,
  ⟨0x8000, 0x7, 1, .u8, .wo, 1, .immediate, false, .hkInput 24, .none, 0, "InjectInput"⟩,
  ⟨0x8000, 0x8, 1, .f32, .ro, 255, .immediate, false, .full, .int 2143289344, 0, "InjectResult"⟩,
  ⟨0x8000, 0x9, 1, .u32, .ro, 255, .immediate, false, .full, .int 0, 0, "InjectDropCount"⟩,
  ⟨0x8000, 0xa, 1, .u32, .ro, 255, .immediate, false, .full, .int 0, 0, "ScanLateCount"⟩,
  ⟨0x8001, 0x1, 32, .u8, .rw, 1, .nextTide, false, .full, .int 0, 0, "ScanEntry"⟩,
  ⟨0x8002, 0x1, 24, .f32, .ro, 255, .immediate, false, .full, .int 2143289344, 0, "SourceValue"⟩,
  ⟨0x8010, 0x1, 1, .bool, .rw, 1, .immediate, false, .full, .int 0, 0, "BridgeEnable"⟩,
  ⟨0x8010, 0x2, 1, .u8, .rw, 1, .immediate, false, .between 0 1, .int 0, 0, "ExcitationMode"⟩,
  ⟨0x8010, 0x3, 1, .u16, .rw, 1, .immediate, false, .oneOf [50, 100, 250, 500, 1000], .int 500, 0, "ExcitationCurrent"⟩,
  ⟨0x8010, 0x4, 1, .u16, .rw, 1, .immediate, false, .oneOf [1250, 2500], .int 2500, 0, "ExcitationVoltage"⟩,
  ⟨0x8010, 0x5, 1, .u8, .rw, 1, .immediate, false, .oneOf [1, 2, 4, 8, 16, 32, 64, 128], .int 1, 0, "Gain"⟩,
  ⟨0x8010, 0x6, 1, .u16, .rw, 1, .immediate, false, .between 1 1000, .int 100, 0, "ConversionTime"⟩,
  ⟨0x8010, 0x7, 1, .u8, .rw, 1, .immediate, false, .between 0 255, .int 2, 0, "SettleCount"⟩,
  ⟨0x8010, 0x8, 1, .u8, .rw, 1, .immediate, false, .between 0 1, .int 1, 0, "BridgeFunction"⟩,
  ⟨0x8010, 0x9, 1, .f32, .rw, 1, .immediate, true, .full, .int 1157234688, 0, "ReferenceResistance"⟩,
  ⟨0x8010, 0xa, 1, .f32, .rw, 1, .immediate, true, .full, .int 1148846080, 0, "RtdR0"⟩,
  ⟨0x8010, 0xb, 1, .f32, .rw, 1, .immediate, true, .full, .int 998248754, 0, "RtdA"⟩,
  ⟨0x8010, 0xc, 1, .f32, .rw, 1, .immediate, true, .full, .int 3038446975, 0, "RtdB"⟩,
  ⟨0x8010, 0xd, 1, .f32, .rw, 1, .immediate, true, .full, .int 2895326493, 0, "RtdC"⟩,
  ⟨0x8010, 0xe, 1, .bool, .rw, 1, .immediate, false, .full, .int 0, 0, "AmonEnable"⟩]

/-- Object rows, part 16. -/
def objRows16 : List ObjRow := [
  ⟨0x8010, 0xf, 1, .f32, .ro, 255, .immediate, false, .full, .int 2143289344, 0, "LastRatio"⟩,
  ⟨0x8010, 0x10, 1, .f32, .ro, 255, .immediate, false, .full, .int 2143289344, 0, "LastTemperature"⟩,
  ⟨0x8010, 0x11, 1, .u8, .ro, 255, .immediate, false, .full, .int 0, 0, "LastFlags"⟩,
  ⟨0x8010, 0x12, 1, .u32, .ro, 255, .immediate, false, .full, .int 0, 0, "BreakCount"⟩,
  ⟨0x8020, 0x1, 1, .u8, .wo, 1, .immediate, false, .full, .none, 0, "SelfCalStart"⟩,
  ⟨0x8020, 0x2, 1, .u8, .ro, 255, .immediate, false, .full, .int 0, 0, "SelfCalState"⟩,
  ⟨0x8020, 0x3, 1, .u32, .ro, 255, .immediate, false, .full, .int 0, 0, "HkCalCount"⟩,
  ⟨0x8020, 0x4, 1, .time64, .ro, 255, .immediate, false, .full, .int 0, 0, "HkCalTime"⟩,
  ⟨0x8020, 0x5, 1, .u32, .rw, 1, .immediate, false, .orZero 60 86400, .int 3600, 0, "HkCalPeriod"⟩,
  ⟨0x8020, 0x6, 1, .f32, .rw, 1, .immediate, false, .fbetween 1 25 1, .int 1073741824, 0, "SysCalFullScale"⟩,
  ⟨0x8020, 0x7, 1, .u8, .wo, 1, .immediate, false, .hkInput 16, .none, 0, "SysCalZero"⟩,
  ⟨0x8020, 0x8, 1, .u8, .wo, 1, .immediate, false, .hkInput 16, .none, 0, "SysCalFull"⟩,
  ⟨0x8020, 0x9, 1, .u8, .ro, 255, .immediate, false, .full, .int 0, 0, "SysCalState"⟩,
  ⟨0x8020, 0xa, 1, .u32, .ro, 255, .immediate, false, .full, .int 0, 0, "CalFailCount"⟩,
  ⟨0x8030, 0x1, 16, .f32, .rw, 2, .immediate, true, .full, .int 0, 0, "SysCalOffset"⟩,
  ⟨0x8031, 0x1, 16, .f32, .rw, 2, .immediate, true, .full, .int 1065353216, 0, "SysCalGain"⟩,
  ⟨0x8040, 0x1, 1, .u16, .ro, 255, .immediate, false, .full, .int 0, 0, "CalStaleMask"⟩,
  ⟨0x8040, 0x2, 2, .u8, .ro, 255, .immediate, false, .full, .int 0, 0, "TxDacCalState"⟩,
  ⟨0x9000, 0x1, 4, .u8, .rw, 1, .epoch, false, .between 0 5, .int 1, 0, "CorePool"⟩,
  ⟨0x9000, 0x5, 4, .u8, .rw, 1, .epoch, false, .between 0 5, .int 2, 0, "CorePool"⟩,
  ⟨0x9000, 0x9, 2, .u8, .rw, 1, .epoch, false, .between 0 5, .int 3, 0, "CorePool"⟩,
  ⟨0x9000, 0xb, 4, .u8, .rw, 1, .epoch, false, .between 0 5, .int 4, 0, "CorePool"⟩,
  ⟨0x9000, 0xf, 2, .u8, .rw, 1, .epoch, false, .between 0 5, .int 5, 0, "CorePool"⟩,
  ⟨0x9000, 0x11, 1, .u16, .ro, 255, .immediate, false, .full, .int 0, 0, "CoresOutOfService"⟩,
  ⟨0x9000, 0x12, 1, .f32, .ro, 255, .immediate, false, .full, .int 0, 0, "BrewLoadPeak"⟩,
  ⟨0x9000, 0x13, 1, .u32, .ro, 255, .immediate, false, .full, .int 0, 0, "CoreFaultCount"⟩,
  ⟨0x9000, 0x14, 1, .u32, .ro, 255, .immediate, false, .full, .int 0, 0, "InputDropCount"⟩,
  ⟨0x9010, 0x1, 1, .blob, .wo, 2, .immediate, false, .full, .none, 65535, "ProgramImage"⟩,
  ⟨0x9010, 0x2, 1, .u8, .ro, 255, .immediate, false, .full, .int 0, 0, "ProgramState"⟩,
  ⟨0x9010, 0x3, 1, .bool, .rw, 1, .nextTide, false, .full, .int 0, 0, "ProgramRun"⟩]

/-- Object rows, part 17. -/
def objRows17 : List ObjRow := [
  ⟨0x9010, 0x4, 1, .u16, .ro, 255, .immediate, false, .full, .int 0, 0, "ProgramCores"⟩,
  ⟨0x9010, 0x5, 1, .u32, .ro, 255, .immediate, false, .full, .int 0, 0, "ProgramFaultCount"⟩,
  ⟨0x9010, 0x6, 1, .str, .ro, 255, .immediate, false, .full, .none, 255, "ProgramName"⟩]

/-- Every object row. -/
def objRows : List ObjRow :=
  objRows0 ++ objRows1 ++ objRows2 ++ objRows3 ++ objRows4 ++ objRows5 ++ objRows6 ++ objRows7 ++ objRows8 ++ objRows9 ++ objRows10 ++ objRows11 ++ objRows12 ++ objRows13 ++ objRows14 ++ objRows15 ++ objRows16 ++ objRows17

end Sys2Proof.Machine
end

