-- ==== Sys2Proof/Machine/RegTable.lean ====
section
/-! DEFINITION. The register tables of the spec as data (R12, R13, R409): one row per register with the masks of
its RW, RWS and SEQ fields and the reset value of the bits it stores. Windows of a second instance and numbered
registers share the row of the first (`canonReg`). -/
namespace Sys2Proof.Machine

/-- Register rows, part 0. -/
def regRows0 : List RegRow := [
  ⟨0x0, 0x0, 0x0, 0x0, 0x0, 0x0, "SYS_ID"⟩,
  ⟨0x0, 0x4, 0x0, 0x0, 0x1, 0x0, "SYS_STAT"⟩,
  ⟨0x0, 0x8, 0x0, 0x0, 0x0, 0x0, "SYS_BUSERR_CNT"⟩,
  ⟨0x0, 0xc, 0x0, 0x0, 0x0, 0x0, "SYS_BUSERR_LO"⟩,
  ⟨0x0, 0x10, 0x0, 0x0, 0x0, 0x0, "SYS_BUSERR_HI"⟩,
  ⟨0x0, 0x20, 0x0, 0x0, 0x0, 0x0, "SYS_IRQ_SUM0"⟩,
  ⟨0x0, 0x24, 0x0, 0x0, 0x0, 0x0, "SYS_IRQ_SUM1"⟩,
  ⟨0x0, 0x28, 0x0, 0x0, 0x0, 0x0, "SYS_IRQ_SUM2"⟩,
  ⟨0x0, 0x30, 0xffffffff, 0x0, 0x0, 0x0, "SYS_IRQ_HMASK0"⟩,
  ⟨0x0, 0x34, 0xffffffff, 0x0, 0x0, 0x0, "SYS_IRQ_HMASK1"⟩,
  ⟨0x0, 0x38, 0xffffffff, 0x0, 0x0, 0x0, "SYS_IRQ_HMASK2"⟩,
  ⟨0x0, 0x40, 0x107, 0x0, 0x0, 0x0, "IND_SEL"⟩,
  ⟨0x0, 0x44, 0xffffffff, 0x0, 0x0, 0x0, "IND_ADDR"⟩,
  ⟨0x0, 0x48, 0xffffffff, 0x0, 0x0, 0x0, "IND_DATA"⟩,
  ⟨0x0, 0x4c, 0x0, 0x0, 0x7, 0x0, "IND_STAT"⟩,
  ⟨0x3, 0x0, 0xfffff000, 0x0, 0x0, 0x0, "PCIE_OB_BASE_LO"⟩,
  ⟨0x3, 0x4, 0xffffffff, 0x0, 0x0, 0x0, "PCIE_OB_BASE_HI"⟩,
  ⟨0x3, 0x8, 0x7ff, 0x0, 0x0, 0x0, "PCIE_DWIN"⟩,
  ⟨0x3, 0xc, 0xffff, 0x0, 0x0, 0x32, "PCIE_ER_HOLDOFF"⟩,
  ⟨0x3, 0x100, 0x0, 0xfffff000, 0x0, 0x0, "PCIE_ERn_BASE_LO"⟩,
  ⟨0x3, 0x104, 0x0, 0xffffffff, 0x0, 0x0, "PCIE_ERn_BASE_HI"⟩,
  ⟨0x3, 0x108, 0x80000000, 0x1f00ffff, 0x0, 0x10000000, "PCIE_ERn_CFG"⟩,
  ⟨0x3, 0x10c, 0x0, 0x0, 0x0, 0x0, "PCIE_ERn_WP"⟩,
  ⟨0x3, 0x110, 0xffffffff, 0x0, 0x0, 0x0, "PCIE_ERn_RP"⟩,
  ⟨0x3, 0x114, 0x0, 0x0, 0x0, 0x0, "PCIE_ERn_DROP"⟩,
  ⟨0x3, 0x118, 0x0, 0x0, 0x7, 0x0, "PCIE_ERn_STAT"⟩,
  ⟨0x8, 0x0, 0x0, 0x0, 0xff, 0x0, "TIDE_STAT"⟩,
  ⟨0x8, 0x4, 0xff, 0x0, 0x0, 0x0, "TIDE_IRQ_EN"⟩,
  ⟨0x8, 0x8, 0x0, 0x0, 0x0, 0x0, "TIDE_NUM_LO"⟩,
  ⟨0x8, 0xc, 0x0, 0x0, 0x0, 0x0, "TIDE_NUM_HI"⟩]

/-- Register rows, part 1. -/
def regRows1 : List RegRow := [
  ⟨0x8, 0x10, 0x0, 0x0, 0x0, 0x0, "TIDE_EPOCH"⟩,
  ⟨0x8, 0x14, 0x0, 0x0, 0x0, 0x0, "TIDE_LAUNCH_A"⟩,
  ⟨0x8, 0x18, 0x0, 0x0, 0x0, 0x0, "TIDE_LAUNCH_B"⟩,
  ⟨0x8, 0x1c, 0x0, 0x0, 0x0, 0x0, "TIDE_EDGE_RES"⟩,
  ⟨0x10, 0x0, 0x3, 0x0, 0x0, 0x0, "TX_CTRL"⟩,
  ⟨0x10, 0x4, 0x0, 0x3f3f7f7f, 0x0, 0x0, "TX_GATE"⟩,
  ⟨0x10, 0x8, 0x0, 0x0, 0x1f, 0x0, "TX_STAT"⟩,
  ⟨0x10, 0xc, 0x0, 0x0, 0x0, 0x0, "TX_CFGERR_OFS"⟩,
  ⟨0x10, 0x10, 0x0, 0x0, 0x0, 0x0, "TX_BIAS_PH"⟩,
  ⟨0x10, 0x14, 0x0, 0x0, 0x0, 0x0, "TX_BIAS_I"⟩,
  ⟨0x10, 0x18, 0x0, 0x0, 0x0, 0x0, "TX_BIAS_Q"⟩,
  ⟨0x10, 0x1c, 0x0, 0x0, 0x0, 0x0, "TX_PUMP"⟩,
  ⟨0x10, 0x20, 0x0, 0x0, 0x0, 0x0, "TX_LATENCY"⟩,
  ⟨0x12, 0x0, 0x3, 0x0, 0x0, 0x0, "RX_CTRL"⟩,
  ⟨0x12, 0x4, 0x0, 0x7fff7, 0x0, 0x30000, "RX_CFG"⟩,
  ⟨0x12, 0x8, 0x0, 0x0, 0x3f, 0x0, "RX_STAT"⟩,
  ⟨0x12, 0xc, 0x0, 0x0, 0x0, 0x0, "RX_CFGERR_OFS"⟩,
  ⟨0x12, 0x10, 0x0, 0x0, 0x0, 0x0, "RX_CLIP_XI"⟩,
  ⟨0x12, 0x14, 0x0, 0x0, 0x0, 0x0, "RX_CLIP_XQ"⟩,
  ⟨0x12, 0x18, 0x0, 0x0, 0x0, 0x0, "RX_CLIP_YI"⟩,
  ⟨0x12, 0x1c, 0x0, 0x0, 0x0, 0x0, "RX_CLIP_YQ"⟩,
  ⟨0x12, 0x20, 0x0, 0x0, 0x0, 0x0, "RX_PEAK"⟩,
  ⟨0x12, 0x24, 0x0, 0x0, 0x0, 0x0, "RX_REF_PWR"⟩,
  ⟨0x12, 0x200, 0x3, 0x0, 0x0, 0x0, "SW_CTRL"⟩,
  ⟨0x12, 0x204, 0x0, 0x7f7f38, 0x0, 0xa0118, "SW_CFG"⟩,
  ⟨0x12, 0x208, 0x0, 0x1ffff, 0x0, 0x543, "SW_START"⟩,
  ⟨0x12, 0x20c, 0x0, 0x3ffff, 0x0, 0x1de3d, "SW_COUNT"⟩,
  ⟨0x12, 0x210, 0x0, 0x0, 0x7f, 0x0, "SW_STAT"⟩,
  ⟨0x12, 0x214, 0x0, 0x0, 0x0, 0x0, "SW_CFGERR_OFS"⟩,
  ⟨0x12, 0x218, 0x0, 0x0, 0x0, 0x0, "SW_VALID"⟩]

/-- Register rows, part 2. -/
def regRows2 : List RegRow := [
  ⟨0x12, 0x21c, 0x0, 0x0, 0x0, 0x0, "SW_UNWRAP"⟩,
  ⟨0x12, 0x220, 0x0, 0x0, 0x0, 0x0, "SW_FADE"⟩,
  ⟨0x12, 0x224, 0x0, 0x0, 0x0, 0x0, "SW_NOISE"⟩,
  ⟨0x12, 0x228, 0x0, 0x0, 0x0, 0x0, "SW_REF"⟩,
  ⟨0x12, 0x300, 0x301, 0x0, 0x0, 0x0, "DEC_CTRL"⟩,
  ⟨0x12, 0x304, 0x0, 0x0, 0x7, 0x0, "DEC_STAT"⟩,
  ⟨0x12, 0x310, 0x1, 0x0, 0x0, 0x0, "LT_CTRL"⟩,
  ⟨0x12, 0x314, 0x0, 0x0, 0x7, 0x0, "LT_STAT"⟩,
  ⟨0x14, 0x0, 0x3, 0x0, 0x0, 0x0, "KILN_CTRL"⟩,
  ⟨0x14, 0x4, 0x0, 0x1f1f03, 0x0, 0xc1100, "KILN_CFG"⟩,
  ⟨0x14, 0x8, 0x0, 0xffff, 0x0, 0x0, "KILN_BINS"⟩,
  ⟨0x14, 0xc, 0x0, 0x0, 0xff, 0x0, "KILN_STAT"⟩,
  ⟨0x14, 0x10, 0x0, 0x0, 0x0, 0x0, "KILN_CFGERR_OFS"⟩,
  ⟨0x14, 0x14, 0x0, 0x0, 0x0, 0x0, "KILN_SHOTS"⟩,
  ⟨0x14, 0x18, 0x0, 0x0, 0x0, 0x0, "KILN_DROPS"⟩,
  ⟨0x14, 0x1c, 0x0, 0x0, 0x0, 0x0, "KILN_ALIAS"⟩,
  ⟨0x14, 0x20, 0x0, 0x0, 0x0, 0x0, "KILN_PROF_SEQ"⟩,
  ⟨0x14, 0x100, 0x0, 0x0, 0x7, 0x0, "KILN_ADC_STAT"⟩,
  ⟨0x14, 0x104, 0x0, 0x0, 0x0, 0x0, "KILN_CLIP_I"⟩,
  ⟨0x14, 0x108, 0x0, 0x0, 0x0, 0x0, "KILN_CLIP_Q"⟩,
  ⟨0x14, 0x10c, 0x0, 0x0, 0x0, 0x0, "KILN_ADC_PEAK"⟩,
  ⟨0x20, 0x0, 0x1, 0x0, 0x0, 0x0, "BREW_CTRL"⟩,
  ⟨0x20, 0x4, 0x0, 0x0, 0x7f, 0x0, "BREW_STAT"⟩,
  ⟨0x20, 0x8, 0x0, 0x0, 0x0, 0x0, "BREW_CFGERR_OFS"⟩,
  ⟨0x20, 0xc, 0x0, 0x0, 0x0, 0x0, "BREW_CORE_RUN"⟩,
  ⟨0x20, 0x10, 0x0, 0x0, 0x0, 0x0, "BREW_CORE_OUT"⟩,
  ⟨0x20, 0x14, 0x0, 0xffffff, 0x0, 0x492249, "BREW_POOL_LO"⟩,
  ⟨0x20, 0x18, 0x0, 0xffffff, 0x0, 0xb6491b, "BREW_POOL_HI"⟩,
  ⟨0x20, 0x1c, 0x0, 0x0, 0x0, 0x0, "BREW_LOAD"⟩,
  ⟨0x28, 0x0, 0x1, 0x0, 0x0, 0x0, "CEL_CTRL"⟩]

/-- Register rows, part 3. -/
def regRows3 : List RegRow := [
  ⟨0x28, 0x4, 0x0, 0x0, 0x7f, 0x0, "CEL_STAT"⟩,
  ⟨0x28, 0x8, 0x0, 0x0, 0x0, 0x0, "CEL_CFGERR_OFS"⟩,
  ⟨0x28, 0xc, 0x0, 0x0, 0x0, 0x0, "CEL_TRIGQ"⟩,
  ⟨0x28, 0x40, 0x0, 0xfffff, 0x0, 0x0, "CEL_RINGn_BASE"⟩,
  ⟨0x28, 0x44, 0x0, 0x1fffff, 0x0, 0x0, "CEL_RINGn_GEOM"⟩,
  ⟨0x28, 0x80, 0x0, 0x0, 0x0, 0x0, "CEL_FROZENn"⟩,
  ⟨0x2a, 0x0, 0x7, 0x0, 0x0, 0x0, "DDRC_CTRL"⟩,
  ⟨0x2a, 0x4, 0x0, 0xf1fff, 0x0, 0x81cee, "DDRC_CFG"⟩,
  ⟨0x2a, 0x8, 0x0, 0x0, 0xff, 0x0, "DDRC_STAT"⟩,
  ⟨0x2a, 0xc, 0x0, 0x0, 0x0, 0x0, "DDRC_CFGERR_OFS"⟩,
  ⟨0x2a, 0x10, 0x0, 0x0, 0x0, 0x0, "DDRC_ERR_LO"⟩,
  ⟨0x2a, 0x14, 0x0, 0x0, 0x0, 0x0, "DDRC_ERR_HI"⟩,
  ⟨0x2a, 0x18, 0x0, 0x0, 0x0, 0x0, "DDRC_MIG"⟩,
  ⟨0x2a, 0x1c, 0x0, 0x0, 0x0, 0x0, "DDRC_REF"⟩,
  ⟨0x2a, 0x20, 0x0, 0x0, 0x0, 0x0, "DDRC_RETIRED"⟩,
  ⟨0x30, 0x0, 0x1, 0x0, 0x0, 0x0, "CASK_CTRL"⟩,
  ⟨0x30, 0x4, 0x0, 0x0, 0x1f, 0x0, "CASK_STAT"⟩,
  ⟨0x30, 0x8, 0x0, 0x0, 0x0, 0x0, "CASK_SUBMIT_LO"⟩,
  ⟨0x30, 0xc, 0xff, 0x0, 0x0, 0x0, "CASK_SUBMIT_HI"⟩,
  ⟨0x30, 0x10, 0x0, 0x0, 0x0, 0x0, "CASK_QUEUE"⟩,
  ⟨0x30, 0x14, 0x1f, 0x0, 0x0, 0x0, "CASK_IRQ_EN"⟩,
  ⟨0x38, 0x0, 0x0, 0x0, 0xff, 0x0, "TIME_STAT"⟩,
  ⟨0x38, 0x4, 0x1, 0x0, 0x0, 0x0, "TIU_CTRL"⟩,
  ⟨0x38, 0x8, 0x0, 0xfffff77, 0x0, 0x3e8022, "TIU_CFG"⟩,
  ⟨0x38, 0xc, 0x0, 0x0, 0xf, 0x0, "TIU_STAT"⟩,
  ⟨0x38, 0x10, 0x0, 0x0, 0x0, 0x0, "TIU_CFGERR_OFS"⟩,
  ⟨0x38, 0x14, 0x0, 0x0, 0x0, 0x0, "TIU_INPUT"⟩,
  ⟨0x38, 0x18, 0x0, 0x0, 0x0, 0x0, "TIU_TS_AUX"⟩,
  ⟨0x38, 0x1c, 0x0, 0x0, 0x0, 0x0, "TIU_TS_LO"⟩,
  ⟨0x38, 0x20, 0x0, 0x0, 0x0, 0x0, "TIU_TS_HI"⟩]

/-- Register rows, part 4. -/
def regRows4 : List RegRow := [
  ⟨0x38, 0x24, 0x0, 0x0, 0x0, 0x0, "TIU_COUNT"⟩,
  ⟨0x39, 0x0, 0x1, 0x0, 0x0, 0x0, "CHN_CTRL"⟩,
  ⟨0x39, 0x4, 0x0, 0x3ffffff, 0x0, 0x88b5, "CHN_CFG"⟩,
  ⟨0x39, 0x8, 0x0, 0x0, 0xff, 0x0, "CHN_STAT"⟩,
  ⟨0x39, 0xc, 0x0, 0x0, 0x0, 0x0, "CHN_CFGERR_OFS"⟩,
  ⟨0x39, 0x10, 0x0, 0x0, 0xf, 0x0, "PAIR_STAT_A"⟩,
  ⟨0x39, 0x14, 0x0, 0x0, 0xf, 0x0, "PAIR_STAT_B"⟩,
  ⟨0x39, 0x18, 0x0, 0x0, 0x0, 0x0, "PAIR_DELAY_A"⟩,
  ⟨0x39, 0x1c, 0x0, 0x0, 0x0, 0x0, "PAIR_DELAY_B"⟩,
  ⟨0x40, 0x0, 0x7b, 0x0, 0x0, 0x0, "HK_CTRL"⟩,
  ⟨0x40, 0x4, 0x0, 0x3f07, 0x0, 0x0, "HK_CFG"⟩,
  ⟨0x40, 0x8, 0x0, 0x0, 0x1ff, 0x0, "HK_STAT"⟩,
  ⟨0x40, 0xc, 0x0, 0x0, 0x0, 0x0, "HK_CFGERR_OFS"⟩,
  ⟨0x40, 0x10, 0x0, 0x0, 0x0, 0x0, "AUX_DATA"⟩,
  ⟨0x40, 0x14, 0x0, 0x0, 0x0, 0x0, "HK_INJ"⟩,
  ⟨0x40, 0x18, 0x0, 0x0, 0x0, 0x0, "HK_CAL"⟩,
  ⟨0x40, 0x100, 0x0, 0x3f, 0x0, 0x0, "HK_SCANn"⟩,
  ⟨0x40, 0x200, 0xffffff03, 0x0, 0x0, 0x2190302, "BR_CFGn"⟩,
  ⟨0x40, 0x204, 0x0, 0x0, 0x0, 0x0, "BR_LASTn"⟩,
  ⟨0x48, 0x0, 0xf1, 0x0, 0x0, 0x0, "BWF_CTRL"⟩,
  ⟨0x48, 0x4, 0x0, 0x0, 0x1f, 0x0, "BWF_STAT"⟩,
  ⟨0x48, 0x8, 0x0, 0x0, 0x0, 0x0, "BWF_CFGERR_OFS"⟩,
  ⟨0x48, 0xc, 0x0, 0xffff, 0x0, 0x3e8, "BWF_WDOG_CFG"⟩,
  ⟨0x48, 0x10, 0x0, 0x0, 0x0, 0x0, "BWF_WDOG_KICK"⟩,
  ⟨0x48, 0x14, 0x0, 0x0, 0x0, 0x0, "BWF_MWDOG_KICK"⟩,
  ⟨0x48, 0x18, 0x0, 0x0, 0x0, 0x0, "BWF_LOG"⟩,
  ⟨0x48, 0x1c, 0x0, 0x0, 0x0, 0x0, "BWF_LOG_TIME_LO"⟩,
  ⟨0x48, 0x20, 0x0, 0x0, 0x0, 0x0, "BWF_LOG_TIME_HI"⟩,
  ⟨0x48, 0x24, 0x0, 0x0, 0x0, 0x0, "BWF_CORR_CNT"⟩,
  ⟨0x49, 0x0, 0x0, 0x0, 0x7, 0x0, "PWR_STAT"⟩]

/-- Register rows, part 5. -/
def regRows5 : List RegRow := [
  ⟨0x49, 0x4, 0x0, 0x0, 0x0, 0x0, "PWR_DOMAIN"⟩,
  ⟨0x49, 0x8, 0x0, 0x0, 0x0, 0x0, "PWR_RESET"⟩,
  ⟨0x49, 0xc, 0x0, 0x0, 0x0, 0x0, "PWR_STRAP"⟩,
  ⟨0x49, 0x10, 0x0, 0x0, 0x0, 0x0, "PWR_TEMP"⟩,
  ⟨0x49, 0x14, 0x0, 0x0, 0x0, 0x0, "PWR_STBY"⟩]

/-- Every register row. -/
def regRows : List RegRow :=
  regRows0 ++ regRows1 ++ regRows2 ++ regRows3 ++ regRows4 ++ regRows5

end Sys2Proof.Machine
end

