-- ==== Sys2Proof/Machine/Operands.lean ====
section
/-! DEFINITION. The operand forms: object keys, types, encodings and ranges (R376–R381), register addresses (R408, R409). -/
namespace Sys2Proof.Machine
open Sys2Proof

/-- 0 for port A, 1 for port B. -/
def Port.num : Port → Nat
  | .a => 0
  | .b => 1

/-- The other port. -/
def Port.other : Port → Port
  | .a => .b
  | .b => .a

/-- Both ports, A first. -/
def bothPorts : List Port := [.a, .b]

/-- The index at which a port holds the objects that port A holds at `i` (R38, R81, R143, R170, R171, R200, R258, R235, R374). -/
def portIndex (p : Port) (i : Nat) : Nat :=
  match p with
  | .a => i
  | .b => if i / 0x100 = 0x21 ∨ i / 0x1000 = 3 ∨ i / 0x100 = 0x41 then i + 0x100 else i + 0x10

/-- The table index whose rows describe the object index `i`, and which instance `i` is. Active copies 0x2011 and
0x2021 have no rows of their own. -/
def canonIndex (i : Nat) : Nat × Nat :=
  if i = 0x2020 then (0x2010, 1) else if i = 0x2200 then (0x2100, 1)
  else if i = 0x3200 then (0x3100, 1)
  else if i = 0x3121 then (0x3120, 1) else if i = 0x3220 then (0x3120, 2) else if i = 0x3221 then (0x3120, 3)
  else if i = 0x3230 then (0x3130, 1) else if i = 0x3231 then (0x3131, 1)
  else if i = 0x4020 then (0x4010, 1) else if i = 0x4021 then (0x4011, 1)
  else if 0x4100 ≤ i ∧ i < 0x4140 then (0x4100, i - 0x4100)
  else if 0x4200 ≤ i ∧ i < 0x4240 then (0x4100, i - 0x4200 + 64)
  else if i = 0x5020 then (0x5010, 1)
  else if 0x5100 ≤ i ∧ i < 0x5110 then (0x5100, i - 0x5100)
  else if i = 0x6020 then (0x6010, 1) else if i = 0x6040 then (0x6030, 1) else if i = 0x7020 then (0x7010, 1)
  else if 0x1230 ≤ i ∧ i < 0x1236 then (0x1230, i - 0x1230)
  else if i = 0x8011 then (0x8010, 1)
  else if 0x9010 ≤ i ∧ i < 0x9014 then (0x9010, i - 0x9010)
  else (i, 0)

/-- A key of the dictionary's lists. -/
def objKey (idx sub : Nat) : Nat := idx * 256 + sub

/-- The row of an object (R376). -/
def objRow? (idx sub : Nat) : Option ObjRow :=
  let c := (canonIndex idx).1
  objRows.find? (fun r => r.idx == c && decide (r.sub ≤ sub) && decide (sub < r.sub + r.n))

/-- The highest subindex implemented at an index: the value of subindex 0 (R376). -/
def topSub (idx : Nat) : Option Nat :=
  let c := (canonIndex idx).1
  objRows.foldl (fun m r => if r.idx == c then some (max (m.getD 0) (r.sub + r.n - 1)) else m) none

/-- Bytes of a value of a type; none for STR and BLOB (R377). -/
def ObjType.size : ObjType → Option Nat
  | .bool | .u8 => some 1
  | .u16 | .i16 => some 2
  | .u32 | .i32 | .f32 => some 4
  | .u64 | .time64 => some 8
  | .str | .blob => none

/-- Type code (R377). -/
def ObjType.code : ObjType → Nat
  | .bool => 0 | .u8 => 1 | .u16 => 2 | .u32 => 3 | .u64 => 4 | .i16 => 5 | .i32 => 6 | .f32 => 7 | .str => 8
  | .blob => 9 | .time64 => 10

/-- The integer a value of a type stands for; an F32's bits. -/
def ObjType.toInt (t : ObjType) (bs : List Byte) : Int :=
  match t with
  | .i16 => toSigned 16 (leNat bs)
  | .i32 => toSigned 32 (leNat bs)
  | _ => leNat bs

/-- Whether a value of the right length lies in the range of its object (R377, R391 check 8). -/
def rangeOk (t : ObjType) (r : Rng) (bs : List Byte) : Bool :=
  let v := t.toInt bs
  let base := match t with
    | .bool => decide (v ≤ 1)
    | .f32 => !f32Special (leNat bs)
    | _ => true
  base && match r with
    | .full => true
    | .between lo hi => decide (lo ≤ v) && decide (v ≤ hi)
    | .fbetween lo hi d =>
      let x := f32Num (leNat bs)
      (f32Num (Num.dec lo d).toF32).le x && x.le (f32Num (Num.dec hi d).toF32)
    | .oneOf l => l.contains v
    | .orZero lo hi => decide (v = 0) || (decide (lo ≤ v) && decide (v ≤ hi))
    | .hkInput n => decide (v < 64) && decide (v % 32 < n)
    | .magnitude lo hi => decide (lo ≤ v.natAbs) && decide (v.natAbs ≤ hi)
    | .coded lo hi => match t, t.size with
      | .f32, _ => (f32Num lo).le (f32Num (leNat bs)) && (f32Num (leNat bs)).le (f32Num hi)
      | _, some n => decide (t.toInt (leBytes n lo) ≤ v) && decide (v ≤ t.toInt (leBytes n hi))
      | _, none => true

/-- Encode an integer in a type's bytes. -/
def ObjType.encode (t : ObjType) (v : Int) : List Byte :=
  match t.size with
  | some n => leBytes n (ofSigned (8 * n) v)
  | none => []

/-- The value a strap default gives (R381, R334, R335, R403). -/
def strapValue (straps nodeHigh : Nat) : StrapDefault → Nat
  | .all => straps % 2 ^ 13
  | .role => bitsOf straps 1 0
  | .node => nodeHigh * 16 + bitsOf straps 5 2
  | .gnss => if 2 ≤ bitsOf straps 1 0 then 1 else 0

/-- Defaults of second instances that differ from the first's (R81, R170, R200, R196). -/
def instDefault (idx sub : Nat) : Option Int :=
  if idx = 0x2200 ∧ sub = 0x16 then some 562500
  else if (idx = 0x1234 ∨ idx = 0x1235) ∧ sub = 3 then some 1000
  else if idx = 0x2200 ∧ sub = 0x36 then some 1
  else if (idx = 0x3121 ∨ idx = 0x3221) ∧ sub = 2 then some 4
  else if (idx = 0x3121 ∨ idx = 0x3221) ∧ sub = 4 then some 16
  else if (idx = 0x3121 ∨ idx = 0x3221) ∧ sub = 5 then some 7652
  else if (idx = 0x3121 ∨ idx = 0x3221) ∧ sub = 0xC then some 0x433F8000
  else if idx = 0x4020 ∧ sub = 0x12 then some 1
  else if idx = 0x4100 ∧ sub = 2 then some 40959
  else if idx = 0x4200 ∧ sub = 2 then some 40959
  else if idx = 0x4100 ∧ sub = 3 then some 1
  else if idx = 0x4200 ∧ sub = 3 then some 1
  else none

/-- The default value of an object as bytes (R381). -/
def objDefault (straps nodeHigh idx sub : Nat) : List Byte :=
  match objRow? idx sub with
  | none => []
  | some r =>
    match instDefault idx sub with
    | some v => r.ty.encode v
    | none =>
      match r.dflt with
      | .none => match r.ty.size with
        | some n => zeros n
        | none => []
      | .int v => r.ty.encode v
      | .strap k => r.ty.encode (strapValue straps nodeHigh k)

/-- NodeHigh in use (R334). -/
def State.nodeHigh (s : State) : Nat := leNat ((lookup (objKey 0x1100 2) s.od.act).getD [0])

/-- Value in force of an object (R380). -/
def State.obj (s : State) (idx sub : Nat) : List Byte :=
  (lookup (objKey idx sub) s.od.act).getD (objDefault s.power.straps s.nodeHigh idx sub)

/-- Last value written of an object (R380). -/
def State.objPend (s : State) (idx sub : Nat) : List Byte :=
  (lookup (objKey idx sub) s.od.pend).getD (s.obj idx sub)

/-- Value in force as a number. -/
def State.nat (s : State) (idx sub : Nat) : Nat := leNat (s.obj idx sub)

/-- Pending value as a number. -/
def State.pnat (s : State) (idx sub : Nat) : Nat := leNat (s.objPend idx sub)

/-- Value in force as a signed integer of `w` bits. -/
def State.int (s : State) (w idx sub : Nat) : Int := toSigned w (s.nat idx sub)

/-- Value in force of an F32. -/
def State.real (s : State) (idx sub : Nat) : Num := f32Num (s.nat idx sub)

/-- Value in force, for a port's object. -/
def State.pn (s : State) (p : Port) (i sub : Nat) : Nat := s.nat (portIndex p i) sub

/-- Value in force of an F32, for a port's object. -/
def State.pr (s : State) (p : Port) (i sub : Nat) : Num := s.real (portIndex p i) sub

/-- Set the value in force. -/
def State.setObj (s : State) (idx sub : Nat) (v : List Byte) : State :=
  { s with od := { s.od with act := insertKey (objKey idx sub) v s.od.act } }

/-- Set the pending value. -/
def State.setPend (s : State) (idx sub : Nat) (v : List Byte) : State :=
  { s with od := { s.od with pend := insertKey (objKey idx sub) v s.od.pend } }

/-- A port's part of the state. -/
def State.port (s : State) : Port → PortState
  | .a => s.pa
  | .b => s.pb

/-- Change a port's part. -/
def State.modPort (s : State) (p : Port) (f : PortState → PortState) : State :=
  match p with
  | .a => { s with pa := f s.pa }
  | .b => { s with pb := f s.pb }

/-- Change both ports' parts. -/
def State.modBoth (s : State) (f : Port → PortState → PortState) : State :=
  { s with pa := f .a s.pa, pb := f .b s.pb }

/-! ## Straps (R403, R495) -/

def State.role (s : State) : Nat := bitsOf s.power.straps 1 0
def State.hostSel (s : State) : Bool := bitOf s.power.straps 8
def State.portEn (s : State) (p : Port) : Bool := bitOf s.power.straps (10 + Port.num p)
/-- One laser serves both ports (R69). -/
def State.laserShare (s : State) : Bool := bitOf s.power.straps 12
/-- Node address (R334). -/
def State.node (s : State) : Nat := (s.nodeHigh * 16 + bitsOf s.power.straps 5 2) % 1024
/-- Firmware runs. -/
def State.up (s : State) : Bool := s.power.phase == .running
/-- A switched domain is on (R494). -/
def State.domain (s : State) (d : Nat) : Bool := bitOf s.power.domains d

/-! ## Registers (R408, R409) -/

/-- Base of the register space. -/
def regBase : Nat := 0x3000000000

/-- The table window and offset whose row describes the register at window `w`, offset `o`: windows of a second
instance and numbered registers share the first's row. -/
def canonReg (w o : Nat) : Nat × Nat :=
  let w' := if w = 0x11 then 0x10 else if w = 0x13 then 0x12 else if w = 0x15 then 0x14 else if w = 0x29 then 0x28
    else if w = 0x31 ∨ w = 0x32 then 0x30 else w
  let o' :=
    if w' = 3 ∧ 0x100 ≤ o ∧ o < 0x200 then 0x100 + (o - 0x100) % 0x20
    else if w' = 0x28 ∧ 0x40 ≤ o ∧ o < 0x68 then 0x40 + (o - 0x40) % 8
    else if w' = 0x28 ∧ 0x80 ≤ o ∧ o < 0x94 then 0x80 + (o - 0x80) % 4
    else if w' = 0x40 ∧ 0x100 ≤ o ∧ o < 0x180 then 0x100 + (o - 0x100) % 4
    else if w' = 0x40 ∧ 0x200 ≤ o ∧ o < 0x220 then 0x200 + (o - 0x200) % 0x10
    else o
  (w', o')

/-- The row of the register at window `w`, offset `o`. -/
def regRow? (w o : Nat) : Option RegRow :=
  let c := canonReg w o
  regRows.find? (fun r => r.win == c.1 && r.ofs == c.2)

/-- Key of a register: window × 0x10000 + offset. -/
def regKey (w o : Nat) : Nat := w * 0x10000 + o

/-- Stored bits of a register (its RW and RWS fields). -/
def State.reg (s : State) (w o : Nat) : Nat :=
  (lookup (regKey w o) s.regs).getD (match regRow? w o with
    | some r => r.rst
    | none => 0)

/-- Store a register's RW and RWS fields. -/
def State.setReg (s : State) (w o v : Nat) : State := { s with regs := insertKey (regKey w o) v s.regs }

/-- Set or clear bit `b` of a register's stored bits. -/
def State.setRegBit (s : State) (w o b : Nat) (v : Bool) : State :=
  let r := s.reg w o
  s.setReg w o (if v then r ||| 2 ^ b else r - (if bitOf r b then 2 ^ b else 0))

/-! Windows of the ports and engines (R408). -/
def winTx (p : Port) : Nat := 0x10 + Port.num p
def winRx (p : Port) : Nat := 0x12 + Port.num p
def winKiln (p : Port) : Nat := 0x14 + Port.num p
def winCel (p : Port) : Nat := 0x28 + Port.num p

/-! Status registers. -/
def stSys : Nat := 0x4
def stInd : Nat := 0x4C
def stPcie (n : Nat) : Nat := 0x30118 + 0x20 * n
def stMb (e : Nat) : Nat := 0x10818 + 0x1000 * e
def stSem : Nat := 0x20080
def stTide : Nat := 0x80000
def stTx (p : Port) : Nat := regKey (winTx p) 8
def stRx (p : Port) : Nat := regKey (winRx p) 8
def stSw (p : Port) : Nat := regKey (winRx p) 0x210
def stDec (p : Port) : Nat := regKey (winRx p) 0x304
def stLt (p : Port) : Nat := regKey (winRx p) 0x314
def stKiln (p : Port) : Nat := regKey (winKiln p) 0xC
def stKAdc (p : Port) : Nat := regKey (winKiln p) 0x100
def stBrew : Nat := 0x200004
def stCel (p : Port) : Nat := regKey (winCel p) 4
def stDdrc : Nat := 0x2A0008
def stCask (n : Nat) : Nat := 0x300004 + 0x10000 * n
def stTime : Nat := 0x380000
def stTiu : Nat := 0x38000C
def stChn : Nat := 0x390008
def stPair (p : Port) : Nat := 0x390010 + 4 * Port.num p
def stHk : Nat := 0x400008
def stBwf : Nat := 0x480004
def stPwr : Nat := 0x490000

end Sys2Proof.Machine
end

