-- ==== Sys2Proof/Machine/Ops.lean ====
section
/-! DEFINITION. The shared operations: output, time, status bits and interrupts, bus errors, memory, faults, full reset
and standby. -/
namespace Sys2Proof.Machine
open Sys2Proof

/-! ## Output, free values, time -/

/-- Record what the block sends (log 4). -/
def State.emit (s : State) (o : Output) : State := { s with out := o :: s.out }

/-- Take the next free value (log 2). -/
def State.takeFree (s : State) : Nat × State := (Config.freeValue s.free, { s with free := s.free + 1 })

/-- What a tick of the sample clock adds to local time: 8 ns × (1 + y), in 2^(−32) ns, rounded down (R312). -/
def TimeBase.tickStep (b : TimeBase) : Nat := (8 * 2 ^ 32 + 8 * 2 ^ 32 * b.y / 10 ^ 12).toNat

/-- Local time only moves forward, to the time a dated command carries, with the ticks up to there (log 14). -/
def State.advance (s : State) (t : Nat) : State :=
  let b := s.time
  let k := (t * 2 ^ 32 - b.tickAt) / b.tickStep
  { s with time := if t ≤ b.now then b else { b with now := t, ticks := b.ticks + k, tickAt := b.tickAt + k * b.tickStep } }

/-- The RTC's present reading, ns (R313). -/
def State.rtcNow (s : State) : Nat := s.aon.rtc + (s.time.now - s.aon.rtcAt)

/-! ## Status bits and interrupts (R412–R414) -/

/-- A status register's SEQ part. -/
def State.stat (s : State) (key : Nat) : SeqReg := (lookup key s.stats).getD {}

/-- Store a status register's SEQ part. -/
def State.setStat (s : State) (key : Nat) (r : SeqReg) : State := { s with stats := insertKey key r s.stats }

/-- The bits of a status register that its block's IRQ_EN enables; every bit where it has none (R414). A compression job may ask for
the interrupt of its own STAT bit (R306). -/
def State.irqEnable (s : State) (key : Nat) : Nat :=
  let w := key / 0x10000
  if w = 8 then s.reg 8 4
  else if 0x30 ≤ w ∧ w ≤ 0x32 then s.reg w 0x14 ||| (s.cask.engs.getD (w - 0x30) {}).asked
  else 0xFFFFFF

/-- The windows that hold status registers. -/
def irqWindows : List Nat :=
  [0, 1, 2, 3, 8, 0x10, 0x11, 0x12, 0x13, 0x14, 0x15, 0x20, 0x28, 0x29, 0x2A, 0x30, 0x31, 0x32, 0x38, 0x39, 0x40, 0x48, 0x49]

/-- A window's interrupt is asserted while any of its SEQ bits is set and enabled (R414). -/
def State.irqWindow (s : State) (w : Nat) : Bool :=
  s.stats.any (fun e => e.1 / 0x10000 == w && (e.2.mask &&& s.irqEnable e.1) != 0)

/-- HMASK of a window (R414). -/
def State.hostMask (s : State) (w : Nat) : Bool := bitOf (s.reg 0 (0x30 + 4 * (w / 32))) (w % 32)

/-- Some enabled summary bit is set (R414). -/
def State.hostSum (s : State) : Bool := irqWindows.any (fun w => s.irqWindow w && s.hostMask w)

/-- The host summary interrupt fires: vector 0 (R414, R422). With HOSTSEL high there is no PCIe link (R420). -/
def State.fireHost (s : State) : State := if s.hostSel then s else s.emit (.vector 0)

/-- An enabled summary bit that rose from `old` to `s` fires the host summary interrupt (R414). -/
def State.afterRise (s old : State) : State :=
  if irqWindows.any (fun w => !(old.irqWindow w && old.hostMask w) && s.irqWindow w && s.hostMask w) then s.fireHost else s

/-- Set SEQ bits of a status register in one cycle (R412), with the interrupt that follows (R414). -/
def State.raise (s : State) (key : Nat) (bits : List Nat) : State :=
  (s.setStat key ((s.stat key).raise bits)).afterRise s

/-- Set one SEQ bit where a condition holds. -/
def State.raiseIf (s : State) (c : Bool) (key bit : Nat) : State := if c then s.raise key [bit] else s

/-- A write to a status register (R412), and the interrupt that may fire again after it (R414). -/
def State.writeStat (s : State) (key v : Nat) : State :=
  let s := s.setStat key ((s.stat key).write v)
  if s.hostSum then s.fireHost else s

/-- An RWS field was written while its block was enabled (R12): CFGERR and the first write's offset. Once CFGERR has cleared, the
offset reads on as it was until the next (DESIGN CHOICE, log 136). -/
def State.cfgErr (s : State) (key bit ofs : Nat) : State :=
  let s := if (s.stat key).has bit then s else { s with cfgOfs := insertKey key ofs s.cfgOfs }
  s.raise key [bit]

/-- A bus error (R411): the count, the capture of the first since BUSERR cleared, and BUSERR. -/
def State.busError (s : State) (init addr : Nat) (write : Bool) : State :=
  let h := s.host
  let h := { h with busErrs := satAdd 0xFFFFFFFF h.busErrs 1 }
  let h := if (s.stat stSys).has 0 then h else { h with errAddr := addr, errInit := init, errWrite := write }
  { s with host := h }.raise stSys [0]

/-- What the initiator of a write that met a bus error is told; a posted PCIe write is discarded (R411). -/
def State.tellWrite (s : State) (init : Nat) : State := if init = 21 then s else s.emit (.writeError init)

/-! ## Memory (R406): canonical cells, unlisted bytes read 0 (log 6) -/

/-- Read one byte. -/
def memGet : List Host.Cell → Nat → Byte
  | [], _ => 0
  | (k, v) :: t, a => if k = a then v else memGet t a

/-- Write one byte. -/
def memPut : List Host.Cell → Nat → Byte → List Host.Cell
  | [], a, b => if b = 0 then [] else [(a, b)]
  | (k, v) :: t, a, b =>
    if a < k then (if b = 0 then (k, v) :: t else (a, b) :: (k, v) :: t)
    else if a = k then (if b = 0 then t else (a, b) :: t)
    else (k, v) :: memPut t a b

/-- The cells rise strictly from above `lo` and none holds 0. -/
def memWfFrom : Nat → List Host.Cell → Bool
  | _, [] => true
  | lo, (k, v) :: t => decide (lo ≤ k) && (v != 0) && memWfFrom (k + 1) t

/-- The canonical form. -/
def Memory.wf (m : List Host.Cell) : Bool := memWfFrom 0 m

/-- `n` bytes from address `a` on. -/
def memRead (m : List Host.Cell) (a : Nat) : Nat → List Byte
  | 0 => []
  | n + 1 => memGet m a :: memRead m (a + 1) n

/-- Write bytes from address `a` on. -/
def memWrite : List Host.Cell → Nat → List Byte → List Host.Cell
  | m, _, [] => m
  | m, a, b :: bs => memWrite (memPut m a b) (a + 1) bs

/-- `n` bytes from address `a` on read 0. -/
def memClear (m : List Host.Cell) (a n : Nat) : List Host.Cell := m.filter (fun c => decide (c.1 < a) || decide (a + n ≤ c.1))

/-- Bytes at a fabric address. -/
def State.read (s : State) (a n : Nat) : List Byte := memRead s.mem a n

/-- Store bytes at a fabric address. -/
def State.write (s : State) (a : Nat) (bs : List Byte) : State := { s with mem := memWrite s.mem a bs }

/-! ## Check results -/

/-- The port of an instance. -/
def instPort (k : Nat) : Port := if k = 0 then .a else .b

/-- The check results that a write returns to 255 (R36, R40, R177, R242, R365; log 71). -/
def State.invalidate (s : State) (idx sub : Nat) : State :=
  let (c, k) := canonIndex idx
  let one (q : Port) (plan kiln cel pair : Bool) (s : State) : State := s.modPort q (fun ps => { ps with
    planResult := if plan then 255 else ps.planResult
    kilnResult := if kiln then 255 else ps.kilnResult
    cellarResult := if plan || cel then 255 else ps.cellarResult
    pairResult := if plan || pair then 255 else ps.pairResult })
  let q := instPort k
  if c = 0x2000 ∧ sub = 1 then one .b true false false false (one .a true false false false s)
  else if (c = 0x2010 ∧ 1 ≤ sub ∧ sub ≤ 0xA) ∨ (c = 0x3100 ∧ 1 ≤ sub ∧ sub ≤ 4) ∨ (c = 0x2100 ∧ (sub = 0x62 ∨ sub = 0x63)) then
    one q true false false false s
  else if c = 0x4010 ∧ (objRow? idx sub).elim false (fun r => r.ap == .epoch) then one q false true false false s
  else if c = 0x5010 then one q false false true false s
  else if c = 0x5100 ∧ (objRow? idx sub).elim false (fun r => r.ap == .epoch) then
    one .b false false true false (one .a false false true false s)
  else if c = 0x7010 ∧ (objRow? idx sub).elim false (fun r => r.ap == .epoch || r.ap == .nextTide) then one q false false false true s
  else s

/-! ## Records on their way -/

/-- Hand a record to a port's Cellar ring (R239). -/
def State.toRing (s : State) (p : Port) (r : RingRec) : State :=
  s.modPort p (fun q => { q with celIn := q.celIn ++ [r] })

/-- Hand a record to the export DMA (R423), which discards it where no PCIe host path is selected (R420). -/
def State.toExport (s : State) (r : ExportRec) : State :=
  if s.hostSel then s else { s with host := { s.host with expIn := s.host.expIn ++ [r] } }

/-! ## Faults (R510–R512) -/

/-- A fault key (R354, R511). -/
def faultKey (node unit cls inst num : Nat) : Nat :=
  (node % 1024) * 2 ^ 22 + (unit % 256) * 2 ^ 14 + cls % 4 * 2 ^ 12 + inst % 16 * 2 ^ 8 + num % 256

/-- A contained fault with its key: counted always, logged while BWF_CTRL.ENABLE is 1, dropped where the log is full
(R512, R519). -/
def State.containedKey (s : State) (key : Nat) : State :=
  let s := { s with bwf := { s.bwf with contained := satAdd 0xFFFFFFFF s.bwf.contained 1 } }
  if bitOf (s.reg 0x48 0) 0 then
    if 64 ≤ s.bwf.log.length then s.raise stBwf [3]
    else { s with bwf := { s.bwf with log := s.bwf.log ++ [(key, s.time.now)] } }.raise stBwf [1]
  else s

/-- A contained fault of this node. -/
def State.contained (s : State) (unit inst num : Nat) : State := s.containedKey (faultKey s.node unit 1 inst num)

/-- A contained fault raised by firmware itself, which holds an automatic confirm off (R486). -/
def State.containedFw (s : State) (unit inst num : Nat) : State :=
  { s with ident := { s.ident with fwFault := true } }.contained unit inst num

/-- A corrected fault: counted, and CORRECTED set (R510, R519). -/
def State.corrected (s : State) : State :=
  { s with bwf := { s.bwf with corrected := (s.bwf.corrected + 1) % 2 ^ 64 } }.raise stBwf [0]

/-! ## Full reset and standby (R499–R501, R504) -/

/-- AON with the clock's reading folded in, so that local time may restart. -/
def State.foldAon (s : State) : Aon := { s.aon with rtc := s.rtcNow, rtcAt := 0 }

/-- What a full reset or a standby leaves: AON, the flash, the fuses, the pins' levels, the queue, the log of outputs and
the counter of free values (R500, R501, R504). Everything else is at its reset value, every optical output at 0. -/
def State.dropAll (s : State) (ph : Phase) (pwrEn : Bool) : State :=
  { State.reset with
    pending := s.pending, free := s.free, out := s.out, aon := s.foldAon, flash := s.flash, otp := s.otp
    power := { phase := ph, porstLow := s.power.porstLow, sysrstLow := s.power.sysrstLow,
               ilockOpen := s.power.ilockOpen, vmainOk := s.power.vmainOk, ocxoRdy := s.power.ocxoRdy,
               tCentre := s.power.tCentre, tEdge := s.power.tEdge, pwrEn := pwrEn } }

/-- A full reset with its cause (R499, R500). -/
def State.fullReset (s : State) (cause : Nat) : State :=
  let s := s.dropAll (if cause = 0 then .porst else .held) true
  { s with aon := { s.aon with cause := cause } }

/-- A full reset for a fatal fault: the key and the time go to AON first (R510). -/
def State.fatal (s : State) (unit inst num cause : Nat) : State :=
  let a := s.aon
  let t := s.time.now
  { s with aon := { a with fatalCount := satAdd 0xFFFFFFFF a.fatalCount 1, lastKey := faultKey s.node unit 2 inst num,
                           lastTime := t, fatals := a.fatals ++ [s.rtcNow] } }.fullReset cause

/-- A wake (R505): PWREN high, the board holding PORST_N low until the rails are back. -/
def State.wake (s : State) (cause : Nat) : State :=
  { s with power := { s.power with phase := .porst, pwrEn := true, porstLow := true }
           aon := { s.aon with cause := cause, mainLoss := false } }

/-- An alarm is set and the clock has reached it (R505); 0 is none. -/
def State.alarmPast (s : State) : Bool := s.aon.wakeAlarm != 0 && decide (s.aon.wakeAlarm ≤ s.rtcNow)

/-- Standby (R504): outputs safe, domains off, PWREN low; only AON runs. An alarm already past wakes at once (R505). -/
def State.standby (s : State) (mainLoss : Bool) : State :=
  let s := s.dropAll .standby false
  let s := { s with aon := { s.aon with mainLoss := mainLoss } }
  if s.alarmPast then s.wake 7 else s

end Sys2Proof.Machine
end

