-- ==== Sys2Proof/Machine/Store.lean ====
section
/-! DEFINITION. The persistent store and the firmware images in flash (R399, R400, R478, R488, R489). -/
namespace Sys2Proof.Machine
open Sys2Proof

/-- A little-endian field of an image header (R478). -/
def hdrField (img : List Byte) (ofs n : Nat) : Nat := leNat ((img.drop ofs).take n)

/-- StoreVersion of the image that runs (R478). -/
def State.storeVersion (s : State) : Nat := hdrField s.ident.running 20 4

/-- Highest commit sequence of the valid banks. -/
def topSeq (bs : List Bank) : Nat := bs.foldl (fun m b => if b.valid then max m b.seq else m) 0

/-- The bank a commit writes: the lowest sequence that is not protected; a bank that holds nothing first (R488). -/
def commitBank (bs : List Bank) (guarded : Option Nat) : Nat :=
  let rank (b : Bank) : Nat := if b.valid then b.seq + 1 else 0
  let idx := (upTo bs.length).filter (fun i => some i != guarded)
  idx.foldl (fun m i => if rank (bs.getD i {}) < rank (bs.getD m {}) then i else m) (idx.headD 0)

/-- The bank a start uses: the valid bank with the highest sequence (R488). -/
def bestBank (bs : List Bank) : Option Nat :=
  (upTo bs.length).foldl (fun m i =>
    let b := bs.getD i {}
    if b.valid then (match m with
      | none => some i
      | some j => if (bs.getD j {}).seq < b.seq then some i else some j) else m) none

/-- Commit the store image (R399). `ok` tells whether the flash took it; a failed commit leaves the old store valid,
counts, and raises a contained fault (R400). -/
def State.commitStore (s : State) (ok : Bool) : State :=
  if ok then
    let f := s.flash
    let i := commitBank f.banks f.guarded
    let b : Bank := { valid := true, version := s.storeVersion, seq := (topSeq f.banks + 1) % 2 ^ 32, data := s.od.image }
    { s with flash := { f with banks := setAt f.banks i b, lastTime := s.time.now }
             od := { s.od with dirty := false, commitFailed := false } }
  else
    { s with od := { s.od with storeFails := satAdd 0xFFFFFFFF s.od.storeFails 1, commitFailed := true } }.containedFw 0 0 1

/-- Standby that firmware initiates: an uncommitted write is committed first, or abandoned after 100 ms (R504). -/
def State.standbyByFirmware (s : State) (mainLoss commitOk : Bool) : State :=
  (if s.od.dirty && commitOk then s.commitStore true else s).standby mainLoss

/-- A stored value that no operator wrote: a calibration result, or an object that none can write, such as the reference coil's anchor
(R192, R400, R460). -/
def storeStays (key : Nat) : Bool :=
  key / 256 == 0x8030 || key / 256 == 0x8031 || (objRow? (key / 256) (key % 256)).any (fun r => r.acc == .ro)

/-- What RestoreDefaults leaves of a store image (R400, R489; log 72). -/
def keptStore (image : List (Nat × List Byte)) : List (Nat × List Byte) := image.filter (fun e => storeStays e.1)

/-- A write accepted into the store image (R399). -/
def State.storeWrite (s : State) (key : Nat) (v : List Byte) : State :=
  { s with od := { s.od with image := insertKey key v s.od.image, dirty := true } }

end Sys2Proof.Machine
end

