-- ==== Sys2Proof/Machine/Power.lean ====
section
/-! DEFINITION. Power, start-up, reset and the Breakwater (spec/18_power_reset_faults.md). -/
namespace Sys2Proof.Machine
open Sys2Proof

/-- Whether faults are detected: in a reset and in standby no switched domain runs. -/
def State.alive (s : State) : Bool := s.power.phase == .starting || s.power.phase == .running

/-- Fatal resets AON counts in the last 3,600 s (R503). -/
def State.fatalHour (s : State) : Nat :=
  (s.aon.fatals.filter (fun t => decide (s.rtcNow < t + 3600000000000))).length

/-- Latch straps and levels and begin the start (R496, R497); SYS is on, and 8 fatal resets in the hour set SafeHold
(R494, R503). A tamper edge recorded meanwhile shows in PWR_STAT (R508). -/
def State.beginStart (s : State) (straps : Nat) (pins : PinLevels) : State :=
  let s' := { s with
    power := { s.power with phase := .starting, straps := straps % 2 ^ 13, domains := 1, porstLow := false,
                            sysrstLow := false, brownOut := false, pwrEn := true, ilockOpen := pins.ilockN,
                            vmainOk := pins.vmainOk, ocxoRdy := pins.ocxoRdy, vmainCount := !pins.vmainOk }
    aon := { s.aon with safeHold := s.aon.safeHold || decide (8 ≤ s.fatalHour) } }
  s'.raiseIf (!s.aon.tamperOwed.isEmpty) stPwr 2

/-- PORST_N falls (R499, R500); ignored in standby and while it is low already (R505). -/
def execPorstAssert (s : State) : Host.Outcome State Fault Refusal :=
  if s.power.phase = .standby ∨ s.power.phase = .porst then .next s
  else
    let s := s.fullReset 0
    .next { s with power := { s.power with porstLow := true } }

/-- PORST_N rises (R496, R497). The cause is the one that brought PORST_N low, or the wake's (R505). -/
def execPorstRelease (straps : Nat) (pins : PinLevels) (s : State) : Host.Outcome State Fault Refusal :=
  if s.power.phase = .porst then .next (s.beginStart straps pins) else .next s

/-- SYSRST_N is low for `lowNs` ns: from 1 µs on, a full reset of cause 1 (R499); ignored in standby (R505), and
without effect while PORST_N holds the reset. -/
def execSysrst (lowNs : Nat) (s : State) : Host.Outcome State Fault Refusal :=
  if s.power.phase = .standby ∨ s.power.phase = .porst ∨ lowNs < 1000 then .next s
  else
    let s := s.fullReset 1
    .next { s with power := { s.power with sysrstLow := true } }

/-- A rail has been below its brown-out threshold for 2 µs (R493). -/
def execBrownOut (s : State) : Host.Outcome State Fault Refusal :=
  if s.power.phase = .standby ∨ s.power.phase = .porst then .next s
  else
    let s := s.fullReset 2
    .next { s with power := { s.power with brownOut := true } }

/-- The internal reset of a full reset other than PORST_N ends (R496, R500). -/
def execFullResetRelease (straps : Nat) (pins : PinLevels) (s : State) : Host.Outcome State Fault Refusal :=
  if s.power.phase = .held then .next (s.beginStart straps pins) else .next s

/-- Whether a domain may be switched on: the port's domains follow its PORTEN strap (R494). -/
def State.domainAllowed (s : State) (d : Nat) : Bool :=
  decide (d < 12) && (decide (d < 6) || s.portEn (if d % 2 = 0 then .a else .b))

/-- WAKE_N is low for `lowNs` ns: from 10 µs on it ends standby with cause 6 (R505). -/
def execWakeN (lowNs : Nat) (s : State) : Host.Outcome State Fault Refusal :=
  if s.power.phase = .standby ∧ 10000 ≤ lowNs then .next (s.wake 6) else .next s

/-- The RTC reaches WakeAlarm: it ends standby with cause 7 (R505). An alarm of 0 is none. -/
def execRtcAlarmWake (s : State) : Host.Outcome State Fault Refusal :=
  if s.power.phase = .standby ∧ s.aon.wakeAlarm ≠ 0 then
    let s := { s with aon := { s.aon with rtc := max s.rtcNow s.aon.wakeAlarm, rtcAt := s.time.now } }
    .next (s.wake 7)
  else .next s

/-- VMAIN_OK rises: a main-loss standby ends with cause 6; a running count is abandoned (R505, R506). -/
def execVmainOkRise (s : State) : Host.Outcome State Fault Refusal :=
  let s := { s with power := { s.power with vmainOk := true, vmainCount := false } }
  if s.power.phase = .standby ∧ s.aon.mainLoss then .next (s.wake 6) else .next s

/-- VMAIN_OK falls (R506). -/
def execVmainOkFall (s : State) : Host.Outcome State Fault Refusal :=
  let fell := s.power.vmainOk
  let s := { s with power := { s.power with vmainOk := false } }
  if s.alive ∧ fell then
    let s := (s.raise stPwr [1]).contained 0x49 0 3
    .next { s with power := { s.power with vmainCount := true } }
  else .next s

/-- VMAIN_OK has been low for MainLossDelay (R506). `commitOk` tells whether the store took the commit (R504). -/
def execMainLossDelay (commitOk : Bool) (s : State) : Host.Outcome State Fault Refusal :=
  if s.power.phase = .running ∧ s.power.vmainCount ∧ ¬ s.power.vmainOk ∧ s.nat 0x1300 9 = 1 then
    .next (s.standbyByFirmware true commitOk)
  else .next s

/-- T_WARN and T_SHUT (R524) in 1/16 °C. -/
def tWarn : Int := 115 * 16
def tShut : Int := 125 * 16

/-- A sensor at or above T_WARN raises its contained fault, once until ThermalState is 0 again (R507; log 15). -/
def State.warnOf (s : State) (i : Nat) (hot : Bool) : State :=
  if hot && !bitOf s.power.warned i then
    { s with power := { s.power with warned := s.power.warned ||| 2 ^ i } }.contained 0x49 i 1
  else s

/-- The 1 ms comparison of both die sensors, in 1/16 °C (R507). -/
def execThermalPoll (centre edge : Int) (s : State) : Host.Outcome State Fault Refusal :=
  if s.power.phase = .running ∨ s.power.phase = .starting then
    let w := s.power
    let shutC := if tShut ≤ centre then w.shutC + 1 else 0
    let shutE := if tShut ≤ edge then w.shutE + 1 else 0
    let s := { s with power := { w with tCentre := centre, tEdge := edge, shutC := shutC, shutE := shutE } }
    let hot := decide (tWarn ≤ centre ∨ tWarn ≤ edge)
    let cool := decide (centre ≤ tWarn - 80 ∧ edge ≤ tWarn - 80)
    let s := if hot && !w.thermWarn then { s with power := { s.power with thermWarn := true } }.raise stPwr [0] else s
    let s := s.warnOf 0 (decide (tWarn ≤ centre))
    let s := s.warnOf 1 (decide (tWarn ≤ edge))
    let s := if cool then { s with power := { s.power with thermWarn := false, warned := 0 } } else s
    if 2 ≤ shutC ∨ 2 ≤ shutE then
      let s := { s with aon := { s.aon with wakeAlarm := (s.rtcNow + s.nat 0x1300 0xE * 1000000000) % 2 ^ 64,
                                            shutOwed := some (if 2 ≤ shutC then 0 else 1) } }
      .next (s.standby false)
    else .next s
  else .next s

/-- A falling edge on TAMPER0_N or TAMPER1_N (R508). The log keeps the newest 8 entries (log 16). -/
def execTamperEdge (input : Nat) (commitOk : Bool) (s : State) : Host.Outcome State Fault Refusal :=
  let i := input % 2
  let a := s.aon
  let log := a.tamperLog ++ [(i, s.rtcNow)]
  let s := { s with aon := { a with tamperLog := log.drop (log.length - 8), tamperCount := satAdd 0xFFFFFFFF a.tamperCount 1 } }
  if s.power.phase = .running then
    let s := (s.raise stPwr [2]).contained 0x49 i 4
    if s.nat 0x1300 0xF = 1 then .next (s.standbyByFirmware false commitOk) else .next s
  else
    let s := { s with aon := { s.aon with tamperOwed := s.aon.tamperOwed ++ [i] } }
    .next (if s.power.phase = .starting then s.raise stPwr [2] else s)

/-- VBAT falls below 1.8 V while the main rails are absent: AON loses its state (R509). While the block runs the rails are
there. -/
def execVbatLoss (s : State) : Host.Outcome State Fault Refusal :=
  if s.alive then .next s else
  let s := s.dropAll .porst false
  .next { s with aon := {}, power := { s.power with porstLow := true } }

/-- A fatal fault (R510): cause 4 for a watchdog, otherwise 3. -/
def execFatalFault (unit inst num : Nat) (s : State) : Host.Outcome State Fault Refusal :=
  if s.alive then .next (s.fatal unit inst num (if unit = 0x48 then 4 else 3)) else .next s

/-- A contained fault (R510, R512). -/
def execContainedFault (unit inst num : Nat) (s : State) : Host.Outcome State Fault Refusal :=
  if s.alive then .next (s.contained unit inst num) else .next s

/-- A control processor's watchdog expires once (R513). -/
def execWatchdogFirstExpiry (cp : Nat) (s : State) : Host.Outcome State Fault Refusal :=
  if s.alive ∧ cp < 4 ∧ bitOf (s.reg 0x48 0) (4 + cp) then
    let s := { s with power := { s.power with wdogStage := s.power.wdogStage ||| 2 ^ cp } }
    .next (((s.raise stBwf [2]).contained 0x48 cp 1).emit (.mgmtInterrupt cp))
  else .next s

/-- A second expiry without a kick is fatal (R513). -/
def execWatchdogSecondExpiry (cp : Nat) (s : State) : Host.Outcome State Fault Refusal :=
  if s.alive ∧ cp < 4 ∧ bitOf s.power.wdogStage cp then .next (s.fatal 0x48 cp 2 4) else .next s

/-- The management watchdog expires: it runs from every release of reset (R513). -/
def execMgmtWatchdogExpiry (s : State) : Host.Outcome State Fault Refusal :=
  if s.alive then .next (s.fatal 0x48 0 3 4) else .next s

/-- A fabric transaction has had no response for 100 µs (R514, R411). -/
def execFabricTransactionTimeout (init addr : Nat) (write : Bool) (s : State) : Host.Outcome State Fault Refusal :=
  if s.alive then
    let s := s.busError (init % 32) (addr % 2 ^ 40) write
    let s := if write then s.tellWrite (init % 32) else s.emit (.readData (init % 32) 0 true)
    .next (s.contained 0x48 (init % 16) (if init % 32 < 16 then 4 else 5))
  else .next s

end Sys2Proof.Machine
end

