-- ==== Sys2Proof/Machine/Chain.lean ====
section
/-! DEFINITION. The Ibend link, the relay, ring protection, membership, the manager and fault reports
(R334–R347, R354–R356, R512). -/
namespace Sys2Proof.Machine
open Sys2Proof

/-! ## Snapshots of the epoch-applied objects (R40, R349, R352) -/

/-- An object that the operator writes and that applies at epoch commit (R380). -/
def epochKey (k : Nat) : Bool :=
  match objRow? (k / 256) (k % 256) with
  | some r => r.ap == .epoch && r.acc != .ro
  | none => false

/-- The epoch-applied values in force that differ in origin from the defaults. -/
def State.activeSnap (s : State) : List (Nat × List Byte) := s.od.act.filter (fun e => epochKey e.1)

/-- The pending values: those in force, overlaid with what has been written (R40). -/
def State.pendSnap (s : State) : List (Nat × List Byte) :=
  (s.od.pend.filter (fun e => epochKey e.1)).foldl (fun l e => insertKey e.1 e.2 l) s.activeSnap

/-- A snapshot as a frame's fields carry it: key, length, bytes (log 13). -/
def snapFields (l : List (Nat × List Byte)) : List Nat :=
  l.flatMap (fun e => [e.1, e.2.length] ++ e.2.map (fun b => b.toNat))

/-- The snapshot that fields spell, at most `fuel` objects. -/
def fieldsSnap : Nat → List Nat → List (Nat × List Byte)
  | fuel + 1, k :: n :: rest =>
    insertKey k ((rest.take n).map (fun x => BitVec.ofNat 8 x)) (fieldsSnap fuel (rest.drop n))
  | _, _ => []

/-! ## Links -/

/-- A trunk's link. -/
def State.link (s : State) : Side → Link
  | .w => s.chain.w
  | .e => s.chain.e

/-- Change the chain's part. -/
def State.modChain (s : State) (f : Chain → Chain) : State := { s with chain := f s.chain }

/-- Change a trunk's link. -/
def State.modLink (s : State) (d : Side) (f : Link → Link) : State :=
  s.modChain (fun c => match d with
    | .w => { c with w := f c.w }
    | .e => { c with e := f c.e })

/-- A trunk is up as R342 says: also one that R344 holds unused. -/
def Link.isUp (l : Link) : Bool := l.up || l.held

/-- The opposite trunk. -/
def otherSide : Side → Side
  | .w => .e
  | .e => .w

/-- A trunk as a port. -/
def sidePort : Side → LinkPort
  | .w => .w
  | .e => .e

/-- The link agent runs (R375). -/
def State.chnOn (s : State) : Bool := s.up && bitOf (s.reg 0x39 0) 0

/-- The chain is a ring, as this node knows it (R336, R346). -/
def State.inRing (s : State) : Bool := if s.chain.iAct then s.nat 0x7000 2 == 1 else s.chain.ring

/-- Nodes present, this one included (R373). -/
def State.nodeCount (s : State) : Nat :=
  if s.role = 0 then 1 else if s.chain.iAct then s.chain.nodes.length + 1 else s.chain.count

/-! ## Egress (R338, R340, R343) -/

/-- A port's number. -/
def linkNum : LinkPort → Nat
  | .w => 0
  | .e => 1
  | .lan => 2

/-- A frame's payload (R337): where its contents have no stated layout, that layout is free (log 13). -/
def frameBody (f : Frame) : List Byte := f.payload ++ (if f.fields.isEmpty then [] else Config.fieldLayout f.type f.fields)

/-- A frame's addresses: the neighbours' destination and the sending port's own (R337). -/
def frameAddrs (q : LinkPort) : List Byte := beBytes 6 0x0300000088B5 ++ beBytes 6 (Config.portAddress (linkNum q)).toNat

/-- A frame's EtherType and its 16-byte header, big-endian (R11, R337). -/
def frameHead (etherType : Nat) (f : Frame) : List Byte :=
  beBytes 2 etherType ++ beBytes 1 (16 + f.cls % 16) ++ beBytes 1 f.type
    ++ beBytes 2 (bit f.linkLocal * 2 ^ 15 + bit f.wrapped * 2 ^ 14 + f.dst % 1024) ++ beBytes 2 (f.src % 1024)
    ++ beBytes 2 (f.hops % 1024) ++ beBytes 2 f.epoch ++ beBytes 4 f.seq ++ beBytes 2 (frameBody f).length

/-- A key exchange's frame (R475). -/
def isKeyFrame (f : Frame) : Bool := decide (0x60 ≤ f.type) && decide (f.type ≤ 0x63)

/-- A link protects a frame: its keys are installed, and only a first exchange goes in the clear (R341, R475, R477). -/
def Link.protects (l : Link) (f : Frame) : Bool := l.secured && !l.keys.isEmpty && (!isKeyFrame f || l.rekey)

/-- The older association still serves for sending: the peer has not confirmed the new one (R477). -/
def Link.sendsOld (l : Link) : Bool := l.rekey && l.fresh

/-- The bytes of a frame as a trunk's association protects them (R341); none where it goes in the clear. -/
def State.sealedFrame (s : State) (d : Side) (f : Frame) : List Byte :=
  let l := s.link d
  let plain := frameHead (s.reg 0x39 4 % 65536) f ++ frameBody f
  if ¬ l.protects f then []
  else if l.sendsOld then macsec (dirKeys (d == .e) l.oldKeys) (l.an + 3) l.oldPn (frameAddrs (sidePort d)) plain
  else macsec (dirKeys (d == .e) l.keys) l.an l.pn (frameAddrs (sidePort d)) plain

/-- A frame at a port. -/
def State.frameOut (s : State) (q : LinkPort) (f : Frame) : Output :=
  .frame q (frameAddrs q ++ frameHead (s.reg 0x39 4 % 65536) f) f (match q with
    | .w => s.sealedFrame .w f
    | .e => s.sealedFrame .e f
    | .lan => [])

/-- A protected frame takes a packet number (R341). -/
def State.usePn (s : State) (q : LinkPort) (f : Frame) : State :=
  let one (d : Side) : State := s.modLink d (fun l =>
    if ¬ l.protects f then l else if l.sendsOld then { l with oldPn := l.oldPn + 1 } else { l with pn := l.pn + 1 })
  match q with
  | .w => one .w
  | .e => one .e
  | .lan => s

/-- A frame leaves by a port. -/
def State.emitFrame (s : State) (q : LinkPort) (f : Frame) : State := (s.usePn q f).emit (s.frameOut q f)

/-- An egress port. -/
def State.egr (s : State) : LinkPort → Egress
  | .w => s.chain.outW
  | .e => s.chain.outE
  | .lan => s.chain.outL

/-- Change an egress port. -/
def State.modEgr (s : State) (q : LinkPort) (f : Egress → Egress) : State :=
  s.modChain (fun c => match q with
    | .w => { c with outW := f c.outW }
    | .e => { c with outE := f c.outE }
    | .lan => { c with outL := f c.outL })

/-- Bits of a frame that the token bucket counts: the 16-byte header and the payload (log 17). -/
def frameBits (f : Frame) : Nat := 8 * (16 + f.payload.length)

/-- Whether a frame passes an egress port's policing of class 4 (R338). -/
def State.police (s : State) (q : LinkPort) (f : Frame) : Bool × State :=
  if f.cls = 4 then
    let l := s.egr q
    let spent := l.spent - s.nat 0x1100 6 * (s.time.now - l.spentAt)
    let cost := 1000 * frameBits f
    let room := s.nat 0x1100 7 * 1024 * 8 * 1000
    if room < spent + cost then
      (false, (s.modChain (fun c => { c with policed := satAdd 0xFFFFFFFF c.policed 1 })).raise stChn [5])
    else (true, s.modEgr q (fun l => { l with spent := spent + cost, spentAt := s.time.now }))
  else (true, s)

/-- Send at an egress port. -/
def State.egress (s : State) (q : LinkPort) (f : Frame) : State :=
  let (pass, s) := s.police q f
  if pass then s.emitFrame q f else s

/-- The trunk by which a frame toward a trunk leaves, and the frame: off a wrapped port it leaves on the other, with the wrapped flag
(R343). -/
def State.outSide (s : State) (d : Side) (f : Frame) : Option (Side × Frame) :=
  if (s.link d).wrapped then
    if (s.link (otherSide d)).up && !(s.link (otherSide d)).wrapped then some (otherSide d, { f with wrapped := true }) else none
  else if (s.link d).up then some (d, f) else none

/-- Send toward a trunk. -/
def State.sendSide (s : State) (d : Side) (f : Frame) : State :=
  match s.outSide d f with
  | some (o, g) => s.egress (sidePort o) g
  | none => s

/-- Send on a port; the local port carries Ibend frames where LocalIbend is 1, and never class 3 (R336). -/
def State.sendPort (s : State) (q : LinkPort) (f : Frame) : State :=
  match q with
  | .w => s.sendSide .w f
  | .e => s.sendSide .e f
  | .lan => if s.chain.localUp && s.nat 0x1100 8 == 1 && f.cls != 3 then s.egress .lan f else s

/-- Whether this node originates frames of the chain (R334, R335, R375). -/
def State.originates (s : State) : Bool := s.chnOn && s.role != 0 && s.node != 0

/-- Hops a frame starts with (R339): on a chain the acting manager's HopLimit, which its heartbeat brings (R373). -/
def State.startHops (s : State) : Nat :=
  if s.inRing then min 1023 (2 * s.nodeCount) else if s.chain.iAct then s.nat 0x7000 0x13 else s.chain.hopLimit

/-- The port toward a node: the one its last frame came by, turned round where a break lies between (R343); both trunks
and the local port while none has come (log 18). -/
def State.routes (s : State) (dst : Nat) : List LinkPort :=
  match (s.chain.dirs.find? (fun e => e.1 == dst)).map (·.2) with
  | none => [.w, .e, .lan]
  | some q =>
    if s.chain.breaks.any (fun b => b.2.contains dst) then
      (match q with
       | .w => [.e]
       | .e => [.w]
       | .lan => [.lan])
    else [q]

/-- A frame of this node: header as R337 says, Sequence counted per class. -/
def State.originate (s : State) (cls type dst : Nat) (fields : List Nat) (payload : List Byte) : State :=
  if s.originates then
    let seq := s.chain.seqs.getD cls 0
    let f : Frame := { cls := cls, type := type, linkLocal := false, wrapped := false, dst := dst, src := s.node,
                       hops := s.startHops, epoch := s.tide.epoch, seq := seq, payload := payload, fields := fields }
    let s := s.modChain (fun c => { c with seqs := setAt c.seqs cls ((seq + 1) % 2 ^ 32) })
    (if dst = 0 then [.w, .e, .lan] else s.routes dst).foldl (fun s q => s.sendPort q f) s
  else s

/-- A link-local frame to one neighbour. -/
def State.toNeighbour (s : State) (d : Side) (cls type : Nat) (fields : List Nat) (payload : List Byte) : State :=
  let seq := s.chain.seqs.getD cls 0
  let f : Frame := { cls := cls, type := type, linkLocal := true, wrapped := false, dst := 0, src := s.node, hops := 0,
                     epoch := s.tide.epoch, seq := seq, payload := payload, fields := fields }
  let s := s.modChain (fun c => { c with seqs := setAt c.seqs cls ((seq + 1) % 2 ^ 32) })
  s.emitFrame (sidePort d) f

/-! ## Ingress (R339) -/

/-- Pass a frame through the duplicate filter: none where it is discarded. -/
def seenPass (l : List Seen) (f : Frame) : Option (List Seen) :=
  match l.find? (fun e => e.source == f.src && e.cls == f.cls) with
  | none => some (⟨f.src, f.cls, f.seq, [f.seq]⟩ :: l)
  | some e =>
    let behind := (e.high + 2 ^ 32 - f.seq % 2 ^ 32) % 2 ^ 32
    let rest := l.filter (fun e => !(e.source == f.src && e.cls == f.cls))
    if behind < 2 ^ 31 then
      if 4096 ≤ behind ∨ e.nums.contains f.seq then none
      else some ({ e with nums := f.seq :: e.nums } :: rest)
    else
      let inside := e.nums.filter (fun n => decide ((f.seq + 2 ^ 32 - n) % 2 ^ 32 < 4096))
      some (⟨f.src, f.cls, f.seq, f.seq :: inside⟩ :: rest)

/-- Whether a frame is for this node: addressed to it, a broadcast, or link-local (R339). -/
def State.takes (s : State) (f : Frame) : Bool := f.linkLocal || f.dst == 0 || f.dst == s.node

/-- The ports a frame goes on to: a broadcast and any frame for another node, unless link-local or out of hops (R339);
from the local port to both trunks, from a trunk to the other trunk and the local port (R336). -/
def State.onward (s : State) (inp : LinkPort) (f : Frame) : List LinkPort :=
  if f.linkLocal ∨ f.hops = 0 ∨ (f.dst = s.node ∧ f.dst ≠ 0) then [] else
    match inp with
    | .w => [.e, .lan]
    | .e => [.w, .lan]
    | .lan => [.w, .e]

/-- The first steps of R339: none where the frame is discarded, otherwise the state with the filter and the direction of
its source noted. A direction turned round by a break stays so until the link returns (R343, R344). -/
def State.ingress (s : State) (inp : LinkPort) (f : Frame) : Bool × State :=
  if f.src = s.node then (false, s) else
    match seenPass s.chain.seen f with
    | none => (false, s.modChain (fun c => { c with dupDrops := satAdd 0xFFFFFFFF c.dupDrops 1 }))
    | some l =>
      (true, s.modChain (fun c => { c with
        seen := l, dirs := if f.wrapped || c.breaks.any (fun b => b.2.contains f.src) then c.dirs
          else (f.src, inp) :: c.dirs.filter (fun e => e.1 != f.src) }))

/-- A trunk that has begun to send a frame by cut-through ends it with an inverted FCS (R340). -/
def State.stompSide (s : State) (d : Side) (f : Frame) : State :=
  match s.outSide d f with
  | none => s
  | some (o, g) =>
    let (pass, s) := s.police (sidePort o) g
    if pass then
      ((((s.usePn (sidePort o) g).modChain (fun c => { c with stomped := satAdd 0xFFFFFFFF c.stomped 1 })).emit
        (.stomped (sidePort o))).raise stChn [4])
    else s

/-- A frame fails at its end (R340). What the relay forwards by cut-through, between the trunks, is stomped; the local port stores
and forwards (R336). The frame itself is discarded: it leaves no trace in the filter (DESIGN CHOICE, log 182). -/
def State.failedFrame (s : State) (inp : LinkPort) (f : Frame) : State :=
  if f.src = s.node ∨ (seenPass s.chain.seen f).isNone then s else
    let g := { f with hops := f.hops - 1 }
    match inp with
    | .w => if (s.onward .w f).contains .e then s.stompSide .e g else s
    | .e => if (s.onward .e f).contains .w then s.stompSide .w g else s
    | .lan => s

/-- Forward a frame (R339, R340). -/
def State.forward (s : State) (inp : LinkPort) (f : Frame) : State :=
  (s.onward inp f).foldl (fun s q => s.sendPort q { f with hops := f.hops - 1 }) s

/-- The nodes that the manager counts as present, and with them ChainLatency (R345, R348). -/
def Chain.withNodes (c : Chain) (l : List NodeRow) : Chain :=
  { c with nodes := l, latency := ceilDiv (l.foldl (fun m r => max m r.latency) 0) 1000 }

/-- Whether a port can bring a frame: the trunk is up (R341), or the local port carries Ibend frames (R336). A secured trunk's frame
comes decrypted: `f` is what its association's ICV has passed. -/
def State.carries (s : State) : LinkPort → Bool
  | .w => s.chain.w.up
  | .e => s.chain.e.up
  | .lan => s.chain.localUp && s.nat 0x1100 8 == 1

/-- A status answer reaches the manager: its latency is measured and the node counts as present (R345, R348). The
answer's fields are the node's epoch, the time it left, and its snapshot, from which a manager that has none builds its
chain image (R346, log 19). -/
def State.statusAnswer (s : State) (f : Frame) : State :=
  let lat := s.time.now - f.fields.getD 1 0
  let row : NodeRow := ⟨f.src, 0, f.fields.getD 0 0, lat⟩
  let nodes := row :: s.chain.nodes.filter (fun r => r.node != f.src)
  -- an epoch after a meeting of two managers resynchronises every node (R347)
  let due := f.fields.getD 0 0 != s.tide.epoch || s.chain.ahead.isSome
  let known := s.chain.images.any (fun e => e.1 == f.src)
  s.modChain (fun c => { c.withNodes nodes with
    images := if known then c.images else insertKey f.src (fieldsSnap f.fields.length (f.fields.drop 2)) c.images
    resync := if due && !c.resync.contains f.src then c.resync ++ [f.src] else c.resync })

/-! ## Fault reports (R354–R356) -/

/-- The manager stores a report (R356). -/
def State.storeReport (s : State) (key node : Nat) : State :=
  let c := s.chain
  if c.table.any (fun r => r.key == key) then
    s.modChain (fun c => { c with table := c.table.map (fun r =>
      if r.key = key then { r with reports := satAdd 0xFFFFFFFF r.reports 1, last := s.tide.num } else r) })
  else if 4096 ≤ c.table.length then
    s.modChain (fun c => { c with overflow := satAdd 0xFFFFFFFF c.overflow 1 })
  else
    s.modChain (fun c => { c with table := c.table ++ [⟨key, 1, s.tide.num, s.tide.num, node⟩] })

/-- Send a fault report to the acting manager, or store it where this node is the manager (R354, R512). -/
def State.report (s : State) (key : Nat) : State :=
  if s.chain.iAct ∨ s.role = 0 then s.storeReport key s.node
  else if s.chain.acting ≠ 0 then s.originate 1 0x20 s.chain.acting [key] [] else s

/-- A fault report arrives (R355, R356): taken by the manager, otherwise forwarded once per key and Tide by each egress,
whose table holds 512 keys. -/
def execFaultReport (inp : LinkPort) (f : Frame) (s : State) : Host.Outcome State Fault Refusal :=
  let key := f.fields.getD 0 0
  if s.up && s.carries inp then
    let (pass, s) := s.ingress inp f
    if pass then
      let s := if s.chnOn && s.takes f && s.chain.iAct then s.storeReport key f.src else s
      .next ((s.onward inp f).foldl (fun s q =>
        if (s.egr q).faultKeys.contains key then s
        else (s.modEgr q (fun l => if l.faultKeys.length < 512 then { l with faultKeys := key :: l.faultKeys } else l)).sendPort q
          { f with hops := f.hops - 1 }) s)
    else .next s
  else .next s

/-- Remove one entry of the fault table, or all (R356). -/
def State.faultClear (s : State) (key : Nat) : State :=
  s.modChain (fun c => { c with table := if key = 0xFFFFFFFF then [] else c.table.filter (fun r => r.key != key) })

/-- The fault table in 24-byte entries, in order of first Tide (R356). -/
def State.faultTable (s : State) : List Byte :=
  s.chain.table.flatMap (fun r => leBytes 4 r.key ++ leBytes 4 r.reports ++ leBytes 6 r.first ++ leBytes 6 r.last
    ++ leBytes 2 r.node ++ zeros 2)

/-- Drain one entry of the hardware log into FaultLog (R512): a key's first occurrence in the Tide makes an entry and is
reported, further ones only count. -/
def State.drainOne (s : State) (e : Nat × Nat) : State :=
  let b := s.bwf
  if b.sent.contains e.1 then
    let bump := fun (acc : Bool × List FaultEntry) (x : FaultEntry) =>
      if !acc.1 && x.key == e.1 then (true, { x with count := satAdd 0xFFFFFFFF x.count 1 } :: acc.2) else (acc.1, x :: acc.2)
    let r := (b.faultLog.reverse.foldl bump (false, [])).2
    { s with bwf := { b with faultLog := r } }
  else
    let l := b.faultLog ++ [⟨e.1, e.2, 1⟩]
    { s with bwf := { b with faultLog := l.drop (l.length - 256), sent := e.1 :: b.sent } }.report e.1

/-- Firmware empties the hardware log (R512). -/
def execFaultLogDrain (s : State) : Host.Outcome State Fault Refusal :=
  if s.up then
    let log := s.bwf.log
    .next (log.foldl State.drainOne { s with bwf := { s.bwf with log := [] } })
  else .next s

/-! ## Keepalives, link loss and ring protection (R342–R344) -/

/-- Both trunks send a keepalive where their link is secured (R341, R342). -/
def execKeepaliveSend (s : State) : Host.Outcome State Fault Refusal :=
  if s.chnOn then
    let one := fun (s : State) (d : Side) =>
      if (s.link d).pcs && (s.link d).secured then s.toNeighbour d 1 0x70 [] [] else s
    .next (one (one s .w) .e)
  else .next s

/-- The fault key of a trunk's link: the node at its west end and that node's TRUNK_E (R354); for TRUNK_W while the
neighbour is not known, this node and W (log 20). -/
def State.linkKey (s : State) (d : Side) (num : Nat) : Nat :=
  match d with
  | .e => faultKey s.node 0x39 1 1 num
  | .w => if (s.link .w).peer = 0 then faultKey s.node 0x39 1 0 num else faultKey (s.link .w).peer 0x39 1 1 num

/-- A trunk link is lost (R342, R343). -/
def execLinkLoss (d : Side) (pcs : Bool) (s : State) : Host.Outcome State Fault Refusal :=
  let l := s.link d
  if s.up && (l.up || l.held) then
    let s := s.modLink d (fun l => { l with up := false, held := false, restore := false, pcs := pcs, secured := false,
                                            xStep := 0, rekey := false, keys := [], oldKeys := [], fresh := false
                                            an := 0, pn := 1, oldPn := 1 })
    let s := (s.raise stChn [0]).containedKey (s.linkKey d 1)
    if s.inRing && s.originates then
      let s := if l.wrapped then s else (s.modLink d (fun l => { l with wrapped := true })).raise stChn [1]
      .next (s.originate 1 3 0 [s.linkKey d 1, 1] [])
    else .next s
  else .next (s.modLink d (fun l => { l with pcs := pcs && l.pcs }))

/-- The PCS is locked, MACsec secured and keepalives have come for 1 s (R342): the link is up; in a ring a lost link is
held unused first (R344). -/
def execLinkUp (d : Side) (peer : Nat) (s : State) : Host.Outcome State Fault Refusal :=
  if s.up && (s.link d).secured && !(s.link d).up && !(s.link d).held then
    .next (s.modLink d (fun l => { l with up := !l.wrapped, held := l.wrapped, pcs := true, peer := peer }))
  else .next s

/-- RingRestoreHold has expired: both ends stop wrapping at the next Tide edge (R344). -/
def execRingRestore (d : Side) (s : State) : Host.Outcome State Fault Refusal :=
  if s.up && (s.link d).held then .next (s.modLink d (fun l => { l with restore := true })) else .next s

/-- A topology frame (R343, R344): a lost link turns the direction of the nodes beyond it round; a restored one reverts at
the next Tide edge. -/
def execTopologyFrame (inp : LinkPort) (f : Frame) (beyond : List Nat) (s : State) :
    Host.Outcome State Fault Refusal :=
  if s.up && s.carries inp then
    let (pass, s) := s.ingress inp f
    if pass then
      let s := s.forward inp f
      let key := f.fields.getD 0 0
      if s.chnOn then
        .next (s.modChain (fun c =>
          if f.fields.getD 1 0 = 1 then
            -- the first word of a break turns round the directions then known; one learned later already avoids it
            let turned := beyond.filter (fun n => c.dirs.any (fun e => e.1 == n) && !c.breaks.any (fun b => b.2.contains n))
            { c with breaks := if c.breaks.any (fun b => b.1 == key) then c.breaks else (key, turned) :: c.breaks
                     reverts := c.reverts.filter (· != key) }
          else { c with reverts := key :: c.reverts }))
      else .next s
    else .next s
  else .next s

/-- The local port's link comes up or goes down (R373). -/
def execLocalPortLinkChange (isUp : Bool) (s : State) : Host.Outcome State Fault Refusal :=
  if s.alive then .next (s.modChain (fun c => { c with localUp := isUp })) else .next s

/-- A Tide edge at the links: wrapping that was to end ends, with a topology frame (R344); reverted directions return;
the relays' tables of fault keys clear (R355). -/
def State.chainEdge (s : State) : State :=
  let one := fun (s : State) (d : Side) =>
    let l := s.link d
    let s := s.modEgr (sidePort d) (fun l => { l with faultKeys := [] })
    if l.restore then
      let s := s.modLink d (fun l => { l with wrapped := false, held := false, restore := false, up := true })
      (s.originate 1 3 0 [s.linkKey d 1, 0] []).raise stChn [2]
    else s
  let s := (one (one s .w) .e).modEgr .lan (fun l => { l with faultKeys := [] })
  s.modChain (fun c => { c with breaks := c.breaks.filter (fun b => !c.reverts.contains b.1), reverts := [] })

/-! ## Membership and the manager (R336, R345–R347) -/

/-- Take the manager's role. -/
def State.becomeManager (s : State) : State :=
  (s.modChain (fun c => { c.withNodes [] with
    iAct := true, acting := s.node, listening := false, state := 2, quiet := 0, images := [] })).raise stChn [7]

/-- Leave the manager's role to another node. -/
def State.leaveManager (s : State) (other : Nat) : State :=
  (s.modChain (fun c => { c with iAct := false, acting := other, listening := false, quiet := 0 })).raise stChn [7]

/-- The acting manager's heartbeat (R346): its address, active epoch, node count, ring state, whether it asks for status,
whether it is a strapped manager, and its HopLimit. Every 16th asks; a node that has answered neither that request nor the one before
is not present until it answers (R345). -/
def State.heartbeat (s : State) : State :=
  if s.chain.iAct && s.originates then
    let ask := s.chain.beats % 16 == 15
    let s := if ask then s.modChain (fun c => c.withNodes
        ((c.nodes.map (fun r => { r with missed := r.missed + 1 })).filter (fun r => decide (r.missed ≤ 1)))) else s
    let s := s.modChain (fun c => { c with
      beats := c.beats + 1, meet := if c.meet = 1 then 0 else if c.meet = 2 ∧ ask then 1 else c.meet })
    s.originate 1 1 0 [s.node, s.tide.epoch, s.nodeCount, bit s.inRing, bit ask, bit (s.role == 2), s.nat 0x7000 0x13] []
  else s

/-- The chain's count of Tides without a heartbeat. -/
def State.quietEdge (s : State) : State :=
  if s.role ≠ 0 ∧ ¬ s.chain.iAct then s.modChain (fun c => { c with quiet := c.quiet + 1 }) else s

/-- A standby manager has heard no heartbeat for ManagerTimeout Tides (R346): it keeps the active epoch, becomes
grandmaster (R317), and starts its heartbeats. -/
def execManagerTimeout (s : State) : Host.Outcome State Fault Refusal :=
  if s.originates && s.role == 3 && !s.chain.iAct && decide (s.nat 0x7000 0xB ≤ s.chain.quiet) then
    .next s.becomeManager.heartbeat
  else .next s

/-- A strapped manager has listened for 2 × ManagerTimeout Tides without hearing an acting standby (R347). -/
def execManagerListenEnd (s : State) : Host.Outcome State Fault Refusal :=
  if s.originates && s.role == 2 && s.chain.listening && !s.chain.iAct then .next s.becomeManager else .next s

/-- Note an acting manager heard (R346): its ring state, node count and HopLimit; a node that has not joined sends its join frame
(R336), and one asked for status answers with its epoch and the time (log 19). -/
def State.followManager (s : State) (f : Frame) : State :=
  let src := f.fields.getD 0 f.src
  let s := if s.chain.acting ≠ src then s.raise stChn [7] else s
  let s := s.modChain (fun c => { c with acting := src, quiet := 0, listening := false,
                                         count := f.fields.getD 2 0, ring := f.fields.getD 3 0 == 1
                                         hopLimit := f.fields.getD 6 1023 })
  let s := if s.chain.state = 0 then
      (s.modChain (fun c => { c with state := 1 })).originate 0 2 src
        ([s.node, if s.chain.demoted then 1 else s.role] ++ s.otp.certHash.map (fun b => b.toNat)) []
    else s
  if f.fields.getD 4 0 = 1 ∧ s.chain.state = 2 then s.originate 1 1 src ([s.tide.epoch, s.time.now] ++ snapFields s.activeSnap) [] else s

/-- A heartbeat arrives (R346, R347, R336). Two strapped managers: the lower address keeps the role, the other runs as a worker. A
strapped manager that meets an acting standby keeps it and resynchronises every node, those of the other part once they have
answered a status request (log 181); the standby gives way. -/
def State.hearHeartbeat (s : State) (f : Frame) : State :=
  let src := f.fields.getD 0 f.src
  let strapped := f.fields.getD 5 0 == 1
  if s.chain.iAct then
    if s.role = 2 ∧ strapped then
      if src < s.node then
        ((s.leaveManager src).modChain (fun c => { c with demoted := true })).contained 0x39 0 3
      else s
    else if s.role = 2 then
      -- an epoch one above the later of the two resynchronises every node
      let ahead := (f.fields.getD 1 0 + 0x10000 - s.tide.epoch) % 0x10000
      let later := if ahead < 0x8000 then f.fields.getD 1 0 % 0x10000 else s.tide.epoch
      s.modChain (fun c => { c with
        ahead := some later, meet := if c.ahead.isSome then c.meet else 2
        resync := c.resync ++ ((src :: c.nodes.map (fun r => r.node)).filter (fun n => !c.resync.contains n)) })
    else if strapped ∨ src < s.node then (s.leaveManager src).followManager f
    else s
  else s.followManager f

/-- HEARTBEAT_RECEIVE. -/
def execHeartbeatReceive (inp : LinkPort) (f : Frame) (s : State) : Host.Outcome State Fault Refusal :=
  if s.up && s.carries inp then
    let (pass, s) := s.ingress inp f
    if pass then
      let s := s.forward inp f
      .next (if s.originates then s.hearHeartbeat f else s)
    else .next s
  else .next s

/-- A join frame (R336): node, role and certificate hash to the manager, or (`answer`) the manager's admission or
refusal back, which is for the node that still joins: a member of the same address disregards it. The manager puts an admitted node on
the list of those to resynchronise (R352). -/
def execJoinFrame (inp : LinkPort) (f : Frame) (answer : Option Bool) (s : State) : Host.Outcome State Fault Refusal :=
  if s.up && s.carries inp then
    let (pass, s) := s.ingress inp f
    if pass then
      let s := s.forward inp f
      if s.originates && s.takes f then
        match answer with
        | none =>
          if s.chain.iAct then
            let node := f.fields.getD 0 0
            if node = s.node ∨ s.chain.nodes.any (fun r => r.node == node) then .next (s.originate 0 2 f.src [0] [])
            else
              .next ((s.modChain (fun c => { c.withNodes (⟨node, 0, 0x10000, 0⟩ :: c.nodes) with
                resync := if c.resync.contains node then c.resync else c.resync ++ [node]
                giveBack := if s.role = 3 ∧ f.fields.getD 1 0 = 2 then node else c.giveBack })).originate 0 2 f.src [1] [])
          else .next s
        | some true => .next (if s.chain.state = 1 then s.modChain (fun c => { c with state := 2 }) else s)
        | some false => .next (if s.chain.state = 1 then (s.modChain (fun c => { c with state := 3 })).contained 0x39 0 2 else s)
      else .next s
    else .next s
  else .next s

end Sys2Proof.Machine
end

