-- ==== Sys2Proof/Machine/Cplx.lean ====
section
/-! DEFINITION. Complex numbers of the signal path (number format: log 8). -/
namespace Sys2Proof.Machine
open Sys2Proof

def Cx.one : Cx := { re := Num.ofInt 1 }
def Cx.ofInts (z : Int × Int) : Cx := { re := Num.ofInt z.1, im := Num.ofInt z.2 }
def Cx.add (a b : Cx) : Cx := { re := a.re.add b.re, im := a.im.add b.im }
def Cx.sub (a b : Cx) : Cx := { re := a.re.sub b.re, im := a.im.sub b.im }
def Cx.conj (a : Cx) : Cx := { a with im := a.im.neg }
def Cx.mul (a b : Cx) : Cx :=
  { re := (a.re.mul b.re).sub (a.im.mul b.im), im := (a.re.mul b.im).add (a.im.mul b.re) }
/-- Product with a real number. -/
def Cx.smul (a : Cx) (x : Num) : Cx := { re := a.re.mul x, im := a.im.mul x }
/-- Squared magnitude. -/
def Cx.pow (a : Cx) : Num := (a.re.mul a.re).add (a.im.mul a.im)
def Cx.abs (a : Cx) : Num := a.pow.sqrt
def Cx.isZero (a : Cx) : Bool := a.re.isZero && a.im.isZero
def Cx.sum (l : List Cx) : Cx := l.foldl Cx.add {}

/-- The LSB of phase: π / 32,768 rad (R125). -/
def Num.lsb : Num := Num.pi.scale (-15)

/-- e^(j a) for an angle in LSBs. -/
def Cx.turn (a : Int) : Cx :=
  let x := (Num.ofInt a).mul Num.lsb
  { re := x.cos, im := x.sin }

/-- a / |a|. A zero has no direction: its angle is a free value (log 28). -/
def Cx.unit (a : Cx) : Cx := if a.isZero then Cx.turn Config.zeroAngle else a.smul ((Num.ofInt 1).div a.abs)

/-- Nearest integer, halves away from zero. -/
def Num.roundAway (x : Num) : Int := divRound x.ratio.1 x.ratio.2

/-- The angle in LSBs, rounded to nearest, halves away from zero, modulo 2π (R125). -/
def Cx.arg (a : Cx) : Int :=
  wrapS 16 (if a.isZero then Config.zeroAngle else ((Num.atan2 a.im a.re).div Num.lsb).roundAway)

/-- 10 log10 of a positive number. -/
def Num.db (x : Num) : Num := (Num.ofInt 10).mul x.log10

/-- The ratio of a level in dB. -/
def Num.ofDb (d : Int) : Num := Num.exp10 (Num.ofRatio d 10)

end Sys2Proof.Machine
end

