-- ==== Sys2Proof/Machine/Time.lean ====
section
/-! DEFINITION. Time base, PTP, GNSS and the time-interval unit (spec/12_time_and_timing.md). -/
namespace Sys2Proof.Machine
open Sys2Proof

/-- Change the time base. -/
def State.modTime (s : State) (f : TimeBase → TimeBase) : State := { s with time := f s.time }

/-- TimeState changes: STATE_CHG (R314, R333). -/
def State.setTimeState (s : State) (v : Nat) : State :=
  if s.time.state = v then s else (s.modTime (fun t => { t with state := v })).raise stTime [0]

/-- Records carry TIME_FREE (R315). -/
def State.timeFree (s : State) : Bool := s.time.state == 1 || s.time.gmFree

/-- Whether θ exceeds TideSlipThreshold (R27). -/
def State.beyondSlip (s : State) (theta : Int) : Bool := decide (s.nat 0x2000 4 < theta.natAbs)

/-! ## Oscillator and PLLs -/

/-- Successive 10 s frequency measurements, in 0.001 ppb, the oldest first, differ by less than WarmupStability for WarmupHold
(R308). -/
def State.steady (s : State) (freqs : List Int) : Bool :=
  let d := (freqs.zip (freqs.drop 1)).map (fun x => Num.ofRatio (x.2 - x.1).natAbs 1000)
  decide (s.nat 0x1200 0xA ≤ 10 * d.length) && d.all (fun x => x.lt (s.real 0x1200 9))

/-- The warm condition of R308: how long OCXO_RDY has been high, ms; the frequency measurements up to now; seconds since the release
of PORST_N. GNSS, or the servo's estimate, makes measurements available. -/
def State.warmNow (s : State) (rdyMs : Nat) (freqs : List Int) (upS : Nat) : Bool :=
  if s.nat 0x1200 8 = 1 then decide (1000 ≤ rdyMs)
  else if s.time.gnss = 2 ∨ s.time.synced then s.steady freqs
  else decide (s.nat 0x1200 0xB ≤ upS)

/-- OCXO_WARM: the oscillator meets the warm condition, or WarmupTimeout expires (R308). -/
def execOcxoWarm (rdyMs : Nat) (freqs : List Int) (upS : Nat) (s : State) : Host.Outcome State Fault Refusal :=
  .next (if s.up && s.warmNow rdyMs freqs upS then
    let s := s.modTime (fun t => { t with warm := true })
    { s with power := { s.power with ocxoRdy := s.power.ocxoRdy || decide (0 < rdyMs) } }
  else s)

/-- OCXO_RDY drops (`rdyFell`), or stability is lost, after warm-up (R309). -/
def execOcxoAlarm (rdyFell : Bool) (s : State) : Host.Outcome State Fault Refusal :=
  let s := if rdyFell then { s with power := { s.power with ocxoRdy := false } } else s
  .next (if s.up && s.time.warm then (s.raise stTime [7]).contained 0x38 0 1 else s)

/-- A PLL locks: 0 sample, 1 DAC, 2 fabric (R310, R497). -/
def execPllLock (which : Nat) (s : State) : Host.Outcome State Fault Refusal :=
  if s.alive then
    let w := s.power
    .next { s with power := { w with pllS := w.pllS || which == 0, pllD := w.pllD || which == 1, pllF := w.pllF || which == 2 } }
  else .next s

/-- A PLL that was locked loses lock: a fatal fault (R310, R511). -/
def execPllLossOfLock (which : Nat) (s : State) : Host.Outcome State Fault Refusal :=
  let was := (which == 0 && s.power.pllS) || (which == 1 && s.power.pllD) || (which == 2 && s.power.pllF)
  .next (if s.alive && was then s.fatal 0x38 which 2 3 else s)

/-- A port's synthesiser is not locked: the launches whose Kiln records have not come are marked (R180). -/
def State.synLost (s : State) (q : Port) : State :=
  s.modPort q (fun ps => { ps with syn := { ps.syn with locked := false }
                                   kiln := { ps.kiln with flight := ps.kiln.flight.map (fun l => { l with synOff := true }) } })

/-- A synthesiser loses lock (R310). -/
def execSynthUnlock (p : Port) (s : State) : Host.Outcome State Fault Refusal :=
  if s.alive && (s.port p).syn.on && (s.port p).syn.locked then
    .next (((s.synLost p).raise stTime [4]).raise (stKiln p) [5])
  else .next s

/-- A synthesiser relocks (R311). -/
def execSynthRelock (p : Port) (s : State) : Host.Outcome State Fault Refusal :=
  if s.alive && (s.port p).syn.on then
    .next (s.modPort p (fun q => { q with syn := { q.syn with locked := true } }))
  else .next s

/-! ## Servo and time state -/

/-- Step local time by −θ, θ being local time less the source's (log 21). A step is no lapse of time: what is measured from a local
time, as dead time and the distance of PPS edges are, moves with it (DEDUCED, log 177). -/
def State.stepTime (s : State) (theta : Int) : State :=
  s.modTime (fun t => { t with
    now := (t.now - theta).toNat, tickAt := (t.tickAt - theta * 2 ^ 32).toNat, syncAt := (t.syncAt - theta).toNat
    gnssAt := (t.gnssAt - theta).toNat, lastPps := t.lastPps.map (fun p => p - 1000 * theta)
    edgeAt := t.edgeAt.map (fun p => (p - 1000 * theta).toNat)
    inputs := t.inputs.map (fun x => { x with deadUntil := (x.deadUntil - 1000 * theta).toNat, calAt := (x.calAt - theta).toNat }) })

/-- GNSS is this node's source of time: at a standalone Y9, an acting manager, and a strapped manager that neither was demoted nor
follows an acting standby; every other node's is PTP (R314). -/
def State.gnssSource (s : State) : Bool :=
  s.role == 0 || s.chain.iAct || (s.role == 2 && s.chain.acting == 0 && !s.chain.demoted)

/-- A source sample after `dtMs` ms (R312, R314): θ takes the measured offset and the run within LockThreshold counts.
Before the first Tide a θ beyond TideSlipThreshold is stepped away at once. y moves by an amount the spec leaves to the
servo: a free value within ±100 ppb per second and ±10,000 ppb (log 22); in holdover it keeps its last value. -/
def execServoSample (dtMs : Nat) (s : State) : Host.Outcome State Fault Refusal :=
  match s.time.offset with
  | none => .next s
  | some o =>
    if s.up then
      let step := !s.time.tideRan && s.beyondSlip o
      let s := if step then s.stepTime o else s
      let theta : Int := if step then 0 else o
      let (r, s) := s.takeFree
      let lim := 100 * dtMs
      let dy : Int := ((r % (2 * lim + 1) : Nat) : Int) - (lim : Nat)
      let run := if theta.natAbs < s.nat 0x1200 5 then s.time.lockRun + 1 else 0
      .next (s.modTime (fun t => { t with theta := theta, offset := none, lockRun := run, synced := true
                                          y := if t.state = 3 then t.y else clampI (-10000000) 10000000 (t.y + dy) }))
    else .next s

/-- Sixteen consecutive samples within LockThreshold: TimeState 2 (R314). A later lock clears a free-running
grandmaster's mark (R316). -/
def execTimeLock (s : State) : Host.Outcome State Fault Refusal :=
  if s.up ∧ (s.time.state = 1 ∨ s.time.state = 3) ∧ 16 ≤ s.time.lockRun then .next (s.setTimeState 2) else .next s

/-- The Sync interval, ns (R317). -/
def State.syncNs (s : State) : Nat := 1000000000 / 2 ^ (s.int 16 0x1210 2).natAbs

/-- The source of time has been gone long enough at a local time (R314): no Sync for 8 intervals, or GNSS not valid for 3 s. GNSS whose
edges cease is valid no longer from when the next was due (DEDUCED, log 178). -/
def State.sourceGone (s : State) (at_ : Nat) : Bool :=
  if s.gnssSource then
    if s.time.gnss = 2 then s.time.lastPps.all (fun p => decide (p + 4000000000000 ≤ (at_ : Int) * 1000))
    else decide (s.time.gnssAt + 3000000000 ≤ at_)
  else decide (s.time.syncAt + 8 * s.syncNs ≤ at_)

/-- TIME_HOLDOVER: no Sync for 8 intervals, or GNSS not valid for 3 s, at local time `at_` (R314). -/
def execTimeHoldover (at_ : Nat) (s : State) : Host.Outcome State Fault Refusal :=
  if s.up ∧ s.time.state = 2 ∧ s.sourceGone at_ then
    let s := (s.advance at_).setTimeState 3
    .next (s.modTime (fun t => { t with lockRun := 0, offset := none
                                        gnss := if s.gnssSource ∧ t.gnss = 2 then 0 else t.gnss }))
  else .next s

/-- Holdover has lasted HoldoverLimit (R314). -/
def execHoldoverLimit (s : State) : Host.Outcome State Fault Refusal :=
  if s.up ∧ s.time.state = 3 then .next (s.setTimeState 1) else .next s

/-- LeapSeconds in ns (R313). -/
def State.leapNs (s : State) : Int := s.int 16 0x1200 0xC * 1000000000

/-- While locked, the RTC, which holds UTC, is written from local time (R313). -/
def execRtcWriteBack (s : State) : Host.Outcome State Fault Refusal :=
  if s.up ∧ s.time.state = 2 then
    .next { s with aon := { s.aon with rtc := (s.time.now - s.leapNs).toNat, rtcAt := s.time.now, rtcValid := true } }
  else .next s

/-- GnssWait has passed without valid GNSS at a manager (R316). -/
def execGnssWaitExpiry (s : State) : Host.Outcome State Fault Refusal :=
  if s.up ∧ s.role = 2 ∧ s.time.gnss ≠ 2 ∧ s.time.state ≠ 2 ∧ s.nat 0x1200 0xD = 1 then
    .next ((s.setTimeState 2).modTime (fun t => { t with gmFree := true, gmOn := true }))
  else .next s

/-! ## PTP (R317, R318) -/

/-- Kinds of PTP message, as IEEE 1588 numbers them. -/
def ptpSync : Nat := 0
def ptpPdelayReq : Nat := 2
def ptpPdelayResp : Nat := 3
def ptpFollowUp : Nat := 8
def ptpPdelayFollowUp : Nat := 0xA
def ptpAnnounce : Nat := 0xB

/-- This node is the grandmaster (R317): the acting manager, once GNSS has become valid or it runs free (R316), and a standby that
has taken over (R346). -/
def State.grandmaster (s : State) : Bool := s.up && s.chain.iAct && (s.role == 3 || (s.role != 0 && s.time.gmOn))

/-- clockClass of Announce (R317). -/
def State.clockClass (s : State) : Nat :=
  if s.time.gnss = 2 then 6 else if s.time.state = 3 then 7 else 248

/-- Whether a PTP frame can leave by a port: a trunk that is up; the local port while LocalPtpMaster is 1 (R317). -/
def State.ptpPort (s : State) : LinkPort → Bool
  | .w => s.chain.w.up
  | .e => s.chain.e.up
  | .lan => s.chain.localUp && s.nat 0x1210 9 == 1

/-- Emit a PTP message on a port: EtherType 0x88F7, class 1 on a trunk (R317). -/
def State.sendPtp (s : State) (q : LinkPort) (kind : Nat) (fields : List Int) : State :=
  if s.ptpPort q then s.emit (.ptp q 0x88F7 (bit (q != .lan)) kind (s.nat 0x1210 1) fields) else s

/-- Latency correction of a port, ps (R318). -/
def State.portLatency (s : State) : LinkPort → Int
  | .w => s.int 32 0x1210 6
  | .e => s.int 32 0x1210 7
  | .lan => s.int 32 0x1210 8

/-- The master's ports: both trunks at the grandmaster, the local port wherever LocalPtpMaster is 1. -/
def State.masterPorts (s : State) : List LinkPort := if s.grandmaster then [.w, .e, .lan] else [.lan]

/-- Sync and its Follow_Up, which carries the precise time and the correction (R317): the hardware timestamps of the Sync on W, E and
the local port, ps, with each port's latency (R318). -/
def execPtpSyncSend (tw te tl : Int) (s : State) : Host.Outcome State Fault Refusal :=
  if s.up then
    let n := s.time.syncSeq
    let stamp (q : LinkPort) : Int := (match q with
      | .w => tw
      | .e => te
      | .lan => tl) + s.portLatency q
    let s := s.masterPorts.foldl (fun s q => (s.sendPtp q ptpSync [n]).sendPtp q ptpFollowUp [n, stamp q, 0]) s
    .next (s.modTime (fun t => { t with syncSeq := (n + 1) % 0x10000 }))
  else .next s

/-- A peer delay request on both trunk ports, in every role (R317). -/
def execPdelayReqSend (s : State) : Host.Outcome State Fault Refusal :=
  if s.up then
    let n := s.time.reqSeq
    .next (((s.sendPtp .w ptpPdelayReq [n]).sendPtp .e ptpPdelayReq [n]).modTime (fun t => { t with reqSeq := (n + 1) % 0x10000 }))
  else .next s

/-- Announce: clockClass, and whether the time is traceable (R315–R317). -/
def execAnnounceSend (s : State) : Host.Outcome State Fault Refusal :=
  if s.up then
    .next (s.masterPorts.foldl (fun s q =>
      s.sendPtp q ptpAnnounce [s.clockClass, bit (!s.time.gmFree && s.time.state != 1)]) s)
  else .next s

/-- delayAsymmetry of a port, ps (R318). -/
def State.asymmetry (s : State) : LinkPort → Int
  | .w => s.int 32 0x1210 4
  | .e => s.int 32 0x1210 5
  | .lan => 0

/-- The measured delay of a port, ps. -/
def State.meanDelay (s : State) : LinkPort → Nat
  | .w => s.time.delayW
  | .e => s.time.delayE
  | .lan => 0

/-- A slave listens on the trunk port towards the manager (R317); while that is not known, on both (log 18). -/
def State.towardManager (s : State) (q : LinkPort) : Bool :=
  match s.chain.dirs.find? (fun e => e.1 == s.chain.acting) with
  | some e => s.chain.acting == 0 || e.2 == q
  | none => true

/-- A PTP frame arrives with its sequence number (R317, R318). Times are in ps, hardware timestamps before the port's latency
correction. Sync with its Follow_Up: `t1` origin, `t2` arrival, `corr` correction, `res` residence between the two timestamps: a
slave takes the offset from it and a relay sends it on with residence and link delay added, both ports' latencies being part of the
residence. Pdelay_Req: `t2`, `t3`: answered. Pdelay_Resp with its follow-up: `t1` to `t4`. Announce: `t1` 1 where traceable. -/
def execPtpEventFrame (q : LinkPort) (kind domain seq : Nat) (t1 t2 t3 t4 corr res : Int) (s : State) :
    Host.Outcome State Fault Refusal :=
  if s.up && s.ptpPort q && domain == s.nat 0x1210 1 then
    let lat := s.portLatency q
    let other : Option LinkPort := match q with
      | .w => some .e
      | .e => some .w
      | .lan => none
    if kind = ptpPdelayReq then
      .next ((s.sendPtp q ptpPdelayResp [seq, t2 - lat]).sendPtp q ptpPdelayFollowUp [seq, t3 + lat])
    else if kind = ptpPdelayFollowUp ∨ kind = ptpPdelayResp then
      let d := ((t4 - lat - (t1 + lat)) - (t3 - t2) - corr) / 2
      let v := (clampI 0 0xFFFFFFFF d).toNat
      .next (match q with
        | .w => s.modTime (fun t => { t with delayW := v })
        | .e => s.modTime (fun t => { t with delayE := v })
        | .lan => s)
    else if kind = ptpSync ∨ kind = ptpFollowUp then
      let slave := !s.gnssSource && q != .lan && s.towardManager q
      let ofs := t2 - lat - t1 - corr - s.meanDelay q - s.asymmetry q
      let s := if slave then (s.modTime (fun t => { t with offset := some (ofs / 1000), syncAt := (t2 / 1000).toNat })) else s
      .next (match other with
        | some o => if s.chain.iAct then s else
            (if kind = ptpSync then s.sendPtp o ptpSync [seq] else s).sendPtp o ptpFollowUp
              [seq, t1, corr + res + lat + s.portLatency o + s.meanDelay q + s.asymmetry q]
        | none => s)
    else if kind = ptpAnnounce then
      let s := if !s.gnssSource && q != .lan && s.towardManager q then s.modTime (fun t => { t with gmFree := t1 != 1 }) else s
      .next (match other with
        | some o => if s.chain.iAct then s else s.sendPtp o ptpAnnounce [t2, t1]
        | none => s)
    else .next s
  else .next s

/-! ## GNSS (R319, R320) -/

/-- θ as the PPS edge at `edge` ps with its UTC second gives it, ns (R312, R313). -/
def State.ppsTheta (s : State) (edge : Int) (second : Nat) : Int := (edge - (second : Int) * 1000000000000) / 1000 - s.leapNs

/-- GNSS has become valid, or is (R316, R320): where it is the source, the manager's time is traceable. -/
def State.gnssValid (s : State) (theta : Option Int) : State :=
  let src := s.gnssSource
  s.modTime (fun t => { t with gnss := 2, gmOn := true, gmFree := if src then false else t.gmFree
                               offset := if src && theta.isSome then theta else t.offset })

/-- Time of day: a ZDA (0) or RMC (1) sentence that arrives at local time `at_` naming a UTC second (R319). The first one accepted
after an edge, unless that was ignored, gives the edge its second; the third consecutive good second makes GNSS valid (R320). -/
def execTodSentence (kind : Nat) (sumOk statusA : Bool) (second at_ : Nat) (s : State) :
    Host.Outcome State Fault Refusal :=
  if s.up ∧ s.nat 0x1220 1 = 1 then
    let sel := s.nat 0x1220 3
    let inTime := s.time.edgeAt.any (fun p => decide (p ≤ 1000 * at_) && decide (1000 * at_ ≤ p + 900000000000))
    let good := (kind == 0 || kind == 1) && (sel == 2 || sel == kind) && sumOk && (kind == 0 || statusA) && inTime
    let s := s.advance at_
    let t := s.time
    if ¬ good then .next (s.raise stTime [6])
    else if t.edgeSkip ∨ t.sec.isSome then .next s
    else
      let run := if t.stepOk ∧ t.prevSec.map (· + 1) = some second then t.ppsRun + 1 else 0
      let s := s.modTime (fun t => { t with sec := some second, ppsRun := run })
      .next (if t.gnss ≠ 2 ∧ 3 ≤ run then s.gnssValid (t.lastPps.map (fun p => s.ppsTheta p second)) else s)
  else .next s

/-- The GNSS logic takes a PPS edge at `at_` ps (R320): its time is that less PpsDelay. -/
def State.ppsEdge (s : State) (at_ : Nat) : State :=
  let edge : Int := at_ - s.int 32 0x1220 4
  let b := s.time
  let ok := b.lastPps.any (fun p => decide (p + 999999000000 ≤ edge) && decide (edge ≤ p + 1000001000000))
  let s := s.modTime (fun t => { t with edgeAt := some at_, edgeSkip := false })
  if b.gnss = 2 ∧ ok = false then
    -- a jump: the edge is ignored
    let s := (s.modTime (fun t => { t with jumpCount := satAdd 0xFFFFFFFF t.jumpCount 1, jumps := t.jumps + 1, edgeSkip := true })).raise stTime [5]
    if 3 ≤ b.jumps + 1 then s.modTime (fun t => { t with
      gnss := 1, gnssAt := t.now, jumps := 0, ppsRun := 0, lastPps := some edge, stepOk := false, edgeSkip := false, sec := none
      prevSec := none }) else s
  else
    let s := s.modTime (fun t => { t with
      gnss := max 1 t.gnss, ppsRun := if ok && b.sec.isSome then t.ppsRun else 0, jumps := 0, lastPps := some edge, stepOk := ok
      prevSec := b.sec, sec := none })
    -- while GNSS is valid, the second of this edge is one more than that of the edge before
    if b.gnss = 2 then s.gnssValid (b.sec.map (fun v => s.ppsTheta edge (v + 1))) else s

/-- An input's state. -/
def State.tiu (s : State) (i : Nat) : TiuIn := s.time.inputs.getD i {}

/-- Change an input's state. -/
def State.modTiu (s : State) (i : Nat) (f : TiuIn → TiuIn) : State :=
  s.modTime (fun t => { t with inputs := modAt t.inputs i f })

/-- The fixed consumer of an input takes its oldest waiting event (R322). -/
def State.takeEvent (s : State) (i : Nat) : State := s.modTiu i (fun x => { x with events := x.events.drop 1 })

/-- PPS_EDGE: the GNSS logic takes the oldest event of PPS_IN (R320, R322). -/
def execPpsEdge (s : State) : Host.Outcome State Fault Refusal :=
  match (s.tiu 0).events with
  | [] => .next s
  | t :: _ =>
    let s := s.takeEvent 0
    .next (if s.up ∧ s.nat 0x1220 1 = 1 then s.ppsEdge t else s)

/-! ## The time-interval unit (R321–R329) -/

/-- Change the series. -/
def State.modSeries (s : State) (f : Series → Series) : State :=
  s.modTime (fun t => { t with series := f t.series })

/-- Slope of an input (R321). -/
def State.slope (s : State) (i : Nat) : Nat := s.nat (0x1230 + i) 2

/-- Whether an edge is recognised (R321). -/
def State.recognises (s : State) (i : Nat) (rising : Bool) : Bool :=
  s.slope i == 2 || (if rising then s.slope i == 0 else s.slope i == 1)

/-- Whether a level is the active one (R321). -/
def State.activeLevel (s : State) (i : Nat) (level : Bool) : Bool := if s.slope i = 1 then !level else level

/-- The flags a sample takes (R328). -/
def State.measFlags (s : State) (i : Nat) : Nat :=
  bit s.timeFree + 2 * bit (!s.time.warm) + 4 * bit (s.tiu i).stale

/-- The end of a series (R327, R328). -/
def State.seriesDone (s : State) : State :=
  let r := s.time.series
  let n := r.taken
  let var : Num := if n ≤ 1 then Num.zero else
    Num.ofRatio ((n * r.sumSq : Nat) - (r.sum * r.sum : Nat) : Int) (n * (n - 1))
  let s := s.modSeries (fun r => if r.mode = 1 then { r with state := 3 } else
    { r with state := 3, mean := (divRne r.sum n).toNat, std := var.sqrt.toF32, min := r.low, max := r.high })
  s.raise stTiu [0]

/-- A sample of modes 2 and 3 (R326, R328), with the flags of both its events' inputs. -/
def State.sample (s : State) (i v : Nat) : State :=
  let s := s.modSeries (fun r => { r with
    state := 2, taken := r.taken + 1, sum := r.sum + v, sumSq := r.sumSq + v * v
    low := if r.taken = 0 then v else min r.low v, high := if r.taken = 0 then v else max r.high v
    flags := r.flags ||| s.measFlags i ||| s.measFlags r.start })
  if s.time.series.n ≤ s.time.series.taken then s.seriesDone else s

/-- A timestamp of mode 1 (R326, R327). An event that finds the FIFO full is dropped and counted, and still counts as
one of the N (log 23). -/
def State.stamp (s : State) (i t : Nat) : State :=
  let full := decide (64 ≤ s.time.series.fifo.length)
  let s := s.modSeries (fun r => { r with
    state := 2, taken := r.taken + 1, flags := r.flags ||| s.measFlags i
    fifo := if full then r.fifo else r.fifo ++ [(i, t)]
    overflow := if full then satAdd 0xFFFFFFFF r.overflow 1 else r.overflow })
  let s := s.raiseIf full stTiu 2
  if s.time.series.n ≤ s.time.series.taken then s.seriesDone else s

/-- Whether a start event at `t` ps counts under GateMode (R327): GATE_IN is active from the time of its active edge inclusive to that
of its inactive edge exclusive, whatever order the commands of the inputs come in after those edges (log 159). -/
def State.gateCounts (s : State) (t : Nat) : Bool :=
  let r := s.time.series
  if r.gate = 1 then ((r.gateLog.find? (fun e => decide (e.1 ≤ t))).map (·.2)).getD r.gateWas
  else if r.gate = 2 then r.gateLog.any (fun e => e.2 && decide (e.1 ≤ t)) else true

/-- A series takes its copy of an event (R326, R327) while TIU_CTRL.ENABLE is 1 (R333). A stop event at the very time of its start
may come as the earlier command; one before its start, as after a step of local time, is no stop of it, and a period that such a
step turns negative is no sample (DESIGN CHOICE, log 177). -/
def State.seriesEvent (s : State) (i t : Nat) : State :=
  let r := s.time.series
  if (r.state = 1 ∨ r.state = 2) ∧ bitOf (s.reg 0x38 4) 0 then
    if r.mode = 1 then (if i = r.start ∧ s.gateCounts t then s.stamp i t else s)
    else if r.mode = 2 then
      match r.pend with
      | some (t0, _) => if i = r.stop ∧ t0 ≤ t then (s.modSeries (fun r => { r with pend := none })).sample i (t - t0) else s
      | none =>
        if i = r.start ∧ s.gateCounts t then
          if r.lastStop = some t ∧ r.stop ≠ r.start then s.sample i 0
          else s.modSeries (fun r => { r with pend := some (t, true), state := 2 })
        else if i = r.stop then s.modSeries (fun r => { r with lastStop := some t }) else s
    else if r.mode = 3 ∧ i = r.start then
      let s' := s.modSeries (fun r => { r with pend := some (t, s.gateCounts t), state := 2 })
      match r.pend with
      | some (t0, true) => if t0 ≤ t then s'.sample i (t - t0) else s'
      | _ => s'
    else s
  else s

/-- An edge within dead time is dropped (R324). -/
def State.deadDrop (s : State) (i : Nat) : State :=
  (s.modTiu i (fun x => { x with dead := satAdd 0xFFFFFFFF x.dead 1 })).raise stTime [1]

/-- GATE_IN's edges are kept for a series that gates by them (R327). -/
def State.gateEdge (s : State) (t : Nat) (active : Bool) : State :=
  s.modSeries (fun r => if r.state = 1 ∨ r.state = 2 then { r with gateLog := (t, active) :: r.gateLog } else r)

/-- An edge on an input at `t` ps of local time (R321–R327). An edge that the slope does not recognise only moves the
level. An event goes to the fixed consumer of its input, which takes it by its own command, and a series takes a copy; GATE_IN's
consumer is the gate itself (R322). -/
def execTiuEvent (i t : Nat) (rising : Bool) (s : State) : Host.Outcome State Fault Refusal :=
  if s.up ∧ i < 6 then
    let s := s.advance (t / 1000)
    let x := s.tiu i
    let s := s.modTiu i (fun x => { x with level := rising })
    let s := if i = 1 then s.gateEdge t (s.activeLevel 1 rising) else s
    if ¬ s.recognises i rising then .next s
    else if x.stuck ∧ ¬ s.activeLevel i rising then .next s
    else if t < x.deadUntil then .next (s.deadDrop i)
    else
      let s := s.modTiu i (fun x => { x with deadUntil := t + 20000, stuck := false
                                             events := if i = 1 then x.events else x.events ++ [t] })
      .next (s.seriesEvent i t)
  else .next s

/-- A short pulse is filtered (R323). -/
def execTiuShortPulse (i : Nat) (s : State) : Host.Outcome State Fault Refusal :=
  .next (if s.up then s.modTiu i (fun x => { x with glitches := satAdd 0xFFFFFFFF x.glitches 1 }) else s)

/-- An edge within the dead time is dropped (R324); one that comes after it is no such edge. -/
def execTiuDeadTimeDrop (i t : Nat) (rising : Bool) (s : State) : Host.Outcome State Fault Refusal :=
  if s.up ∧ i < 6 ∧ t < (s.tiu i).deadUntil then
    let s := (s.advance (t / 1000)).modTiu i (fun x => { x with level := rising })
    let s := if i = 1 then s.gateEdge t (s.activeLevel 1 rising) else s
    .next (if s.recognises i rising then s.deadDrop i else s)
  else .next s

/-- An input held active past StuckTime becomes stuck (R325) and gives no event until a fresh active edge: a stuck PPS_IN ends GNSS
validity (R320), the Cellar shows a stuck trigger input (R248), and the launch monitor and the gate, for which nothing more is said,
have the input's own bit. -/
def execTiuStuck (i : Nat) (s : State) : Host.Outcome State Fault Refusal :=
  if s.up ∧ i < 6 ∧ ¬ (s.tiu i).stuck ∧ s.activeLevel i (s.tiu i).level then
    let s := (s.modTiu i (fun x => { x with stuck := true, stucks := satAdd 0xFFFFFFFF x.stucks 1 })).raise stTime [2]
    -- the Cellar blocks hold EVT_IN0 and EVT_IN1 off (R248)
    let s := if i = 2 ∨ i = 3 then (s.raise (stCel .a) [5]).raise (stCel .b) [5] else s
    .next (if i = 0 then s.modTime (fun t => { t with
      gnss := 0, gnssAt := if t.gnss = 2 then t.now else t.gnssAt, ppsRun := 0, jumps := 0, lastPps := none, stepOk := false
      edgeAt := none, sec := none, prevSec := none }) else s)
  else .next s

/-- The idle interpolator is calibrated by two runs, each the sums over 256 measurements of one and of two sample-clock
periods, ps (R329). Gain is the second mean less the first, offset twice the first less the second; the mean of the two runs is
accepted (R457). -/
def State.interpCal (s : State) (i : Nat) (one1 two1 one2 two2 : Int) : State :=
  let g1 := two1 - one1
  let g2 := two2 - one2
  let o1 := 2 * one1 - two1
  let o2 := 2 * one2 - two2
  if (g1 - g2).natAbs ≤ 512 ∧ (o1 - o2).natAbs ≤ 512 then
    (s.modTiu i (fun x => { x with gain := divRound (g1 + g2) 2, ofs := divRound (o1 + o2) 2, calAt := s.time.now, stale := false
                                   second := !x.second })).modTime
      (fun t => { t with calCount := satAdd 0xFFFFFFFF t.calCount 1, calTime := t.now })
  else (s.modTime (fun t => { t with calFails := satAdd 0xFFFFFFFF t.calFails 1 })).raise stTime [3]

/-- INTERP_CAL_RUN: the runs that come every 1 s (R329). -/
def execInterpCalRun (i : Nat) (one1 two1 one2 two2 : Int) (s : State) : Host.Outcome State Fault Refusal :=
  .next (if s.up ∧ i < 6 then s.interpCal i one1 two1 one2 two2 else s)

/-- The runs before a series is armed (R329): what they measure is free. -/
def State.armCal (s : State) : State :=
  (upTo 6).foldl (fun s i =>
    let v (k : Nat) : Int := ((Config.freeValue (s.free + k) % 2 ^ 20 : Nat) : Int)
    ({ s with free := s.free + 4 } : State).interpCal i (v 0) (v 1) (v 2) (v 3)) s

/-- 60 s without an accepted run, at local time `at_`, flag an input's events as calibration-stale (R329). -/
def execInterpCalStale (i at_ : Nat) (s : State) : Host.Outcome State Fault Refusal :=
  .next (if s.up ∧ i < 6 ∧ (s.tiu i).calAt + 60000000000 ≤ at_ then
    (s.advance at_).modTiu i (fun x => { x with stale := true }) else s)

/-- TIU_CFG as the measurement objects load it at an arm (R333). -/
def State.tiuCfg (s : State) : Nat :=
  s.nat 0x1240 4 * 2 ^ 12 + s.nat 0x1240 5 * 2 ^ 10 + s.nat 0x1240 1 * 2 ^ 8 + s.nat 0x1240 3 * 2 ^ 4 + s.nat 0x1240 2

/-- Arm a series with the parameters of TIU_CFG (R326, R333), the idle interpolators being calibrated first (R329); refused while one
runs or the mode is 0. -/
def State.armSeries (s : State) : State :=
  let c := s.reg 0x38 8
  let inp (v : Nat) : Nat := if 6 ≤ v then 0 else v
  let n := bitsOf c 27 12
  let g := bitsOf c 11 10
  if s.time.series.state = 1 ∨ s.time.series.state = 2 ∨ bitsOf c 9 8 = 0 then s
  else s.armCal.modSeries (fun r => { r with
    state := 1, mode := bitsOf c 9 8, start := inp (bitsOf c 2 0), stop := inp (bitsOf c 6 4)
    n := if n = 0 then 1 else n, gate := if g = 3 then 0 else g, taken := 0, pend := none, lastStop := none
    gateWas := s.activeLevel 1 (s.tiu 1).level, gateLog := []
    sum := 0, sumSq := 0, low := 0, high := 0, flags := 0 })

/-- A write of 0 to MeasMode while a series runs abandons it (R327). -/
def State.measOff (s : State) : State :=
  (s.modSeries (fun r => { r with state := 4, pend := none })).raise stTiu [1]

/-- TIU_TS_AUX as a read answers it, taking the oldest entry and latching its time (R333). -/
def State.readTsAux (s : State) : Nat × State :=
  match s.time.series.fifo with
  | [] => (0, s)
  | (i, t) :: rest =>
    (2 ^ 31 + i % 8 * 2 ^ 28 + t % 1000 * 2 ^ 16 + min 127 rest.length,
     s.modSeries (fun r => { r with fifo := rest, latch := t / 1000 }))

end Sys2Proof.Machine
end

