-- ==== Sys2Proof/Machine/Plan.lean ====
section
/-! DEFINITION. The launch plan and schedule, and the settings a launch is made under (R23–R43, R52–R63, R115). -/
namespace Sys2Proof.Machine
open Sys2Proof

/-! ## A plan read through a view (pending, active, or a snapshot) -/

/-- The values of a plan (R36, R38). -/
structure PlanV where
  p : Nat
  m : Nat
  mask : Nat
  w : Nat
  c : Nat
  b : Nat
  tmin : Nat
  phi : Nat
  r0 : Nat
  pitch : Nat
  n : Nat
  g : Nat
  refStart : Nat
  refLen : Nat
  deriving DecidableEq, Repr

/-- A plan's values as `get` reads the objects. -/
def planOf (get : Nat → Nat → Nat) (q : Port) : PlanV :=
  let pl (i : Nat) : Nat := get (portIndex q 0x2010) i
  let sw (i : Nat) : Nat := get (portIndex q 0x3100) i
  let op (i : Nat) : Nat := get (portIndex q 0x2100) i
  { p := get 0x2000 1, m := pl 1, mask := pl 2, w := pl 3, c := pl 4, b := pl 5, tmin := pl 6, phi := pl 7
    r0 := sw 1, pitch := sw 2, n := sw 3, g := sw 4, refStart := op 0x62, refLen := op 0x63 }

/-- The enabled slots, ascending (R31). -/
def slotsOf (mask : Nat) : List Nat := (upTo 8).filter (fun k => bitOf mask k)

/-- Range samples in a Tide. -/
def tideSamples (p : Nat) : Nat := 125000 * p

/-- floor(k × X), X = 125,000 × P / M (R29, R34). -/
def floorX (p m k : Nat) : Nat := k * tideSamples p / m

/-- X rounded down. -/
def intervalFloor (p m : Nat) : Nat := floorX p m 1

/-- floor(S × X), the slot reuse period (R34). -/
def reuse (v : PlanV) : Nat := floorX v.p v.m (slotsOf v.mask).length

/-- Slot of launch j of Tide N (R31). -/
def slotAt (mask m tide j : Nat) : Nat :=
  let l := slotsOf mask
  l.getD ((tide * m + j) % l.length) 0

/-- Codes 1 to 9 of the plan check, 0 where all pass (R36); the caller adds 10 to 13. -/
def planCode (v : PlanV) : Nat :=
  if v.p < 1 ∨ 16 < v.p then 1
  else if ¬ bitOf v.mask 0 then 2
  else if v.w < 1024 ∨ 131072 < v.w then 3
  else if v.c < 25 ∨ 2500 < v.c ∨ 2047 < v.b ∨ v.tmin < 125 then 4
  else if v.m < 1 ∨ 8000 < v.m ∨ tideSamples v.p < max 250 (v.c + 25) * v.m then 5
  else if reuse v < v.w + v.c + v.tmin then 6
  else if intervalFloor v.p v.m ≤ v.phi then 7
  else if v.r0 < v.b ∨ v.refStart < v.b then 8
  else if v.w - 1 < v.r0 + (v.n - 1) * v.pitch + v.g then 9
  else 0

/-- A plan with the takeover plan's launches, window and points in place of its own, LaunchOffset 0 (R366, R367). -/
def takeoverOf (get : Nat → Nat → Nat) (q : Port) (v : PlanV) : PlanV :=
  let t (i : Nat) : Nat := get (portIndex q 0x7010) i
  { v with m := t 6, w := t 7, n := t 8, phi := 0 }

/-! ## The active plan -/

/-- The takeover plan is in force (R366, R367). -/
def State.tookOver (s : State) (q : Port) : Bool := (s.port q).pair.state == 4

/-- The plan in force: the split plan, or in takeover the takeover plan with LaunchOffset 0 (R366). -/
def State.plan (s : State) (q : Port) : PlanV :=
  let v := planOf s.nat q
  if s.tookOver q then takeoverOf s.nat q v else v

/-- Tide period in force, ms. -/
def State.period (s : State) : Nat := s.nat 0x2000 1

/-- Index of a decimation channel's objects (R170). -/
def decIndex (q : Port) (c : Nat) : Nat := portIndex q 0x3120 + c % 2

/-- A decimation channel's settings in force. -/
def State.decCfg (s : State) (q : Port) (c : Nat) : DecCfg :=
  let d (i : Nat) : Nat := s.nat (decIndex q c) i
  { en := d 1 == 1, preset := d 2, first := d 3, stride := d 4, count := d 5, dest := d 6 }

/-- A gauge or pitch field as it acts: 0 and 65 to 127 as 64 (R144). -/
def act64 (n : Nat) : Nat := if n = 0 ∨ 64 < n then 64 else n

/-- The settings a launch made now is processed under (R115): those of SW_CFG, SW_START and SW_COUNT as the registers hold them
(R144), the others from the objects in force. -/
def State.cfg (s : State) (q : Port) : Cfg :=
  let v := s.plan q
  let sw (i : Nat) : Nat := s.pn q 0x3100 i
  let op (i : Nat) : Nat := s.pn q 0x2100 i
  let r := s.reg (winRx q) 0x204
  { p := v.p, m := v.m, mask := v.mask, w := v.w, c := v.c, b := v.b, tmin := v.tmin, phi := v.phi
    r0 := bitsOf (s.reg (winRx q) 0x208) 16 0, pitch := act64 (bitsOf r 14 8), n := bitsOf (s.reg (winRx q) 0x20C) 17 0
    g := act64 (bitsOf r 22 16), window := min 2 (bitsOf r 5 4), cm := bitOf r 3, refStart := v.refStart, refLen := v.refLen
    chirpBw := op 0x10, chirpDir := op 0x11, taper := op 0x12, fadeSnr := sw 6, alignShift := sw 7, minUpd := sw 8
    slew := sw 9, stale := sw 0xA, refSnr := sw 0xC, unwrap := sw 0xD, jump := sw 0xE, gapLim := sw 0xF
    wort := if op 0x67 = 1 then op 0x68 else 0, qtc := sw 0x11 == 1, qx := sw 0x10 == 1
    dec0 := s.decCfg q 0, dec1 := s.decCfg q 1
    laut := { en := s.pn q 0x3130 1 == 1, mask := s.pn q 0x3130 2, group := s.pn q 0x3130 3, dest := s.pn q 0x3130 6 } }

/-- Global launch index ℓ (R148). -/
def ellOf (tide m j : Nat) : Nat := tide * m + j

/-! ## Changes that restart a port (R42, R55, R95) -/

/-- The plan values whose change has the effects of R42, as a port split or in takeover runs them: P, M, SlotMask, W, C,
φ, the chirp's bandwidth, direction and taper (R55), and the two path delays (R95). -/
def planKey (get : Nat → Nat → Nat) (took : Bool) (q : Port) : List Nat :=
  let v := planOf get q
  let v := if took then takeoverOf get q v else v
  let op (i : Nat) : Nat := get (portIndex q 0x2100) i
  [v.p, v.m, v.mask, v.w, v.c, v.phi, op 0x10, op 0x11, op 0x12, op 0x60, op 0x6C]

/-- The view of a snapshot over the values in force: an epoch-applied object that it does not name has its default. -/
def State.snapView (s : State) (snap : List (Nat × List Byte)) (idx sub : Nat) : Nat :=
  match lookup (objKey idx sub) snap with
  | some v => leNat v
  | none =>
    if (lookup (objKey idx sub) s.od.act).isSome && epochKey (objKey idx sub)
    then leNat (objDefault s.power.straps s.nodeHigh idx sub) else s.nat idx sub

/-- A pending epoch leaves a port of this node in takeover (R369, R370). -/
def State.tookAfter (s : State) (e : EpochPend) (q : Port) : Bool :=
  (s.port q).pair.state == 4 && s.snapView e.snap (portIndex q 0x7010) 1 == 2 && !e.restore.contains (s.node, Port.num q)

/-- The next Tide edge changes a port's plan: by the pending epoch, by a takeover, or by a yield out of takeover (R42, R367, R369). -/
def State.nextChanges (s : State) (q : Port) : Bool :=
  let byEpoch := match s.chain.pend with
    | none => false
    | some e => decide (e.tide ≤ s.tide.num + 1)
      && planKey s.nat ((s.port q).pair.state == 4) q != planKey (s.snapView e.snap) (s.tookAfter e q) q
  let at_ (o : Option Nat) : Bool := match o with
    | none => false
    | some t => decide (t ≤ s.tide.num + 1)
  byEpoch || at_ (s.port q).pair.takeAt || (s.tookOver q && at_ (s.port q).pair.yieldAt)

/-- A launch whose record would end after the start of the next Tide is not made where that edge changes the plan (R42). -/
def State.suppresses (s : State) (q : Port) (j : Nat) : Bool :=
  let v := s.plan q
  s.nextChanges q && decide (tideSamples v.p < floorX v.p v.m j + v.phi + v.w + v.c)

/-! ## Launch flags -/

/-- The laser set that serves a port (R69). -/
def State.laserOf (s : State) (q : Port) : Port := if s.laserShare then .a else q

/-- The ports a laser set serves. -/
def State.served (s : State) (l : Port) : List Port := if s.laserShare then [.a, .b] else [l]

/-- A laser set's outputs. -/
def State.laserSet (s : State) (l : Port) : LaserSet := (s.port l).laser

/-- A sweep of laser following runs on the port's laser (R71, R136). -/
def State.tuning (s : State) (q : Port) : Bool := (s.served (s.laserOf q)).any (fun r => (s.port r).opt.sweeping)

/-- The Tides of the latest sweep, one that runs ending in the present Tide. -/
def Optics.sweepEnd (o : Optics) (edges : Nat) : Option (Nat × Nat) :=
  if o.sweeping then o.tuned.map (fun t => (t.1, edges)) else o.tuned

/-- Ordinals, from and to, of the Tides flagged for laser tuning at a port: those in which a sweep of its laser ran (R71, R127). -/
def State.tunedTides (s : State) (q : Port) : List (Nat × Nat) :=
  (s.served (s.laserOf q)).filterMap (fun r => (s.port r).opt.sweepEnd s.tide.edges)

/-- The port is Live and not stopping (R75, R76). -/
def State.live (s : State) (q : Port) : Bool := (s.port q).opt.state == 6 && !(s.port q).opt.stopping

/-- Outputs carry the dark flag: before Live, under an open interlock, yielded, or muted (R75, R44, R369). -/
def State.dark (s : State) (q : Port) : Bool := !s.live q || (s.port q).pair.state == 5

/-- Outputs carry the calibration-stale flag of the Rayleigh path: RxCalState 3 (R104) or a stale DAC trim (R462). -/
def State.rxStale (s : State) (q : Port) : Bool := (s.port q).rx.cal.state == 3 || (s.port q).trim.state == 3

/-- KilnEnable of the active plan (R173). -/
def State.kilnOn (s : State) (q : Port) : Bool := s.pn q 0x4010 1 == 1

/-- The KILN block is enabled: its domain is on and KILN_CTRL.ENABLE is 1 (R202). -/
def State.kilnEnabled (s : State) (q : Port) : Bool := s.domain (8 + Port.num q) && bitOf (s.reg (winKiln q) 0) 0

/-- TONE_EN, which firmware sets while the Kiln engine is enabled (R17, R202). -/
def State.toneOn (s : State) (q : Port) : Bool := bitOf (s.reg (winKiln q) 0) 1

/-- The pilot is sent (R57): PilotActive follows PairMode 1 or 2 of the active plan (R357). -/
def State.pilotActive (s : State) (q : Port) : Bool := s.pn q 0x7010 1 != 0

/-- The TX block drives its outputs: TX_CTRL.ENABLE is 1 and MUTE 0 (R82; that a cleared ENABLE mutes is read from the field's
name, log 115). -/
def State.txDriven (s : State) (q : Port) : Bool :=
  bitOf (s.reg (winTx q) 0) 0 && !bitOf (s.reg (winTx q) 0) 1

/-- Where the DACs carry the pilot: OpticsState 2 to 6 (R75), not muted. -/
def State.pilotSent (s : State) (q : Port) : Bool :=
  let o := (s.port q).opt
  s.pilotActive q && decide (2 ≤ o.state ∧ o.state ≤ 6) && !o.stopping && s.txDriven q

/-- Gate and DACs carry the launch: states 5 and 6, not stopping, not muted by TX_CTRL, not yielded (R75, R82, R369). -/
def State.lit (s : State) (q : Port) : Bool :=
  let o := (s.port q).opt
  (o.state == 5 || o.state == 6) && !o.stopping && s.txDriven q && (s.port q).pair.state != 5

/-- Background calibration gathers tone windows (R101, R104): the port has been Live, its foreground calibration has passed, and
neither CAL_HOLD nor a Tide in which R42 suppresses launches holds it off. -/
def State.bgRuns (s : State) (q : Port) : Bool :=
  (s.port q).rx.bgOn && (s.port q).rx.fgPass && !bitOf (s.reg (winRx q) 0) 1 && !s.nextChanges q

/-- The outputs are not muted: OpticsState 2 to 6, not stopping, TX_CTRL.MUTE 0 (R460). -/
def State.unmuted (s : State) (q : Port) : Bool :=
  let o := (s.port q).opt
  decide (2 ≤ o.state ∧ o.state ≤ 6) && !o.stopping && !bitOf (s.reg (winTx q) 0) 1

/-- The plan gives the DAC trims a window: the gap from a chirp's end to the next launch lasts at least 500 range samples
(R462). -/
def dacWindow (v : PlanV) : Bool := decide (500 + v.c ≤ intervalFloor v.p v.m)

/-- A launch ends a gap (R462): one that is long enough is gathered, the outputs not being muted (R460). -/
def State.gapEnd (s : State) (q : Port) : State :=
  if (s.port q).lastDrive.isSome && (s.port q).trim.window && dacWindow (s.plan q) && s.unmuted q then
    s.modPort q (fun ps => { ps with gaps := min 4096 (ps.gaps + 1) })
  else s

/-- The frequency of a slot channel's calibration tone in the tail window of a rotation, kHz from the slot's centre (R101):
within ±50 MHz, the step from rotation to rotation free (log 126). -/
def calToneKhz (rotation : Nat) : Int := ((Config.toneStep rotation % 100001 : Nat) : Int) - 50000

/-- The time of the launch of ordinal `ell`, of slot k, whose tail window has come: in flight, or the slot's latest recorded. -/
def State.madeAt (s : State) (q : Port) (k ell : Nat) : Option Nat :=
  match (s.port q).flight.find? (fun l => l.ell == ell) with
  | some l => some l.time
  | none => ((s.port q).rx.prev.getD k none).bind (fun e => if e.1 = ell then some e.2 else none)

/-- A launch ends the tail window of its slot's previous launch: a tone window where that launch's rotation is even, with the tone
in its last 125 range samples at −40 dBFS (R101); a slot 0 launch also ends one of the Kiln converters (R104). -/
def State.toneWindow (s : State) (q : Port) (l : Launch) : State :=
  let n := max 1 (slotsOf l.cfg.mask).length
  match s.madeAt q l.slot (l.ell - n) with
  | none => s
  | some t =>
    if s.bgRuns q && decide (n ≤ l.ell) then
      let rot := (l.ell - n) / n
      let s := s.modPort q (fun ps => { ps with rx := { ps.rx with
        windows := if rot % 2 = 0 then modAt ps.rx.windows l.slot (· + 1) else ps.rx.windows
        kWindows := if l.slot = 0 then ps.rx.kWindows + 1 else ps.rx.kWindows } })
      if rot % 2 = 0 then s.emit (.calTone q l.slot (t + 8 * (floorX l.cfg.p l.cfg.m n - 125)) 1000 (calToneKhz rot) (-40)) else s
    else s

/-- How a launch of slot k is driven (R49–R63). -/
def State.drive (s : State) (q : Port) (k : Nat) : Drive :=
  let op (i : Nat) : Nat := s.pn q 0x2100 i
  let tone := k == 0 && s.toneOn q
  let lit := s.lit q
  { slot := k, bandwidth := op 0x10, up := op 0x11 == 0 || (op 0x11 == 2 && k % 2 == 0), taper := op 0x12
    length := (s.plan q).c, chirp := op 0x13, tone := if tone then op 0x14 else 0
    toneKhz := if tone then s.pn q 0x4010 2 else 0, toneNs := if tone then s.pn q 0x4010 3 else 0
    pilot := if s.pilotSent q then op 0x15 else 0
    pilotKhz := if s.pilotSent q then s.int 32 (portIndex q 0x2100) 0x16 else 0, swap := op 9 == 1
    gate := if lit then bitsOf (s.reg (winTx q) 4) 21 16 else 0, lead := bitsOf (s.reg (winTx q) 4) 6 0
    lag := bitsOf (s.reg (winTx q) 4) 14 8, skew := s.int 16 (portIndex q 0x2100) 0x24
    lit := lit }

/-- Launch j of the present Tide (R29–R32): made where the port has an active plan, is not in pilot exchange (R357), and
R42 does not suppress it. -/
def execLaunch (q : Port) (j : Nat) (s : State) : Host.Outcome State Fault Refusal :=
  let ps := s.port q
  let v := s.plan q
  if s.up && s.tide.running && ps.hasPlan && s.pn q 0x7010 1 != 1 && decide (j < v.m)
      && !s.suppresses q j then
    let k := slotAt v.mask v.m s.tide.num j
    let t := s.tide.edge + 8 * (floorX v.p v.m j + v.phi)
    let l : Launch :=
      { tide := s.tide.num, nth := s.tide.edges, j := j, slot := k, ell := ellOf s.tide.num v.m j, time := t, epoch := s.tide.epoch
        dark := s.dark q, tuning := s.tuning q, tone := k == 0 && s.toneOn q, late := false, missing := false
        biasUnlock := false, calStale := s.rxStale q, timeFree := s.timeFree, incomplete := s.nextChanges q
        cfg := s.cfg q, synOff := !ps.syn.locked, restart := ps.sw.pend, clr := ps.clr }
    let s := s.modPort q (fun ps => { ps with lastSlot := k, lastJ := j, flight := ps.flight ++ [l]
                                              sw := { ps.sw with pend := .none }, clr := {}
                                              kiln := if l.slot = 0 ∧ s.kilnEnabled q then { ps.kiln with flight := ps.kiln.flight ++ [l] } else ps.kiln })
    let d := s.drive q k
    .next (((((s.advance t).toneWindow q l).gapEnd q).modPort q (fun ps => { ps with lastDrive := some (t, d) })).emit (.launch q t d))
  else .next s

/-! ## Restarts and history clears (R135, R156, R167) -/

/-- The stronger of two restarts. -/
def Restart.max : Restart → Restart → Restart
  | .full, _ => .full
  | _, .full => .full
  | .soft, _ => .soft
  | _, r => r

/-- Clears together. -/
def Clears.join (a b : Clears) : Clears :=
  { dec0 := a.dec0 || b.dec0, dec1 := a.dec1 || b.dec1, laut := a.laut || b.laut, bands := a.bands ||| b.bands }

/-- A restart and clears go to the next launch whose record comes: the oldest in flight, or the next to be made. -/
def State.clearNext (s : State) (q : Port) (r : Restart) (c : Clears) : State :=
  s.modPort q (fun ps => match ps.flight with
    | l :: rest => { ps with flight := { l with restart := l.restart.max r, clr := l.clr.join c } :: rest }
    | [] => { ps with sw := { ps.sw with pend := ps.sw.pend.max r }, clr := ps.clr.join c })

/-- A restart of every point waits for the next launch (R135). -/
def State.restartAll (s : State) (q : Port) (r : Restart) : State :=
  s.modPort q (fun ps => { ps with sw := { ps.sw with pend := ps.sw.pend.max r } })

/-- Decimation histories and Lauter state clear at the next launch (R156, R167). -/
def State.clearHistories (s : State) (q : Port) : State :=
  s.modPort q (fun ps => { ps with clr := { ps.clr with dec0 := true, dec1 := true, laut := true } })

end Sys2Proof.Machine
end

