-- ==== Sys2Proof/Machine/Drive.lean ====
section
/-! DEFINITION. What the optical drive outputs of a port carry at an instant: transmit DACs, gate, bias DACs (R49–R65, R75,
R80). They are functions of the state between two commands; times are of local time. -/
namespace Sys2Proof.Machine
open Sys2Proof

/-! ## Components (R52–R57) -/

/-- The raised-cosine envelope at position `x` of `n`, with `e` samples in each edge (R54, R56). -/
def tukey (x n e : Nat) : Num :=
  let edge (k : Nat) : Num :=
    (Num.sub (Num.ofInt 1) (Num.cos (Num.pi.mul (Num.ofRatio k e)))).scale (-1)
  if e = 0 then Num.ofInt 1 else if x < e then edge x else if n < x + e then edge (n - x) else Num.ofInt 1

/-- The gain that undoes the zero-order hold of a 5 GS/s DAC at a frequency in MHz (R50): πf / 5,000 over its sine, taken at
the component's instantaneous frequency (DESIGN CHOICE, log 112: the rule gives the result within 0.2 dB, not the filter). -/
def holdGain (f : Num) : Num :=
  let x := (Num.pi.mul f).div (Num.ofInt 5000)
  if x.isZero then Num.ofInt 1 else x.div (Num.sin x)

/-- Amplitude `a` at a phase in cycles. -/
def phasor (a cycles : Num) : Cx :=
  let fr := (cycles.sub (Num.ofInt cycles.floor)).mul (Num.pi.scale 1)
  { re := a.mul (Num.cos fr), im := a.mul (Num.sin fr) }

/-- The chirp of a drive at DAC sample `x` (200 ps from range sample 0), as a complex amplitude of full scale 1 (R53, R54):
centre −437.5 + 125k MHz, phase 0 at sample 0. -/
def chirpAt (d : Drive) (x : Nat) : Cx :=
  let n := 40 * d.length
  if n ≤ x then {} else
    -- phase in cycles: (f0 + slope t / 2) t, with t = x / 5000 µs and T = n / 5000 µs
    let t := Num.ofRatio x 5000
    let f0 := Num.ofRatio (-875 + 250 * (d.slot : Int) + (if d.up then -(d.bandwidth : Int) else d.bandwidth)) 2
    let sl := Num.ofRatio ((if d.up then (d.bandwidth : Int) else -(d.bandwidth : Int)) * 5000) n
    let e := if d.taper = 1 then n / 20 else if d.taper = 2 then n / 8 else 0
    let a := ((f32Num d.chirp).mul (tukey x n e)).mul (holdGain (f0.add (sl.mul t)))
    phasor a ((f0.add ((sl.mul t).scale (-1))).mul t)

/-- The Kiln tone of a drive at DAC sample `x` (R56): phase 0 at its first sample, 2 ns raised-cosine edges. -/
def toneAt (d : Drive) (x : Nat) : Cx :=
  let n := 5 * d.toneNs
  if n ≤ x then {} else
    phasor (((f32Num d.tone).mul (tukey x n 10)).mul (holdGain (Num.ofRatio d.toneKhz 1000))) (Num.ofRatio (d.toneKhz * x) 5000000)

/-- The pilot at DAC sample `x` of its Tide, counted from the edge (R57, R58): the carrier, its phase inverted by each 1 among
the symbols begun, 5,120 samples a symbol. The phase it has at the edge is free (log 113). -/
def pilotAt (amp khz : Num) (phase : Int) (syms : List Bool) (x : Nat) : Cx :=
  let flips := ((syms.take (x / 5120 + 1)).filter id).length
  let cyc := ((Num.ofRatio x 5000000).mul khz).add ((Num.ofInt phase).scale (-32))
  phasor (amp.mul (holdGain (khz.div (Num.ofInt 1000)))) (cyc.add (Num.ofRatio flips 2))

/-- A complex amplitude as DAC codes (R49, R50): peak code 2,047, limited to ±2,047; IqSwap exchanges the outputs. -/
def dacCodes (swap : Bool) (c : Cx) : Int × Int :=
  let code (v : Num) : Int := clampI (-2047) 2047 (v.mul (Num.ofInt 2047)).nearest
  if swap then (code c.im, code c.re) else (code c.re, code c.im)

/-! ## The outputs -/

/-- The first DAC sample of a launch, in units of 200 ps of local time: early by the transmit latency in use (R30, R72). -/
def State.dacStart (s : State) (q : Port) (t : Nat) : Int := 5 * (t : Int) - (s.port q).opt.latPs / 200

/-- The transmit DACs at `t5` units of 200 ps (R49–R58, R75, R80): the latest launch's chirp and tone where they are lit, and
the pilot where it is sent; 0 V differential in every other state. The pilot is early by the same latency (R30). -/
def State.dacOut (s : State) (q : Port) (t5 : Nat) : Int × Int :=
  let ps := s.port q
  let pulse : Cx := match ps.lastDrive with
    | some (t, d) =>
      let x := (t5 : Int) - s.dacStart q t
      if s.lit q && d.lit && decide (0 ≤ x) then
        let c := chirpAt d x.toNat
        let k := toneAt d x.toNat
        { re := c.re.add k.re, im := c.im.add k.im }
      else {}
    | none => {}
  let x := (t5 : Int) - s.dacStart q s.tide.edge
  let pilot : Cx := if s.pilotSent q && decide (0 ≤ x) then
    pilotAt (s.pr q 0x2100 0x15) (Num.ofInt (s.int 32 (portIndex q 0x2100) 0x16)) (Config.pilotPhase (Port.num q) s.tide.num)
      ps.pair.pilotSyms x.toNat
    else {}
  dacCodes (s.pn q 0x2100 9 == 1) { re := pulse.re.add pilot.re, im := pulse.im.add pilot.im }

/-- TX_GATE's fields: lead, lag, open level and pilot level (R82). -/
def State.gateField (s : State) (q : Port) (hi lo : Nat) : Nat := bitsOf (s.reg (winTx q) 4) hi lo

/-- Outside its open interval the gate is closed, or at the pilot level in the states that R75 gives it (R63, R75). -/
def State.gateRest (s : State) (q : Port) : Nat :=
  let o := (s.port q).opt
  if s.pilotActive q && decide (3 ≤ o.state ∧ o.state ≤ 6) && !o.stopping && s.txDriven q then s.gateField q 29 24 else 0

/-- The code of GATEA or GATEB at `t` ns of local time (R62, R63): open from GateLead before the pulse to GateLag after it,
the pulse being range samples 0 to C − 1 of the latest launch, shifted by GateSkew. -/
def State.gateOut (s : State) (q : Port) (t : Nat) : Nat :=
  let open_ := match (s.port q).lastDrive with
    | some (t0, d) =>
      let a : Int := (t0 : Int) + s.int 16 (portIndex q 0x2100) 0x24
      s.lit q && d.lit && decide (a - s.gateField q 6 0 ≤ t) && decide ((t : Int) < a + 8 * d.length + s.gateField q 14 8)
    | none => false
  if open_ then s.gateField q 21 16 else s.gateRest q

/-- The bias DACs PH, I and Q at `t` ns (R65): the loop's codes with a dither of 3, 4 and 5 kHz while the loop runs, whose
phases are free (log 114); the codes alone otherwise. -/
def State.biasOut (s : State) (q : Port) (k t : Nat) : Nat :=
  let o := (s.port q).opt
  let base := [o.biasPH, o.biasI, o.biasQ].getD k 0
  if o.bias = 1 ∨ o.bias = 2 then
    let cyc := (Num.ofRatio ((3 + k) * t) 1000000).add ((Num.ofInt (Config.ditherPhase (Port.num q) k)).scale (-32))
    let d := (phasor (Num.ofNat (s.pn q 0x2100 0x34)) cyc).im.nearest
    (clampI 0 0xFFFF ((base : Int) + d)).toNat
  else base % 0x10000

end Sys2Proof.Machine
end

