-- ==== Sys2Proof/Machine/Optics.lean ====
section
/-! DEFINITION. Laser, pump, bias loop, transmit latency, launch monitor, interlock (R65–R82, R541). -/
namespace Sys2Proof.Machine
open Sys2Proof

/-- Change a port's optics. -/
def State.modOpt (s : State) (q : Port) (f : Optics → Optics) : State :=
  s.modPort q (fun ps => { ps with opt := f ps.opt })

/-- Change a laser set. -/
def State.modLaser (s : State) (l : Port) (f : LaserSet → LaserSet) : State :=
  s.modPort l (fun ps => { ps with laser := f ps.laser })

/-- The port's TX domain is powered (R75, R494). -/
def State.txOn (s : State) (q : Port) : Bool := s.up && s.domain (10 + Port.num q)

/-- TX_CTRL.ENABLE and the gate fields as firmware sets them when the port leaves state 0, or clears it at state 0 (R82). -/
def State.txEnable (s : State) (q : Port) (on : Bool) : State :=
  let w := winTx q
  let op (i : Nat) : Nat := s.pn q 0x2100 i
  if on then
    if bitOf (s.reg w 0) 0 then s else
      (s.setReg w 4 (op 0x21 * 2 ^ 24 + op 0x20 * 2 ^ 16 + op 0x23 * 2 ^ 8 + op 0x22)).setRegBit w 0 0 true
  else s.setRegBit w 0 0 false

/-- The pump's target: PumpSetpoint, stopped at PumpLimit (R68). -/
def State.pumpTarget (s : State) (q : Port) : Nat := min (s.pn q 0x2100 0x40) (s.pn q 0x2100 0x42)

/-- A setpoint above the limit sets PUMP_LIMIT as the output stops there (R68). -/
def State.pumpTo (s : State) (q : Port) : State :=
  let s' := s.modOpt q (fun o => { o with pump := s.pumpTarget q })
  s'.raiseIf (decide (s.pn q 0x2100 0x42 < s.pn q 0x2100 0x40)) (stTx q) 3

/-- LASI of a laser: LaserCurrent, moved through LaserTuneFine by what fine tracking of a port it serves asks for (R71). -/
def State.lasiLevel (s : State) (l : Port) : Nat :=
  let hz := ((s.served l).find? (fun q => (s.port q).opt.fine)).elim 0 (fun q => (s.port q).opt.fineHz)
  let d := ((Num.ofRatio hz 1000000).div (s.pr l 0x2100 6)).nearest
  (clampI 0 0xFFFF ((s.pn l 0x2100 2 : Nat) + d)).toNat

/-- LAST at step `k` of −15 to +15 of 400 MHz from its set value (R71). -/
def State.sweepLevel (s : State) (l : Port) (k : Nat) : Nat :=
  let d := ((Num.ofInt (400 * ((k : Int) - 15))).div (s.pr l 0x2100 5)).nearest
  (clampI 0 0xFFFF ((s.pn l 0x2100 3 : Nat) + d)).toNat

/-- LAST of a laser: LaserTemperature, or the step at which the sweep of a port it serves stands or has found the pilot (R71). -/
def State.lastLevel (s : State) (l : Port) : Nat :=
  match (s.served l).find? (fun q => (s.port q).opt.sweeping || (s.port q).opt.fine) with
  | some q => s.sweepLevel l (s.port q).opt.sweepStep
  | none => s.pn l 0x2100 3

/-- LASI and LAST at their set values (R69, R70): the ramp of 1 LSB per µs is timing (log 24). -/
def State.laserLevels (s : State) (l : Port) : State :=
  s.modLaser l (fun x => { x with lasi := s.lasiLevel l, last := s.lastLevel l })

/-- Step 3 of R75: from Ready to the pump ramp once the port has an active plan, its foreground calibration has passed
(R100), and it is not in pilot exchange (R357). -/
def State.tryRamp (s : State) (q : Port) : State :=
  let ps := s.port q
  if ps.opt.state = 3 ∧ ¬ ps.opt.stopping ∧ ps.hasPlan ∧ ps.rx.fgPass ∧ s.pn q 0x7010 1 ≠ 1 then
    s.modOpt q (fun o => { o with state := 4, atSet := false })
  else s

/-- With BiasMode 0 the bias DACs of a port out of state 0 carry the manual codes (R65, R80). -/
def State.manualBias (s : State) (q : Port) : State :=
  if s.pn q 0x2100 0x30 = 0 then
    s.modOpt q (fun o => { o with biasPH := s.pn q 0x2100 0x31, biasI := s.pn q 0x2100 0x32, biasQ := s.pn q 0x2100 0x33 })
  else s

/-- Step 1 of R75: the laser settles. BiasState goes on showing hold until step 2 (DESIGN CHOICE, log 116: R67 ties hold to
the laser being off and names no value for a settling laser). -/
def State.settlePort (s : State) (q : Port) : State :=
  ((s.manualBias q).modOpt q (fun o => { o with
    state := 1, bias := if s.pn q 0x2100 0x30 = 1 then 3 else 0, stopping := false
    restart := false, atSet := false, liveKind := 2 })).txEnable q true

/-- A served port's part of a write of 1 to LaserEnable (R75, R76, R79). A port that was interlocked with its laser on resumes
at step 4, also where its bias loop had not yet run, with the bias state it has; one that may not ramp yet waits in state 3
(R21, R75 step 3, R100; log 117). -/
def State.startPort (s : State) (q : Port) : State :=
  if s.txOn q then
    let o := (s.port q).opt
    if o.stopping then s.modOpt q (fun o => { o with restart := true })
    else if o.state = 0 then s.settlePort q
    else if o.state = 7 then
      if o.laserKept then
        (((s.manualBias q).modOpt q (fun o => { o with state := 3, atSet := false })).txEnable q true).tryRamp q
      else s.settlePort q
    else s
  else s

/-- A write of 1 to LaserEnable of a laser set (R75). The refusals of R70 and R503 are `laserRefused`. -/
def State.laserOn (s : State) (l : Port) : State :=
  let s := (s.modLaser l (fun x => { x with en := true })).laserLevels l
  (s.served l).foldl State.startPort s

/-- The state error of a write of 1 to LaserEnable: ILOCK_N open, SafeHold, or with separate lasers the port's PORTEN
strap low (R70, R503). -/
def State.laserRefused (s : State) (l : Port) : Bool :=
  s.power.ilockOpen || s.aon.safeHold || (!s.laserShare && !s.portEn l)

/-- A write of 0 to LaserEnable (R76): gate and DACs mute at once, the pump ramps down. A set that serves no started
port turns off at once. A port in state 7, whose pump is at 0, stays there with its laser off, since only a write of 1 with
ILOCK_N low ends that state (R79; the two rules pull apart here: log 118). -/
def State.laserOff (s : State) (l : Port) : State :=
  let s := (s.served l).foldl (fun s q =>
    let o := (s.port q).opt
    if o.state = 0 ∧ ¬ o.stopping then s
    else if o.state = 7 then s.modOpt q (fun o => { o with
      laserKept := false, sweeping := false, tuned := o.sweepEnd s.tide.edges, fine := false, bias := if s.pn q 0x2100 0x30 = 1 then 3 else 0 })
    else s.modOpt q (fun o => { o with stopping := true, restart := false, sweeping := false, tuned := o.sweepEnd s.tide.edges, fine := false })) s
  if (s.served l).any (fun q => (s.port q).opt.stopping) then s else s.modLaser l (fun _ => {})

/-- The pump has reached 0: LASEN low, OpticsState 0; a LaserEnable of 1 written meanwhile starts anew (R76). -/
def execPortStopComplete (q : Port) (s : State) : Host.Outcome State Fault Refusal :=
  let o := (s.port q).opt
  if s.up && o.stopping then
    let l := s.laserOf q
    let s := (s.modOpt q (fun o => { o with
      state := 0, stopping := false, restart := false, pump := 0, laserKept := false, atSet := false
      bias := if s.pn q 0x2100 0x30 = 1 then 3 else 0 })).txEnable q false
    if o.restart then .next ((s.settlePort q))
    else if (s.served l).any (fun r => (s.port r).opt.state != 0) then .next s
    else .next (s.modLaser l (fun _ => {}))
  else .next s

/-- LaserSettle has passed (R75 steps 1 and 2). -/
def execLaserSettleExpiry (q : Port) (s : State) : Host.Outcome State Fault Refusal :=
  let o := (s.port q).opt
  if s.up && o.state == 1 && !o.stopping then
    if s.pn q 0x2100 0x30 = 1 then
      .next (s.modOpt q (fun o => { o with state := 2, bias := 1, inRun := 0, overRun := 0 }))
    else
      .next (((s.manualBias q).modOpt q (fun o => { o with state := 3, bias := 0 })).tryRamp q)
  else .next s

/-- Eight consecutive Tides within the limit: Track, and the port advances to Ready (R67, R541). -/
def execBiasTrackEntry (q : Port) (s : State) : Host.Outcome State Fault Refusal :=
  let o := (s.port q).opt
  if s.up && o.bias == 1 && decide (8 ≤ o.inRun) then
    let s := s.modOpt q (fun o => { o with bias := 2, overRun := 0 })
    if o.state = 2 ∧ ¬ o.stopping then .next ((s.modOpt q (fun o => { o with state := 3 })).tryRamp q) else .next s
  else .next s

/-- Sixty-four consecutive Tides above the limit: Acquire, and a port in state 4, 5 or 6 drops to state 2, gate and DACs
muted but for the pilot, the pump ramping down (R67, R541). -/
def execBiasReacquire (q : Port) (s : State) : Host.Outcome State Fault Refusal :=
  let o := (s.port q).opt
  if s.up && o.bias == 2 && decide (64 ≤ o.overRun) then
    let s := s.modOpt q (fun o => { o with bias := 1, inRun := 0, overRun := 0 })
    if 4 ≤ o.state ∧ o.state ≤ 6 ∧ ¬ o.stopping then
      .next (s.modOpt q (fun o => { o with state := 2, pump := 0, atSet := false }))
    else .next s
  else .next s

/-- Acquire has not reached Track within 2 s (R67, R511). -/
def execBiasAcquireFail (q : Port) (s : State) : Host.Outcome State Fault Refusal :=
  if s.up && (s.port q).opt.bias == 1 then
    .next ((s.modOpt q (fun o => { o with bias := 4 })).contained (winTx q) 0 1)
  else .next s

/-- The pump reaches its setpoint (R68); from the ramp the port goes on to calibration where no latency is accepted, and
otherwise waits for the next Tide edge (R75 steps 4 to 6). -/
def execPumpRampDone (q : Port) (s : State) : Host.Outcome State Fault Refusal :=
  let o := (s.port q).opt
  if s.up && !o.stopping && decide (4 ≤ o.state ∧ o.state ≤ 6) then
    let s := s.pumpTo q
    if o.state = 4 then
      .next (if o.latOk then s.modOpt q (fun o => { o with atSet := true })
        else s.modOpt q (fun o => { o with state := 5, atSet := false, calTries := 0, calFail := false }))
    else .next s
  else .next s

/-- Where the flash keeps a port's transmit latency. -/
def latencyKey (q : Port) : Nat := Port.num q

/-- The latency in use, and the stored value with it (R72, R73). -/
def State.setLatency (s : State) (q : Port) (v : Int) : State :=
  { s.modOpt q (fun o => { o with latOk := true, latPs := v }) with
    flash := { s.flash with cal := insertKey (latencyKey q) [v] s.flash.cal } }

/-- Two blocks of 1,024 launches have given their mean latencies in ps (R72): accepted within 200 ps, otherwise repeated up to
four times, after which a fault is raised and the port does not go live. -/
def execLatencyCalibrationDone (q : Port) (mean1 mean2 : Int) (s : State) : Host.Outcome State Fault Refusal :=
  let o := (s.port q).opt
  if s.up && o.state == 5 && !o.stopping && !o.atSet && !o.calFail then
    if (mean1 - mean2).natAbs ≤ 200 then
      .next ((s.setLatency q ((mean1 + mean2) / 2)).modOpt q (fun o => { o with atSet := true, calTries := 0 }))
    else if o.calTries < 4 then .next (s.modOpt q (fun o => { o with calTries := o.calTries + 1 }))
    else .next ((s.modOpt q (fun o => { o with calFail := true })).contained (winTx q) 0 2)
  else .next s

/-- At the Tide edge after bring-up the port enters Live (R75 step 6), its foreground calibration having passed (R100), with the
restart and the history clears this brings (R135, R156, R167). A return after a drop to Ready, which R135 does not list, is a soft
restart, the laser having stayed on (DESIGN CHOICE, log 161). -/
def execEnterLive (q : Port) (s : State) : Host.Outcome State Fault Refusal :=
  let ps := s.port q
  let o := ps.opt
  if s.up && s.tide.running && (o.state == 4 || o.state == 5) && o.atSet && !o.stopping && ps.hasPlan && ps.rx.fgPass then
    let s := s.modOpt q (fun o => { o with state := 6, missRun := 0, missRaised := false, latSum := 0, latN := 0,
                                           latPrev := none, liveKind := 1 })
    let s := s.modPort q (fun ps => { ps with rx := { ps.rx with bgOn := true } })
    .next ((s.restartAll q (if o.liveKind = 1 then .soft else .full)).clearHistories q)
  else .next s

/-! ## Launch monitor (R30, R72–R74, R330) -/

/-- Change a launch in flight, at the Swash engine and at the Kiln engine. -/
def State.modLaunch (s : State) (q : Port) (ell : Nat) (f : Launch → Launch) : State :=
  let g (l : Launch) : Launch := if l.ell = ell then f l else l
  s.modPort q (fun ps => { ps with flight := ps.flight.map g, kiln := { ps.kiln with flight := ps.kiln.flight.map g } })

/-- The records that come from now on carry the dark flag, those of launches in flight too (R44). -/
def State.darken (s : State) (q : Port) : State :=
  let g (l : Launch) : Launch := { l with dark := true }
  s.modPort q (fun ps => { ps with flight := ps.flight.map g, kiln := { ps.kiln with flight := ps.kiln.flight.map g } })

/-- No LMON edge within ±100 ns of a Live launch's expected instant (R74). -/
def execLaunchMissing (q : Port) (ell : Nat) (s : State) : Host.Outcome State Fault Refusal :=
  let ps := s.port q
  if s.live q && ps.flight.any (fun l => l.ell == ell && !l.measured && !l.missing) then
    let s := s.modLaunch q ell (fun l => { l with missing := true })
    let s := s.modOpt q (fun o => { o with missCount := satAdd 0xFFFFFFFF o.missCount 1, missRun := o.missRun + 1 })
    let s := s.raise (stTx q) [2]
    let o := (s.port q).opt
    if 16 ≤ o.missRun ∧ ¬ o.missRaised then
      .next ((s.modOpt q (fun o => { o with missRaised := true })).contained (winTx q) 0 3)
    else .next s
  else .next s

/-- An event on LMON_A or LMON_B at `t` ps of local time (R330): the first within ±100 ns of an unmeasured launch's
expected instant measures it (R72); more than 20 ns off schedule is late (R30); outside every window it is stray. -/
def execLmonEvent (q : Port) (s : State) : Host.Outcome State Fault Refusal :=
  match (s.tiu (4 + Port.num q)).events with
  | [] => .next s
  | t :: _ =>
  let s := s.takeEvent (4 + Port.num q)
  if s.up then
    let ofs := s.int 32 (portIndex q 0x2100) 0x50
    let err (l : Launch) : Int := (t : Int) - ofs - (l.time * 1000 : Nat)
    let inWin := (s.port q).flight.filter (fun l => decide ((err l).natAbs ≤ 100000))
    match inWin.find? (fun l => !l.measured) with
    | some l =>
      let late := decide (20000 < (err l).natAbs)
      let s := s.modLaunch q l.ell (fun l => { l with measured := true, late := l.late || late })
      let s := s.modOpt q (fun o => { o with missRun := 0, missRaised := false
                                             latSum := o.latSum + (o.latPs + err l), latN := o.latN + 1 })
      .next (s.raiseIf late stTide (4 + Port.num q))
    | none =>
      if inWin.isEmpty then
        .next (s.modTiu (4 + Port.num q) (fun x => { x with strays := satAdd 0xFFFFFFFF x.strays 1 }))
      else .next s
  else .next s

/-- The mean latency error of the Tide just ended (R73): two successive Tides beyond ±400 ps that agree within 200 ps
move the early start by one DAC sample of 200 ps towards the measured value. -/
def State.latencyEdge (s : State) (q : Port) : State :=
  let o := (s.port q).opt
  if o.latN = 0 then s.modOpt q (fun o => { o with latPrev := none })
  else
    let e := o.latSum / (o.latN : Int) - o.latPs
    let s' := s.modOpt q (fun o => { o with latSum := 0, latN := 0, latPrev := some e })
    if s.live q then
      match o.latPrev with
      | some e0 =>
        if 400 < e.natAbs ∧ 400 < e0.natAbs ∧ (e - e0).natAbs ≤ 200 then
          (s'.setLatency q (o.latPs + (if e < 0 then -200 else 200))).modOpt q (fun o => { o with latPrev := some e })
        else s'
      | none => s'
    else s'

/-! ## The bias loop at a Tide edge (R65, R67) -/

/-- A bias error of the Tide that ends flags the port's outputs of that Tide: the launches whose records have not yet come and
its Lauter sums. Records delivered before the Tide's end, when the lock-in ends, stay as they were (log 119). -/
def State.unlockTide (s : State) (q : Port) : State :=
  let g (l : Launch) : Launch := if l.tide = s.tide.num then { l with biasUnlock := true } else l
  let h (x : LautSum) : LautSum := if x.last.tide = s.tide.num then { x with biasUnlock := true } else x
  s.modPort q (fun ps => { ps with
    flight := ps.flight.map g, kiln := { ps.kiln with flight := ps.kiln.flight.map g }
    laut := { ps.laut with cur := ps.laut.cur.map h, done := ps.laut.done.map h } })

/-- The codes of PH, I and Q after `k` of the 12,288 steps of Acquire's sweep (R67): PH, then I, then Q over its full range in
4,096 steps of 16 LSB, each left at the value `found` that its sweep found (order: DESIGN CHOICE, log 120). -/
def sweepCodes (k : Nat) (was found : List Nat) : List Nat :=
  (upTo 3).map (fun i =>
    if 4096 * (i + 1) ≤ k then found.getD i 0 else if 4096 * i ≤ k then 16 * (k - 4096 * i) else was.getD i 0)

/-- The loop's update at a Tide's end, from the errors of PH, I and Q in DAC LSB that the lock-in measured and the steps of
Acquire's sweep done so far; from step 12,288 on the loop is closed. The null, the quadrature and the closed loop's codes
depend on the board's optics: free values (log 25). -/
def State.biasEdge (s : State) (q : Port) (errs : List Int) (sweep : Nat) : State :=
  let o := (s.port q).opt
  if s.pn q 0x2100 0x30 = 0 then
    -- the manual codes; in state 0 the outputs keep their last value (R80)
    if o.state = 0 then s else s.manualBias q
  -- without samples the loop keeps its biases (R442)
  else if (o.bias = 1 ∨ o.bias = 2) ∧ s.hk.refRdy ∧ s.hk.ready then
    let (a, s) := s.takeFree
    let (b, s) := s.takeFree
    let (c, s) := s.takeFree
    let found := [a % 0x10000, b % 0x10000, c % 0x10000]
    let open_ := o.bias == 1 && decide (sweep < 12288)
    let codes := if open_ then sweepCodes sweep [o.biasPH, o.biasI, o.biasQ] found else found
    let lim := s.pn q 0x2100 0x35
    let over_ := errs.any (fun e => decide (lim < e.natAbs)) && o.bias == 2
    let inside := errs.all (fun e => decide (e.natAbs < lim)) && !open_
    let s := s.modOpt q (fun o => { o with
      biasPH := codes.getD 0 0, biasI := codes.getD 1 0, biasQ := codes.getD 2 0
      inRun := if inside then o.inRun + 1 else 0
      overRun := if over_ then o.overRun + 1 else 0 })
    if over_ then (s.unlockTide q).raise (stTx q) [1] else s
  else s

/-! ## Laser following (R71) -/

/-- Whether a port follows: LaserFollow, and on a shared laser port A before port B (R71). -/
def State.follows (s : State) (q : Port) : Bool :=
  s.pn q 0x2100 7 == 1 && !(s.laserShare && q == .b && s.pn .a 0x2100 7 == 1)

/-- A sweep that runs at a port which no longer follows, or is in takeover (R367), ends: LAST stays where it stands (DESIGN CHOICE,
log 162), and every port the laser serves restarts (R135). -/
def State.endSweep (s : State) (q : Port) : State :=
  if (s.port q).opt.sweeping && (!s.follows q || s.tookOver q) then
    let s := s.modOpt q (fun o => { o with sweeping := false, tuned := o.sweepEnd (s.tide.edges - 1), sweepPass := 0 })
    (s.served (s.laserOf q)).foldl (fun s r => s.restartAll r .full) s
  else s

/-- The dwell of two Tides ends without the far pilot: LAST takes the next step, from −6 GHz to +6 GHz (R71, log 26).
A following port that does not yet sweep begins. -/
def execLaserFollowStep (q : Port) (s : State) : Host.Outcome State Fault Refusal :=
  let o := (s.port q).opt
  let l := s.laserOf q
  if s.up && s.follows q && (s.laserSet l).en && !o.fine && (s.port q).pair.state != 4 then
    let k := if o.sweeping then o.sweepStep + 1 else 0
    let pass := if o.sweeping then (if k = 31 then o.sweepPass + 1 else o.sweepPass) else 0
    let k := if k = 31 then 0 else k
    let s := s.modOpt q (fun o => { o with
      sweeping := true, sweepStep := k, sweepPass := pass
      tuned := some (if o.sweeping then (o.tuned.elim s.tide.edges (·.1)) else s.tide.edges, s.tide.edges) })
    .next (s.modLaser l (fun x => { x with last := s.sweepLevel l k }))
  else .next s

/-- Fine tracking over a Tide (R71 steps 3 and 4): the laser moves towards the far pilot's nominal offset by the error measured,
in Hz, and by no more than 1 MHz/s; LASI follows through LaserTuneFine. A laser higher by an amount places the far pilot lower
by it (log 121). -/
def State.fineEdge (s : State) (q : Port) (err : Option Int) : State :=
  match err with
  | none => s
  | some e =>
    let l := s.laserOf q
    if (s.port q).opt.fine && s.follows q && (s.laserSet l).en then
      let lim : Int := 1000 * s.period
      let s := s.modOpt q (fun o => { o with fineHz := o.fineHz + clampI (-lim) lim e })
      s.modLaser l (fun x => { x with lasi := s.lasiLevel l })
    else s

/-- The far pilot is found: the sweep ends in fine tracking, and every port the laser serves restarts at the next Tide
(R71, R135). -/
def execLaserFollowPilotFound (q : Port) (s : State) : Host.Outcome State Fault Refusal :=
  let o := (s.port q).opt
  if s.up && s.follows q && o.sweeping then
    let s := s.modOpt q (fun o => { o with
      sweeping := false, tuned := o.sweepEnd s.tide.edges, fine := true, fineHz := 0, absent := false, sweepPass := 0 })
    .next ((s.served (s.laserOf q)).foldl (fun s r => s.modPort r (fun ps => { ps with restartNext := true })) s)
  else .next s

/-- Three full sweeps have failed: the partner is absent to the paired-span logic (R71), which then takes its pilot as not
present (log 122). LAST stays at the sweep's last step until the laser's levels are next set (DESIGN CHOICE, log 162). -/
def execLaserFollowSweepFail (q : Port) (s : State) : Host.Outcome State Fault Refusal :=
  let o := (s.port q).opt
  if s.up && o.sweeping && decide (3 ≤ o.sweepPass) then
    let s := s.modOpt q (fun o => { o with
      sweeping := false, tuned := o.sweepEnd s.tide.edges, absent := true, sweepPass := 0 })
    let s := s.modPort q (fun ps => { ps with pair := { ps.pair with present := false, goodRun := 0 } })
    .next ((s.served (s.laserOf q)).foldl (fun s r => s.modPort r (fun ps => { ps with restartNext := true })) s)
  else .next s

/-- The far pilot as the paired-span logic sees it: present, and its port not given up by laser following (R71, R359). -/
def State.farPresent (s : State) (q : Port) : Bool := (s.port q).pair.present && !(s.port q).opt.absent

/-! ## Interlock (R78, R79) -/

/-- A laser set whose stop runs (R76): a port it serves is stopping and none goes on. -/
def State.laserStops (s : State) (l : Port) : Bool :=
  (s.served l).any (fun q => (s.port q).opt.stopping) && (s.served l).all (fun q =>
    let o := (s.port q).opt
    o.stopping || o.state == 0 || (o.state == 7 && !o.laserKept))

/-- ILOCK_N goes high (R78, R79). A stop that runs ends at once, its pump being at 0: the laser goes off, and the port is in
state 7 (DESIGN CHOICE, log 123). Launches in flight become dark (R44). With InterlockLaserOff at 1 every enabled laser set goes off, also one that serves no powered
port. -/
def execInterlockOpen (s : State) : Host.Outcome State Fault Refusal :=
  if s.power.ilockOpen then .next s
  else
    let s : State := { s with power := { s.power with ilockOpen := true } }
    let old := s
    let off (l : Port) : Bool := old.pn l 0x2100 8 == 1 || old.laserStops l
    let s := bothPorts.foldl (fun s q =>
      if s.txOn q then
        let kept := (old.laserSet (s.laserOf q)).en && !off (s.laserOf q)
        let s := (s.manualBias q).modOpt q (fun o => { o with
          state := 7, pump := 0, laserKept := kept, stopping := false, restart := false, atSet := false
          ilockCount := satAdd 0xFFFFFFFF o.ilockCount 1
          bias := if kept then o.bias else if s.pn q 0x2100 0x30 = 1 then 3 else 0
          sweeping := o.sweeping && kept, tuned := if kept then o.tuned else o.sweepEnd s.tide.edges, fine := o.fine && kept })
        ((s.darken q).txEnable q true).raise (stTx q) [0]
      else s) s
    .next (bothPorts.foldl (fun s l => if off l then s.modLaser l (fun _ => {}) else s) s)

/-- ILOCK_N returns low: nothing restarts (R79). -/
def execInterlockClose (s : State) : Host.Outcome State Fault Refusal :=
  .next { s with power := { s.power with ilockOpen := false } }

end Sys2Proof.Machine
end

