-- ==== Sys2Proof/Machine/Receive.lean ====
section
/-! DEFINITION. Receive conversion and its calibration (R83–R113), and the calibration framework (R457–R460). -/
namespace Sys2Proof.Machine
open Sys2Proof

/-! ## The calibration framework -/

/-- Whether two runs agree within the tolerances, which repeat along the result. -/
def runsAgree (tol a b : List Int) : Bool :=
  a.length == b.length &&
    ((upTo a.length).all (fun i =>
      decide ((a.getD i 0 - b.getD i 0).natAbs ≤ (tol.getD (i % tol.length) 0).natAbs)))

/-- The mean of two runs. -/
def runsMean (a b : List Int) : List Int := (a.zip b).map (fun x => divRound (x.1 + x.2) 2)

/-- A run ends (R457): the first of a pair waits for the second; two that agree are accepted, their mean the new target, to which
the correction in use moves (R458); two that do not count a failure and change nothing. The verdict is none after a first run. -/
def CalItem.run (c : CalItem) (tol : List Int) (now : Nat) (res : List Int) : CalItem × Option Bool :=
  match c.prev with
  | none => ({ c with prev := some res }, none)
  | some r0 =>
    if runsAgree tol r0 res then
      ({ c with prev := none, target := runsMean r0 res, state := 1, count := satAdd 0xFFFFFFFF c.count 1, time := now
                tides := 0, tries := 0 }, some true)
    else ({ c with prev := none, fails := satAdd 0xFFFFFFFF c.fails 1, tries := c.tries + 1 }, some false)

/-- Move a value towards its target by at most a step (R458). -/
def stepTo (step u t : Int) : Int := if u < t then min t (u + step) else max t (u - step)

/-- One Tide's movement of a correction (R458); the steps repeat along it. Before any is in use there is none: 0. -/
def CalItem.move (c : CalItem) (steps : List Int) : CalItem :=
  { c with use := (upTo c.target.length).map (fun i =>
      let t := c.target.getD i 0
      stepTo (steps.getD (i % steps.length) 1) (c.use.getD i 0) t) }

/-- The window is lost at a commit (R459): the run in progress is abandoned, the corrections hold, the item is stale. -/
def CalItem.noWindow (c : CalItem) : CalItem := { c with prev := none, window := false, state := 3 }

/-- The window is tested at an epoch commit (R459); a change of it abandons the run in progress (R460). -/
def CalItem.test (c : CalItem) (has : Bool) : CalItem :=
  if has then { c with window := true, prev := if c.window then c.prev else none } else c.noWindow

/-! ## Foreground calibration (R100) -/

/-- Change a port's converters. -/
def State.modRx (s : State) (q : Port) (f : Rx → Rx) : State := s.modPort q (fun ps => { ps with rx := f ps.rx })

/-- Domains of the RX and KILN blocks (R494). -/
def State.rxOn (s : State) (q : Port) (kiln : Bool) : Bool :=
  s.up && s.domain ((if kiln then 8 else 6) + Port.num q)

/-- A 0-to-1 change of RX_CTRL.ENABLE or KILN_CTRL.ENABLE starts a foreground calibration (R100, R112). -/
def State.startForeground (s : State) (q : Port) (kiln : Bool) : State :=
  s.modRx q (fun r => if kiln then { r with kfgRunning := true, kfgTries := 0, kfgPass := false, kfgFail := false }
    else { r with fgRunning := true, fgTries := 0, fgPass := false })

/-- RX_CFG from the objects in force (R94, R112): the path delay with the own latency, to the nearest converter sample, as whole
range samples and a commutator start; WortShift; RxInputSwap. The residual error is at most 0.4 ns. -/
def State.rxConfig (s : State) (q : Port) : State :=
  let n := min 2559 ((s.pn q 0x2100 0x60 + Config.rxLatency + 400) / 800)
  s.setReg (winRx q) 4 (s.pn q 0x2100 0x69 * 2 ^ 16 + n / 10 * 2 ^ 8 + n % 10 * 2 ^ 4 + s.pn q 0x2100 0x61)

/-- Bins of a shot (R179). -/
def kilnBins (mode16 : Bool) (w : Nat) : Nat := ceilDiv (10 * w) (if mode16 then 32 else 64)

/-- KILN_CFG, KILN_BINS and KILN_CTRL.TONE_EN from the objects in force (R17, R202). -/
def State.kilnConfig (s : State) (q : Port) : State :=
  let k (i : Nat) : Nat := s.pn q 0x4010 i
  let m16 := k 5 == 16
  let w := winKiln q
  let s := s.setReg w 4 (k 0xF % 32 * 2 ^ 16 + k 6 % 32 * 2 ^ 8 + bit (k 7 == 1) * 2 + bit m16)
  (s.setReg w 8 (kilnBins m16 (s.plan q).w % 2 ^ 16)).setRegBit w 0 1 (s.kilnOn q)

/-- SW_CFG, SW_START and SW_COUNT from the objects in force, the points those of the plan the port runs (R144, R366). -/
def State.swashConfig (s : State) (q : Port) : State :=
  let v := s.plan q
  let w := winRx q
  let s := s.setReg w 0x204 (v.g % 128 * 2 ^ 16 + v.pitch % 128 * 2 ^ 8 + s.pn q 0x3100 5 % 4 * 2 ^ 4 + bit (s.pn q 0x3100 0xB == 1) * 8)
  (s.setReg w 0x208 (v.r0 % 2 ^ 17)).setReg w 0x20C (v.n % 2 ^ 18)

/-- Firmware sets ENABLE of the RX or KILN block, having loaded its RWS fields from the objects (R100, R112). -/
def execRxForegroundCal (q : Port) (kiln : Bool) (s : State) : Host.Outcome State Fault Refusal :=
  let w := if kiln then winKiln q else winRx q
  if s.rxOn q kiln && !bitOf (s.reg w 0) 0 then
    let s := if kiln then s.kilnConfig q else s.rxConfig q
    .next ((s.setRegBit w 0 0 true).startForeground q kiln)
  else .next s

/-- A foreground calibration's result is in use at once, no record being in progress. It counts as an accepted run for the stale
limit, and ends a background pair in progress (DESIGN CHOICE, log 164). -/
def CalItem.foreground (c : CalItem) (res : List Int) : CalItem :=
  { c with prev := none, target := res, use := res, state := 1, tides := 0 }

/-- A foreground calibration ends (R100): with a pass its corrections `res` are in use, and the port may go on; a failure is
repeated once, and the second raises a contained fault. -/
def execRxForegroundCalDone (q : Port) (kiln pass : Bool) (res : List Int) (s : State) : Host.Outcome State Fault Refusal :=
  let r := (s.port q).rx
  if s.rxOn q kiln && (if kiln then r.kfgRunning else r.fgRunning) then
    if pass then
      let s := s.modRx q (fun r => if kiln then { r with kfgRunning := false, kfgPass := true, kCal := r.kCal.foreground res }
        else { r with fgRunning := false, fgPass := true, cal := r.cal.foreground res })
      .next (if kiln then s else s.tryRamp q)
    else
      let tries := (if kiln then r.kfgTries else r.fgTries) + 1
      let s := s.modRx q (fun r => if kiln then { r with kfgTries := tries, kfgRunning := tries < 2, kfgFail := 2 ≤ tries }
        else { r with fgTries := tries, fgRunning := tries < 2 })
      let s := s.raise (if kiln then stKAdc q else stRx q) [if kiln then 2 else 3]
      if 2 ≤ tries then
        let s := s.modRx q (fun r => if kiln then { r with kCal := { r.kCal with state := 2 } }
          else { r with cal := { r.cal with state := 2 } })
        .next (s.contained (if kiln then winKiln q else winRx q) 0 2)
      else .next s
  else .next s

/-! ## Background calibration (R101–R104) -/

/-- Agreement of a converter run (R461), in units of 0.001 dB, 0.001° and 0.01 LSB. -/
def rxTol : List Int := [10, 100, 50]

/-- A Tide's movement of a converter correction, in the same units: 0.005° lies below one LSB of phase, 0.0055° (R103; the sizes
are DESIGN CHOICE, log 127). -/
def rxStep : List Int := [1, 5, 1]

/-- Enough tone windows for a run: 1,024 of each slot channel, or of the Kiln converters (R103, R104). -/
def Rx.windowsDone (r : Rx) (kiln : Bool) : Bool :=
  if kiln then decide (1024 ≤ r.kWindows) else (upTo 8).all (fun k => decide (1024 ≤ r.windows.getD k 0))

/-- A background run of 1,024 tone windows ends (R103, R104). CAL_HOLD holds it off; it needs no optical state once the port has
been Live. -/
def execRxBackgroundCalRun (q : Port) (kiln : Bool) (res : List Int) (s : State) : Host.Outcome State Fault Refusal :=
  let r := (s.port q).rx
  let c := if kiln then r.kCal else r.cal
  let ok := if kiln then r.kfgPass else r.fgPass
  if s.rxOn q kiln && ok && r.bgOn && c.window && r.windowsDone kiln && !bitOf (s.reg (winRx q) 0) 1 then
    let (c', v) := c.run rxTol s.time.now res
    let s := s.modRx q (fun r => if kiln then { r with kCal := c', kWindows := 0 }
      else { r with cal := c', windows := List.replicate 8 0 })
    .next (s.raiseIf (v == some false) (if kiln then stKAdc q else stRx q) (if kiln then 2 else 3))
  else .next s

/-- 65,536 Tides without an accepted run (R104). -/
def execRxCalStale (q : Port) (kiln : Bool) (s : State) : Host.Outcome State Fault Refusal :=
  let r := (s.port q).rx
  let c := if kiln then r.kCal else r.cal
  if s.rxOn q kiln && decide (65536 ≤ c.tides) then
    .next (s.modRx q (fun r => if kiln then { r with kCal := { c with state := 3 } } else { r with cal := { c with state := 3 } }))
  else .next s

/-- A clip count with its status bits and the escalation over 16 Tides (R89, R90): the new run and whether the fault is
raised now. -/
def clipRun (over_ raised : Bool) (run : Nat) : Nat × Bool × Bool :=
  let run := if over_ then run + 1 else 0
  let fire := over_ && decide (16 ≤ run) && !raised
  (run, if over_ then raised || fire else false, fire)

end Sys2Proof.Machine
end

