-- ==== Sys2Proof/Machine/Channel.lean ====
section
/-! DEFINITION. From converter codes to channels: range alignment, input exchange, the slot channeliser, the Kiln filter bank,
clips, tail windows and the reference section (R33, R35, R83–R108, R178, R179, R201). -/
namespace Sys2Proof.Machine
open Sys2Proof

/-! ## Converter samples -/

/-- The value of converter sample `n` of a list that begins at sample `first`; 0 where it is not listed. -/
def codeAt (first : Int) (l : List Int) (n : Int) : Int := if n < first then 0 else l.getD (n - first).toNat 0

/-- X-I, X-Q, Y-I and Y-Q after INPUT_SWAP (R85): bit 0 exchanges the pairs, then bits 1 and 2 I and Q of X and of Y. -/
def swapInputs (swap : Nat) (c : List (List Int)) : List (List Int) :=
  let g (i : Nat) : List Int := c.getD (if bitOf swap 0 then (i + 2) % 4 else i) []
  (if bitOf swap 1 then [g 1, g 0] else [g 0, g 1]) ++ (if bitOf swap 2 then [g 3, g 2] else [g 2, g 3])

/-- The polarisation (0 X, 1 Y) that a Rayleigh converter serves (R85). -/
def polOf (swap conv : Nat) : Nat := if bitOf swap 0 then 1 - conv / 2 else conv / 2

/-- RX_CFG as the engine acts on it (R112). -/
def State.inputSwap (s : State) (q : Port) : Nat := bitsOf (s.reg (winRx q) 4) 2 0

/-- The delay of a record in converter samples: DELAY_RS and START_PHASE, of which 10 to 15 act as 9 (R94, R112). -/
def State.rxDelay (s : State) (q : Port) : Nat :=
  10 * bitsOf (s.reg (winRx q) 4) 15 8 + min 9 (bitsOf (s.reg (winRx q) 4) 7 4)

/-- The Kiln path's delay in converter samples: KilnPathDelay and the own latency, to the nearest sample (R94, R179). -/
def State.kilnDelay (s : State) (q : Port) : Nat := (s.pn q 0x2100 0x6C + Config.kilnLatency + 400) / 800

/-- e^(2πj k / n). -/
def turnOf (n : Nat) (k : Int) : Cx :=
  let x := (Num.pi.scale 1).mul (Num.ofRatio (k % (n : Int)) n)
  { re := x.cos, im := x.sin }

/-! ## Prototype filters (R97, R178) -/

/-- Tap `t` of `n` of a windowed low pass, in 2^(−30), with its edge at the fraction `a` / `b` of the sample rate: a sinc under the
four-term Blackman–Harris window. -/
def lowPassTap (n a b t : Nat) : Int × Int :=
  let x : Int := (t : Int) - (n / 2 : Nat)
  let arg (k : Nat) : Num := Num.pi.mul (Num.ofRatio (2 * k * t) (n - 1))
  let w := (((Num.dec 35875 5).sub ((Num.dec 48829 5).mul (arg 1).cos)).add ((Num.dec 14128 5).mul (arg 2).cos)).sub
    ((Num.dec 1168 5).mul (arg 3).cos)
  let h := if x = 0 then Num.ofRatio (2 * a) b else
    (Num.sin (Num.pi.mul (Num.ofRatio (2 * a * x) b))).div (Num.pi.mul (Num.ofInt x))
  (((h.mul w).scale 30).nearest, 0)

/-- `n` taps of such a filter. -/
def lowPass (n a b : Nat) : List (Int × Int) := (upTo n).map (lowPassTap n a b)

/-- A filter's response at k / n of the sample rate. -/
def respAt (taps : List (Int × Int)) (n : Nat) (k : Int) : Cx :=
  Cx.sum ((upTo taps.length).map (fun (t : Nat) => (Cx.ofInts (taps.getD t (0, 0))).mul (turnOf n (-(k * t)))))

/-- 10 log10 of a ratio of powers lies from `lo` to `hi`, in 0.01 dB. -/
def withinDb (lo hi : Int) (x : Num) : Bool :=
  (Num.exp10 (Num.ofRatio lo 1000)).le x && x.le (Num.exp10 (Num.ofRatio hi 1000))

/-- Whether a filter has a stated response, on a grid of n points of the sample rate (log 124): flat within `flat` of its gain at the
centre up to point `pass`, at or below −`stop` from point `from_` on, and within 0.1 dB of −3 dB at the point `half` where one is
stated; levels in 0.01 dB. -/
def meetsResponse (taps : List (Int × Int)) (n pass from_ : Nat) (half : Option Nat) (flat stop : Int) : Bool :=
  let g := (respAt taps n 0).pow
  decide (0 < g.m) && (upTo (n / 2 + 1)).all (fun k => [(k : Int), -(k : Int)].all (fun j =>
    let x := (respAt taps n j).pow.div g
    (decide (pass < k) || withinDb (-flat) flat x) && (decide (k < from_) || x.le (Num.exp10 (Num.ofRatio (-stop) 1000)))
      && (half != some k || withinDb (-311) (-291) x)))

/-- The channeliser's prototype (R97): any with a pass band of ±50 MHz flat within 0.05 dB and 80 dB of attenuation beyond ±75 MHz;
where Config's is none, a windowed low pass that is. The grid is 0.1 MHz. -/
def rxProto : List (Int × Int) :=
  let l := (upTo Config.rxTaps).map Config.rxTap
  if meetsResponse l 12500 500 750 none 5 8000 then l else lowPass 451 1 20

/-- The Kiln filter bank's prototype (R178): any that is flat within 0.1 dB to ±0.31 of the spacing, at −3 dB half a spacing away and
60 dB down beyond one; where Config's is none, a windowed low pass that is. The grid is 1/640 of the spacing. -/
def kilnProto (m16 : Bool) : List (Int × Int) :=
  let l := (upTo (Config.kilnTaps m16)).map (Config.kilnTap m16)
  let n : Nat := if m16 then 32 else 64
  if meetsResponse l (640 * n) 198 640 (some 320) 10 6000 then l else lowPass (10 * n + 1) 5604 (10000 * n)

/-- One output of a polyphase channel: the taps on the complex stream of codes `i`, `q` that begins at sample `first`, the
newest tap on the sample `m` after the reference, which is sample `d`; the channel's centre is `c` / `n` of the sample rate,
its phase is 0 at the reference (R98), and its gain at the centre 1. -/
def channelOut (taps : List (Int × Int)) (n : Nat) (c : Int) (first : Int) (i q : List Int) (d m : Int) : Cx :=
  let z := Cx.sum ((upTo taps.length).map (fun (t : Nat) =>
    let k : Int := m - t
    (Cx.ofInts (taps.getD t (0, 0))).mul ((Cx.ofInts (codeAt first i (d + k), codeAt first q (d + k))).mul (turnOf n (-(c * k))))))
  let g := respAt taps n 0
  (z.mul g.conj).smul ((Num.ofInt 1).div g.pow)

/-- A 20-bit two's complement value (R108). -/
def sat20 (x : Num) : Int := clampI (-524288) 524287 x.nearest

/-! ## The slot channeliser (R96–R98) -/

/-- Codes in 1/256 LSB after the corrections in use; where there are none, as they are (R86, R100). -/
def correctCodes (conv chan : Nat) (use codes : List Int) : List Int :=
  if use.all (· == 0) then codes.map (· * 256) else Config.rxCorrect conv chan use codes

/-- The corrected and exchanged streams of a port's Rayleigh converters, for a channel (R85, R100). -/
def State.rxInputs (s : State) (q : Port) (c : Nat) (r : SlotRecord) : List (List Int) :=
  swapInputs (s.inputSwap q) ((upTo 4).map (fun i => correctCodes i c (s.port q).rx.cal.use (r.codes.getD i [])))

/-- Channel c at range sample r of a launch, one polarisation: centre −562.5 + 125 c MHz, one complex sample every ten converter
samples (R96). A full-scale tone at the centre gives 262,016 = 128 × 2,047 (R108). -/
def chanSample (c : Nat) (first : Int) (i q : List Int) (d : Nat) (r : Int) : Int × Int :=
  let z := channelOut rxProto 20 (2 * (c : Int) - 9) first i q d (10 * r + 9)
  (sat20 (z.re.scale (-1)), sat20 (z.im.scale (-1)))

/-- Range samples `lo` to `hi` − 1 of a channel in both polarisations, range sample 0 being the launch's (R94, R96). -/
def State.channel (s : State) (q : Port) (c : Nat) (r : SlotRecord) (lo hi : Int) : List (Int × Int) × List (Int × Int) :=
  let v := s.rxInputs q c r
  let one (p : Nat) : List (Int × Int) := (upTo (hi - lo).toNat).map (fun (k : Nat) =>
    chanSample c r.first (v.getD (2 * p) []) (v.getD (2 * p + 1) []) (s.rxDelay q) (lo + k))
  (one 0, one 1)

/-! ## Clips (R87, R88) -/

/-- A code at an end of the converter's range. -/
def clipped (x : Int) : Bool := decide (x ≤ -2048) || decide (2047 ≤ x)

/-- The clips of one converter's codes: the range sample of the launch whose 8 ns holds each (R87). -/
def clipsOf (first : Int) (d : Nat) (l : List Int) : List Int :=
  (upTo l.length).filterMap (fun (k : Nat) => if clipped (l.getD k 0) then some ((first + k - d) / 10) else none)

/-- Where a launch's record lies outside its blind zone, ns. -/
def Launch.span (l : Launch) : Nat × Nat := (l.time + 8 * l.cfg.b, l.time + 8 * (l.cfg.w + l.cfg.c))

/-- An instant lies in one of some spans. -/
def inSpans (l : List (Nat × Nat)) (t : Int) : Bool := l.any (fun e => decide ((e.1 : Int) ≤ t) && decide (t < e.2))

/-- The records of a port, past and in flight, outside their blind zones. -/
def State.recordSpans (s : State) (q : Port) : List (Nat × Nat) :=
  (s.port q).rx.spans ++ (s.port q).flight.map Launch.span

/-- The clips of a record that are marked and counted (R88), as converter and range sample: those that lie in the record of some
launch outside its blind zone. -/
def State.clipList (s : State) (q : Port) (l : Launch) (r : SlotRecord) : List (Nat × Int) :=
  let sp := l.span :: s.recordSpans q
  (upTo 4).flatMap (fun c => ((clipsOf r.first (s.rxDelay q) (r.codes.getD c [])).filter (fun k =>
    inSpans sp ((l.time : Int) + 8 * k))).map (fun k => (c, k)))

/-- The range samples of a record that clips mark in a polarisation: two before to two after each clip that lies in the record
while it is in progress (R87). -/
def marksOf (v : Cfg) (swap : Nat) (clips : List (Nat × Int)) (pol : Nat) : List Nat :=
  let hit : List Nat := clips.filterMap (fun c =>
    if polOf swap c.1 = pol ∧ 0 ≤ c.2 ∧ c.2.toNat < v.w + v.c then some c.2.toNat else none)
  hit.flatMap (fun r => (upTo 5).filterMap (fun d => if r + d < 2 then none else some (r + d - 2)))

/-- A mark lies on a sample from `lo` to `hi`. -/
def marked (m : List Nat) (lo hi : Nat) : Bool := m.any (fun r => decide (lo ≤ r) && decide (r ≤ hi))

/-! ## One launch's slot stream (R108) -/

/-- A slot stream: range samples B to W + C − 1 of X and Y, 20 bits each, the marked range samples of each, and the points whose
state is lost. -/
structure Stream where
  x : List (Int × Int)
  y : List (Int × Int)
  mx : List Nat
  my : List Nat
  lost : List Nat
  deriving DecidableEq, Repr

/-- The stream of a launch's slot, channel k + 1 (R96, R108). -/
def State.slotStream (s : State) (q : Port) (l : Launch) (r : SlotRecord) : Stream :=
  let v := l.cfg
  let z := s.channel q (l.slot + 1) r v.b (v.w + v.c)
  let clips := s.clipList q l r
  { x := z.1, y := z.2, mx := marksOf v (s.inputSwap q) clips 0, my := marksOf v (s.inputSwap q) clips 1, lost := r.lost }

/-- Sum of the squared magnitudes of samples. -/
def powerOf (l : List (Int × Int)) : Num := Num.ofInt (sumI (l.map (fun z => z.1 * z.1 + z.2 * z.2)))

/-- 262,016 squared: the power of a full-scale tone (R108). -/
def tonePower : Num := Num.ofInt (262016 * 262016)

/-- A level in 0.01 dB below full scale in 16 bits, of `n` samples of summed power `p`; all ones of none. -/
def levelBelow (p : Num) (n : Nat) : Nat :=
  if n = 0 ∨ p.m ≤ 0 then 0xFFFF
  else clampN 0 0xFFFF (((Num.ofInt 10).mul ((tonePower.mul (Num.ofNat n)).div p).db).mul (Num.ofInt 10)).nearest.toNat

/-- The tail window before a launch (R34): the previous launch of the slot has given its record, and its rotation is odd (R101);
range samples of this launch. -/
def State.tailBefore (s : State) (q : Port) (l : Launch) : Option (Int × Int) :=
  let v := l.cfg
  let n := max 1 (slotsOf v.mask).length
  match (s.port q).rx.prev.getD l.slot none with
  | some (ell, t) =>
    if ell + n = l.ell ∧ ell / n % 2 = 1 then
      let ofs := ((t : Int) - l.time) / 8
      some (ofs + v.w + v.c, ofs + floorX v.p v.m n)
    else none
  | none => none

/-- A launch's record at the receiver: the clips counted for the Tide (R88, R89), the reference section's power (R107), the tail
window's (R35, R119). A clip that came before the present Tide's edge was counted at that edge. -/
def State.rxRecord (s : State) (q : Port) (l : Launch) (r : SlotRecord) (st : Stream) : State :=
  let v := l.cfg
  let seen := (s.port q).rx.spans
  let now := (s.clipList q l r).filter (fun c =>
    let t := (l.time : Int) + 8 * c.2
    !inSpans seen t && decide ((s.tide.edge : Int) ≤ t))
  let ref := fun (z : List (Int × Int)) => (z.drop (v.refStart - v.b)).take v.refLen
  let tail := s.tailBefore q l
  let tx := tail.elim ([], []) (fun w => s.channel q (l.slot + 1) r w.1 w.2)
  s.modRx q (fun x => { x with
    clips := (upTo 4).map (fun c => x.clips.getD c 0 + (now.filter (fun e => e.1 == c)).length)
    refSum := x.refSum.add ((powerOf (ref st.x)).add (powerOf (ref st.y))), refN := x.refN + (ref st.x).length
    tails := modAt x.tails l.slot (fun e => (e.1.add (powerOf tx.1), e.2.1.add (powerOf tx.2), e.2.2 + tx.1.length))
    prev := setAt x.prev l.slot (some (l.ell, l.time))
    spans := l.span :: x.spans.filter (fun e => decide (l.time < e.2)) })

/-! ## The Tide edge at the converters (R89, R90, R103, R104, R107, R458) -/

/-- Clips of records still in progress, per converter of `n`: those in a record in flight that no record that has come holds. -/
def edgeClips (n : Nat) (flight seen : List (Nat × Nat)) (l : List (Nat × Nat)) : List Nat :=
  let hit := l.filter (fun e => inSpans flight e.2 && !inSpans seen e.2)
  (upTo n).map (fun c => (hit.filter (fun e => e.1 == c)).length)

/-- A Tide's end at the Rayleigh converters: clip counts, the reference section's mean power over the Tide's records, the tones of
disabled slots' channels, each 1 µs from the edge, and the corrections' movement, which CAL_HOLD stops. A Tide without recorded
launches has no mean: RX_REF_PWR reads all ones, and REF_LOW is set (DESIGN CHOICE, log 165). -/
def State.rxEdge (s : State) (q : Port) (m : RxMeas) : State :=
  let r := (s.port q).rx
  let lim := s.pn q 0x2100 0x66
  let extra := edgeClips 4 ((s.port q).flight.map Launch.span) r.spans m.clips
  let clips := (upTo 4).map (fun c => r.clips.getD c 0 + extra.getD c 0)
  let over_ := clips.any (fun n => decide (lim < n))
  let (run, raised, fire) := clipRun over_ r.overRaised r.overRun
  let ref := levelBelow r.refSum r.refN
  let hold := bitOf (s.reg (winRx q) 0) 1
  let mask := (s.plan q).mask
  let tone := s.bgRuns q
  let s := s.modRx q (fun r => { r with
    lastClips := clips, clips := [0, 0, 0, 0], clipCount := satAdd 0xFFFFFFFF r.clipCount (sumN clips)
    overRun := run, overRaised := raised, peaks := m.peaks, refPwr := ref, refSum := Num.zero, refN := 0
    windows := (upTo 8).map (fun k => r.windows.getD k 0 + bit (tone && !bitOf mask k))
    cal := { (if hold then r.cal else r.cal.move rxStep) with tides := r.cal.tides + 1 } })
  let bits := (if sumN clips != 0 then [0] else []) ++ (if over_ then [1] else [])
    ++ (if 100 * s.pn q 0x2100 0x64 < ref then [2] else [])
  let s := s.raise (stRx q) bits
  let s := if tone then ((upTo 8).filter (fun k => !bitOf mask k)).foldl (fun s k =>
    s.emit (.calTone q k ((s.tide.num + 1) * (s.nat 0x2000 1 * 1000000)) 1000 (calToneKhz s.tide.num) (-40))) s else s
  if fire then s.contained (winRx q) 0 1 else s

/-- A Tide's end at the Kiln converters (R90). -/
def State.kilnAdcEdge (s : State) (q : Port) (m : RxMeas) : State :=
  let r := (s.port q).rx
  let lim := s.pn q 0x2100 0x66
  let span (l : Launch) : Nat × Nat := (l.time, l.time + 8 * l.cfg.w)
  let extra := edgeClips 2 ((s.port q).kiln.flight.map span) [] m.kClips
  let clips := (upTo 2).map (fun c => r.kClips.getD c 0 + extra.getD c 0)
  let over_ := clips.any (fun n => decide (lim < n))
  let (run, raised, fire) := clipRun over_ r.kOverRaised r.kOverRun
  let s := s.modRx q (fun r => { r with
    kLastClips := clips, kClips := [0, 0], kOverRun := run, kOverRaised := raised, kPeaks := m.kPeaks
    kCal := { r.kCal with tides := r.kCal.tides + 1 } })
  let s := s.raise (stKAdc q) ((if sumN clips != 0 then [0] else []) ++ (if over_ then [1] else []))
  if fire then s.contained (winKiln q) 0 1 else s

/-- A slot stream's mean power over the Tide's tail windows of odd rotations exceeds TailPowerLimit below full scale (R35); not
tested in PairState 2, 3 and 5 (R364). -/
def State.farReturn (s : State) (q : Port) : State :=
  let st := (s.port q).pair.state
  let over_ := (s.port q).rx.tails.any (fun e => decide (0 < e.2.2)
    && (tonePower.mul (Num.ofNat e.2.2)).lt ((e.1.add e.2.1).mul (Num.ofDb (s.pn q 0x2010 0xA))))
  s.raiseIf (over_ && (s.port q).hasPlan && st != 2 && st != 3 && st != 5) stTide (6 + Port.num q)

/-! ## The tone's alias (R201) -/

/-- The guard channel that holds the Rayleigh alias of the Kiln tone; none where the alias lies within ±500 MHz. -/
def aliasChannel (khz : Nat) : Option Nat :=
  let a : Int := (khz : Int) - (if khz < 1875000 then 1250000 else 2500000)
  if a ≤ -500000 then some 0 else if 500000 ≤ a then some 9 else none

/-- A launch's record at the alias monitor (R201): the mean power over range samples B to B + 1,023 of the guard channel on a slot 0
launch, less the same on the launch that follows. -/
def State.aliasRecord (s : State) (q : Port) (l : Launch) (r : SlotRecord) : State :=
  match aliasChannel (s.pn q 0x4010 2) with
  | none => s
  | some c =>
    let b := l.cfg.b
    let z := s.channel q c r b (b + 1024)
    let p := (powerOf z.1).add (powerOf z.2)
    s.modPort q (fun ps => { ps with kiln :=
      let k := ps.kiln
      if l.slot = 0 ∧ l.tone then { k with aliasWait := some p }
      else match k.aliasWait with
        | some p0 => { k with aliasWait := none, aliasSum := k.aliasSum.add (p0.sub p), aliasN := k.aliasN + 1 }
        | none => k })

/-! ## The Kiln filter bank (R174, R178, R179) -/

/-- Channel c of bin i of a shot: centre −302.734375 + 19.53125 c MHz with 64 converter samples a bin, or −292.96875 + 39.0625 c
MHz with 32; the Kiln I and Q inputs exchanged first by KILN_CFG.IQ_SWAP (R174, R178). -/
def kilnSample (m16 swap : Bool) (use : List Int) (d : Nat) (r : KilnRecord) (i c : Nat) : Cx :=
  let v (k : Nat) : List Int := correctCodes (4 + k) 0 use (r.codes.getD k [])
  let len : Nat := if m16 then 32 else 64
  let z := channelOut (kilnProto m16) (2 * len) (2 * (c : Int) - (if m16 then 15 else 31)) r.first
    (if swap then v 1 else v 0) (if swap then v 0 else v 1) d (len * i + (len - 1))
  { re := z.re.scale (-8), im := z.im.scale (-8) }

/-- The clips of a Kiln converter inside a record of `bins` bins: their times in converter samples from t_launch (R90). -/
def kilnClips (m16 : Bool) (bins d : Nat) (first : Int) (l : List Int) : List Int :=
  (upTo l.length).filterMap (fun (k : Nat) =>
    let n := first + k - d
    if clipped (l.getD k 0) && decide (0 ≤ n) && decide (n < (bins * (if m16 then 32 else 64) : Nat)) then some n else none)

end Sys2Proof.Machine
end

