-- ==== Sys2Proof/Machine/Swash.lean ====
section
/-! DEFINITION. The Swash engine (R114–R144), the clip marks of a record (R87, R88) and wort records (R109, R110). -/
namespace Sys2Proof.Machine
open Sys2Proof

/-! ## Where records go -/

/-- The time of the first launch of a launch's Tide, due or made. -/
def Launch.tideTime (l : Launch) : Nat := l.time - 8 * floorX l.cfg.p l.cfg.m l.j

/-- Hand a record to a Cellar ring and to the export DMA, as its destinations say (R141, R162, R169, R239, R423). -/
def State.deliver (s : State) (q : Port) (cel : Bool) (ring type : Nat) (exp : Bool) (kind time ell lt ch : Nat)
    (bytes : List Byte) : State :=
  let s := if cel then s.toRing q ⟨ring, type, time, ell, bytes, lt, ch⟩ else s
  if exp then s.toExport ⟨kind, q, type, time, ell, bytes, false⟩ else s

/-- Hand a record to the Brewhouse's stream port (R141, R162, R214). -/
def State.toBrew (s : State) (q : Port) (r : RingRec) : State :=
  s.modPort q (fun ps => { ps with brewIn := ps.brewIn ++ [r] })

/-- Send a record as a class 3 stream to the acting manager, in frames of up to 1,484 bytes (R162, R338; log 27). -/
def State.stream (s : State) (q : Port) (bytes : List Byte) : State :=
  if s.chain.iAct ∨ s.chain.acting = 0 then s else
    (pieces 1484 (bytes.length + 1) bytes).foldl
      (fun (a : Nat × State) b => (a.1 + 1, a.2.originate 3 0x40 s.chain.acting [Port.num q, a.1] b)) (0, s) |>.2

/-! ## Pulse compression (R117, R118) -/

/-- Sample `i` of `n` of a compression window. -/
def windowAt (w n i : Nat) : Num :=
  let c (k : Nat) : Num := ((Num.pi.scale 1).mul (Num.ofRatio (k * i) (n - 1))).cos
  if w = 0 then Num.ofInt 1
  else if w = 1 then (Num.dec 54 2).sub ((Num.dec 46 2).mul (c 1))
  else (((Num.dec 35875 5).sub ((Num.dec 48829 5).mul (c 1))).add ((Num.dec 14128 5).mul (c 2))).sub ((Num.dec 1168 5).mul (c 3))

/-- Sample `i` of the weighted chirp of slot `k` at the slot's baseband, one each 8 ns (log 33). -/
def refRaw (v : Cfg) (k i : Nat) : Cx :=
  let n := 40 * v.c
  let up := v.chirpDir == 0 || (v.chirpDir == 2 && k % 2 == 0)
  let sg : Int := if up then 1 else -1
  -- in µs and MHz: t = i / 125, T = C / 125
  let t := Num.ofRatio i 125
  let sl := Num.ofRatio (sg * v.chirpBw * 125) v.c
  let ph := ((Num.ofRatio (-sg * v.chirpBw) 2).add ((sl.mul t).scale (-1))).mul t
  let fr := (ph.sub (Num.ofInt ph.floor)).mul (Num.pi.scale 1)
  let e := if v.taper = 1 then n / 20 else if v.taper = 2 then n / 8 else 0
  let a := (windowAt v.window v.c i).mul (tukey (40 * i) n e)
  { re := a.mul fr.cos, im := a.mul fr.sin }

/-- The compression reference of a slot, normalised to unit energy. -/
def compRef (v : Cfg) (k : Nat) : List Cx :=
  let l := (upTo v.c).map (refRaw v k)
  let e := (Num.sum (l.map Cx.pow)).sqrt
  l.map (fun z => z.smul ((Num.ofInt 1).div e))

/-- Correlation of a reference with the head of a stream. -/
def correlate (ref l : List Cx) : Cx := Cx.sum (List.zipWith (fun z h => z.mul h.conj) l ref)

/-- `n` compressed samples from the head of a stream on. -/
def compress (ref : List Cx) : Nat → List Cx → List Cx
  | 0, _ => []
  | n + 1, l => correlate ref l :: compress ref n l.tail

/-! ## One launch as every point sees it -/

/-- Compressed samples from sample B on, marks, noise powers, the common-mode factor conj(H)/|H|, and the flags. -/
structure SwCtx where
  l : Launch
  zx : List Cx
  zy : List Cx
  mx : List Nat
  my : List Nat
  n0x : Num
  n0y : Num
  h : Cx
  subst : Bool
  hold : Bool
  lost : List Nat
  /-- Ordinals, from and to, of Tides flagged for laser tuning (R127). -/
  tuned : List (Nat × Nat)

/-- Compressed sample r. -/
def SwCtx.atX (x : SwCtx) (r : Nat) : Cx := x.zx.getD (r - x.l.cfg.b) {}
def SwCtx.atY (x : SwCtx) (r : Nat) : Cx := x.zy.getD (r - x.l.cfg.b) {}

/-- |z|² / N0 of each polarisation (R120). -/
def SwCtx.rhoX (x : SwCtx) (r : Nat) : Num := (x.atX r).pow.div x.n0x
def SwCtx.rhoY (x : SwCtx) (r : Nat) : Num := (x.atY r).pow.div x.n0y

/-- ρ(r) over the polarisations that are not excluded (R120). -/
def SwCtx.rho (x : SwCtx) (exX exY : Bool) (r : Nat) : Num :=
  (if exX then Num.zero else x.rhoX r).add (if exY then Num.zero else x.rhoY r)

/-- Differential products (R121). -/
def SwCtx.dX (x : SwCtx) (r : Nat) : Cx := (x.atX (r + x.l.cfg.g)).mul (x.atX r).conj
def SwCtx.dY (x : SwCtx) (r : Nat) : Cx := (x.atY (r + x.l.cfg.g)).mul (x.atY r).conj

/-- The reference sum H (R123). -/
def SwCtx.refSum (x : SwCtx) : Cx :=
  Cx.sum ((upTo x.l.cfg.refLen).map (fun i => (x.dX (x.l.cfg.refStart + i)).add (x.dY (x.l.cfg.refStart + i))))

/-- Mean ρ over the reference section (R124). -/
def SwCtx.refRho (x : SwCtx) : Num :=
  (Num.sum ((upTo x.l.cfg.refLen).map (fun i => x.rho false false (x.l.cfg.refStart + i)))).div (Num.ofNat x.l.cfg.refLen)

/-- The reference is unusable (R124). -/
def SwCtx.refBad (x : SwCtx) : Bool :=
  let v := x.l.cfg
  let hi := v.refStart + v.refLen - 1 + v.g + v.c - 1
  marked x.mx v.refStart hi || marked x.my v.refStart hi || x.refRho.lt (Num.ofDb v.refSnr)

/-! ## Estimates (R125–R130) -/

/-- One accepted update of an estimate (R125): the new estimate and count. -/
def estStep (a : Nat) (e : Cx) (u : Nat) (x : Cx) : Cx × Nat :=
  let u' := u + 1
  let mu : Num := if u' < 2 ^ a then Num.ofRatio 1 u' else ⟨1, -a⟩
  (e.add ((x.sub e).smul mu), u')

/-- A point after a full restart (R126, R135): slot 0 is the anchor with e = 1 and counts as resolved (log 29). -/
def SwPoint.fresh (minUpd : Nat) : SwPoint :=
  { restart := .full
    slots := (upTo 8).map (fun k => if k = 0 then { e := Cx.one, u := minUpd } else {}) }

/-- A slot is resolved at a point (R126). -/
def SwPoint.resolved (p : SwPoint) (minUpd k : Nat) : Bool := k == p.anchor || decide (minUpd ≤ (p.slots.getD k {}).u)

/-- The reference phase, in LSBs, by which launch `m` updates its slot's estimate: primary (R127), else secondary
(R128), else none. `tuned` gives the Tides flagged for laser tuning. Whether the neighbours are of resolved slots is taken as each
was processed, not at the decision (DESIGN CHOICE, log 134). -/
def SwPoint.refPhase (p : SwPoint) (v : Cfg) (tuned : List (Nat × Nat)) (m : PtLaunch) : Option Num :=
  let sl := slotsOf v.mask
  let n := sl.length
  let back := (m.ell + n - sl.idxOf p.anchor) % n
  let find (e : Nat) : Option PtLaunch := p.hist.find? (fun x => x.ell == e && !x.blocked)
  let primary : Option Num :=
    match find (m.ell - back), find (m.ell - back + n) with
    | some a, some b =>
      let d := wrapS 16 (b.psi - a.psi)
      if d.natAbs ≤ v.slew ∧ ¬ tuned.any (fun t => decide (t.1 ≤ m.nth) && decide (m.nth ≤ t.2)) then some ((Num.ofInt a.psi).add ((Num.ofRatio back n).mul (Num.ofInt d))) else none
    | _, _ => none
  let secondary : Option Num :=
    match find (m.ell - 1), find (m.ell + 1) with
    | some a, some b =>
      let d := wrapS 16 (b.psi - a.psi)
      if a.resolved ∧ b.resolved ∧ d.natAbs ≤ v.slew then some ((Num.ofInt a.psi).add (Num.ofRatio d 2)) else none
    | _, _ => none
  if m.blocked then none else primary.or secondary

/-- Decide launch `m`'s update of its slot's estimate; a launch without a reference freezes it (R128, R129). -/
def SwPoint.decideOne (v : Cfg) (tuned : List (Nat × Nat)) (p : SwPoint) (m : PtLaunch) : SwPoint :=
  { p with slots := modAt p.slots m.slot (fun e =>
      match p.refPhase v tuned m with
      | some r =>
        let a := (r.mul Num.lsb).neg
        let x := m.u.mul { re := a.cos, im := a.sin }
        let (e', u') := estStep v.alignShift e.e e.u x
        { e with e := e', u := u', frozen := 0 }
      | none => { e with frozen := e.frozen + 1 }) }

/-- An anchor launch has been aligned: the updates of the launches before it are decided, oldest first (R127), under the
AlignSlewLimit and AlignShift of that anchor launch (DESIGN CHOICE, log 166). -/
def SwPoint.update (p : SwPoint) (v : Cfg) (tuned : List (Nat × Nat)) (hold : Bool) (ell : Nat) : SwPoint :=
  let due := (p.hist.filter (fun m => decide (p.decided ≤ m.ell) && decide (m.ell < ell) && m.slot != p.anchor)).reverse
  let p := if hold then p else due.foldl (SwPoint.decideOne v tuned) p
  { p with decided := ell }

/-! ## One point on one launch -/

/-- The grade of a valid word (R133, R134). -/
def gradeOf (rho : Num) (fade : Nat) (cap : Nat) : Nat :=
  min cap (min 7 (((rho.db.sub (Num.ofNat fade)).div (Num.ofNat 3)).floor.toNat))

/-- A point's word, quality, and what happened at it: a restart taken, an unwrap suspect, a grade capped for a frozen
estimate. -/
structure PtOut where
  p : SwPoint
  w : Int
  qual : Nat
  took : Bool
  suspect : Bool
  capped : Bool

/-- The series of R131: from the reason (none where the launch is valid), the aligned phase and the grade. -/
def SwPoint.series (p : SwPoint) (v : Cfg) (reason : Option Nat) (psi : Int) (grade : Nat) : PtOut :=
  match reason with
  | some c =>
    let gap := p.gap + 1
    { p := { p with gap := gap, lautGap := p.lautGap + 1
                    restart := if v.gapLim < gap then (match p.restart with | .full => .full | _ => .soft) else p.restart }
      w := 0, qual := c, took := false, suspect := false, capped := false }
  | none =>
    if p.restart ≠ .none then
      { p := { p with first := true, restart := .none, psiLast := psi, gap := 0, lautGap := p.lautGap + 1 }
        w := 0, qual := 0, took := true, suspect := false, capped := false }
    else
      let w := wrapS 16 (psi - p.psiLast)
      let suspect := decide (v.unwrap < w.natAbs) || (!p.first && decide (v.jump < (w - (p.gap + 1) * p.rate).natAbs))
      { p := { p with rate := w.tdiv (p.gap + 1), first := false, psiLast := psi, gap := 0
                      acc := ofSigned 32 (p.acc + w) }
        w := w, qual := if suspect then 4 else 8 + grade, took := false, suspect := suspect, capped := false }

/-- Point q on a launch (R120–R134). -/
def SwPoint.launch (x : SwCtx) (q : Nat) (p : SwPoint) : PtOut :=
  let v := x.l.cfg
  let k := x.l.slot
  let r := v.r0 + q * v.pitch
  let exX := marked x.mx r (r + v.g + v.c - 1)
  let exY := marked x.my r (r + v.g + v.c - 1)
  let rho := (x.rho exX exY r).min (x.rho exX exY (r + v.g))
  let lim := Num.ofDb v.fadeSnr
  let faded := rho.lt lim
  let lost := x.lost.contains q
  let est := p.slots.getD k {}
  let b := if est.bu = 0 then Cx.one else est.b.unit
  let c := (if exX then {} else x.dX r).add (if exY then {} else b.mul (x.dY r))
  let u := c.mul x.h
  let psi := (u.mul est.e.unit.conj).arg
  let resolved := p.resolved v.minUpd k
  let overload := exX && exY
  let early := x.l.dark || lost || x.l.tuning || overload
  let reason : Option Nat :=
    if x.l.dark then some 1 else if lost then some 6 else if x.l.tuning then some 0 else if overload then some 2
    else if faded then some 3 else if !resolved then some 5 else none
  let frozen := decide (v.stale < est.frozen)
  let grade := gradeOf rho v.fadeSnr (if frozen then 1 else if x.subst then 3 else 7)
  -- λ (R130) and b (R122)
  let lam := if early then est.lam else est.lam.add (⟨(rho.sub est.lam).m, (rho.sub est.lam).e - v.alignShift⟩)
  let bOk := !x.l.tuning && !lost && !exX && !exY &&
    [x.rhoX r, x.rhoX (r + v.g), x.rhoY r, x.rhoY (r + v.g)].all (fun n => !n.lt lim)
  let (b', bu') := if bOk then estStep v.alignShift est.b est.bu ((x.dX r).mul (x.dY r).conj) else (est.b, est.bu)
  let p := { p with slots := setAt p.slots k { est with lam := lam, b := b', bu := bu' } }
  let o := p.series v reason psi grade
  -- the alignment (R127): this launch joins the history; an anchor launch decides those before it
  let h : PtLaunch := ⟨x.l.ell, k, psi, u, early || faded, resolved, x.l.nth⟩
  let p := { o.p with hist := (h :: o.p.hist).take (2 * (slotsOf v.mask).length + 2) }
  -- while a sweep runs no estimate is updated (R136)
  let p := if k = p.anchor ∧ ¬ x.l.tuning then p.update v x.tuned x.hold x.l.ell else p
  { o with p := if lost then { SwPoint.fresh v.minUpd with lautGap := p.lautGap, renewed := true } else { p with renewed := false }, capped := frozen && decide (8 ≤ o.qual) }

/-! ## Records (R139, R140) -/

/-- The header of a Swash record. -/
def swHeader (l : Launch) (q : Port) (kind : Nat) (restart refSub : Bool) (invalid : Nat) : List Byte :=
  let v := l.cfg
  leBytes 8 (l.time + 4 * v.r0 + 2 * v.g) ++ leBytes 6 l.tide ++ leBytes 2 l.epoch ++ leBytes 2 l.j
    ++ leBytes 1 (l.slot + 8 * Port.num q + 16 * bit l.dark + 32 * bit l.tuning + 64 * bit l.incomplete + 128 * bit l.calStale)
    ++ leBytes 1 (bit restart + 2 * bit refSub + 4 * bit l.timeFree + 8 * bit l.late + 16 * bit l.missing
        + 32 * bit l.biasUnlock + 64 * kind)
    ++ leBytes 4 v.r0 ++ leBytes 4 v.n ++ leBytes 1 v.pitch ++ leBytes 1 v.g ++ leBytes 2 (min 0xFFFF invalid)

/-- The payload of a phase-rate record. -/
def ratePayload (ws : List Int) : List Byte :=
  padTo 4 (ws.flatMap (fun w => leBytes 2 (ofSigned 16 w)))

/-- Nibbles, the even point low. -/
def nibbles : List Nat → List Byte
  | a :: b :: t => BitVec.ofNat 8 (a % 16 + 16 * b) :: nibbles t
  | [a] => [BitVec.ofNat 8 (a % 16)]
  | [] => []

/-- The payload of a quality record. -/
def qualPayload (qs : List Nat) : List Byte := padTo 4 (nibbles qs)

/-- A wort record (R109, R110), and whether a value saturated. -/
def wortRecord (l : Launch) (q : Port) (shift : Nat) (r : Stream) : List Byte × Bool :=
  let v := l.cfg
  let sat (z : Int) : Int := clampI (-32767) 32767 (asr z shift)
  let over_ (z : Int × Int) : Bool := sat z.1 != asr z.1 shift || sat z.2 != asr z.2 shift
  let word (m : List Nat) (i : Nat) (z : Int × Int) : List Byte :=
    leBytes 2 (ofSigned 16 (if m.contains (v.b + i) then -32768 else sat z.1)) ++ leBytes 2 (ofSigned 16 (sat z.2))
  let n := v.w + v.c - v.b
  let inside (m : List Nat) : Bool := m.any (fun i => decide (v.b ≤ i) && decide (i < v.w + v.c))
  (leBytes 8 (l.time + 4 * v.b) ++ leBytes 6 l.tide ++ leBytes 2 l.epoch ++ leBytes 2 l.j
    ++ leBytes 1 (l.slot + 8 * Port.num q + 16 * bit l.dark + 32 * bit l.tuning + 64 * bit (inside r.mx || inside r.my) + 128 * bit l.calStale)
    ++ leBytes 1 (shift % 8) ++ leBytes 4 v.b ++ leBytes 4 n ++ zeros 4
    ++ (upTo n).flatMap (fun i => word r.mx i (r.x.getD i (0, 0)) ++ word r.my i (r.y.getD i (0, 0))),
   (r.x ++ r.y).any over_)

/-! ## The launch (R138) -/

/-- Change a port's Swash engine. -/
def State.modSw (s : State) (q : Port) (f : Swash → Swash) : State := s.modPort q (fun ps => { ps with sw := f ps.sw })

/-- N0 of a slot (R119): the mean of the Tides at hand; a free value where there is none or it is 0 (log 28). -/
def noiseOf (free : Nat) (l : List Num) : Num :=
  let m := (Num.sum l).div (Num.ofNat l.length)
  if l.isEmpty ∨ m.isZero then Num.ofNat (Config.freeValue free + 1) else m

/-- The anchor record of the Tide of the latest launch (R138), unless it has been sent. Its header is that launch's, with flags [0]
and [1] 0 (DESIGN CHOICE, log 135); its tag names the first launch of its Tide (R239). -/
def State.anchorRecord (s : State) (q : Port) : State :=
  let sw := (s.port q).sw
  match sw.lastLaunch with
  | none => s
  | some l =>
    if sw.anchorSent then s else
      let bytes := swHeader l q 2 false false 0 ++ sw.pts.flatMap (fun p => leBytes 4 p.acc)
      (s.modSw q (fun w => { w with anchorSent := true })).deliver q true 0 3 true 0 (l.time + 4 * l.cfg.r0 + 2 * l.cfg.g)
        (ellOf l.tide l.cfg.m 0) l.tideTime 0 bytes

/-- The launches of a Tide have all given their records: its last launch has, or the next record in flight is of another
Tide, or none is and the Tide is over. -/
def State.tideDone (s : State) (q : Port) (l : Launch) : Bool :=
  decide (l.j + 1 = l.cfg.m) || (match (s.port q).flight with
    | f :: _ => f.tide != l.tide
    | [] => s.tide.num != l.tide)

/-- The Swash stages on one launch's record. Its words count in the Tide in which the record arrives (DESIGN CHOICE, log 137). -/
def State.swash (s : State) (q : Port) (l : Launch) (r : Stream) : State :=
  let v := l.cfg
  let k := l.slot
  let sw := (s.port q).sw
  let full := l.restart == .full || sw.pts.length != v.n
  let pts := if full then (upTo v.n).map (fun i => { SwPoint.fresh v.minUpd with lautGap := (sw.pts.getD i {}).lautGap })
    else if l.restart == .soft then sw.pts.map (fun p => { p with restart := match p.restart with | .full => .full | _ => .soft })
    else sw.pts
  let lastH := if full then List.replicate 8 none else sw.lastH
  let ref := compRef v k
  let x0 : SwCtx := { l := l, zx := compress ref (v.w - v.b) (r.x.map Cx.ofInts), zy := compress ref (v.w - v.b) (r.y.map Cx.ofInts),
                      mx := r.mx, my := r.my, n0x := noiseOf s.free (sw.noiseX.getD k []), n0y := noiseOf (s.free + 1) (sw.noiseY.getD k []),
                      h := Cx.one, subst := false, hold := bitOf (s.reg (winRx q) 0x200) 1, lost := r.lost, tuned := s.tunedTides q }
  -- with CommonModeEnable 0 the test of R124 does not act (DESIGN CHOICE, log 133)
  let bad := v.cm && x0.refBad
  let hsum := x0.refSum
  let h := if !v.cm then Cx.one else if bad then (match lastH.getD k none with | some h => h.unit.conj | none => Cx.one)
    else hsum.unit.conj
  let x := { x0 with h := h, subst := bad }
  let outs := (upTo v.n).map (fun i => SwPoint.launch x i (pts.getD i {}))
  let ws := outs.map (·.w)
  let qs := outs.map (·.qual)
  let count (f : PtOut → Bool) : Nat := (outs.filter f).length
  let suspects := count (·.suspect)
  let capped := outs.any (·.capped)
  let lost := (upTo v.n).filter (fun i => r.lost.contains i)
  let flag := full || l.restart == .soft || outs.any (·.took) || pts.any (·.renewed)
  let restarts := bit full + lost.length
  let s : State := { s with free := s.free + 2 }
  let s := s.modSw q (fun w => { w with
    pts := outs.map (·.p)
    lastH := if v.cm && !bad then setAt lastH k (some hsum) else lastH
    unwrapCount := (w.unwrapCount + suspects) % 2 ^ 64
    restartCount := satAdd 0xFFFFFFFF w.restartCount restarts
    refSubCount := satAdd 0xFFFFFFFF w.refSubCount (bit bad)
    tWords := w.tWords + v.n, tValid := w.tValid + count (fun o => decide (8 ≤ o.qual)), tUnwrap := w.tUnwrap + suspects
    tFade := w.tFade + count (fun o => o.qual == 3), tSubst := w.tSubst + bit bad
    tSnrMin := some (match w.tSnrMin with | some m => m.min x0.refRho | none => x0.refRho)
    tFrozen := w.tFrozen || capped
    out := ({ l := l, words := ws, quals := qs, restart := flag, refSub := bad } :: w.out).take 1600
    vTide := l.tide, vN := if w.vTide = l.tide then w.vN + 1 else 1
    vCur := (upTo v.n).map (fun i => (if w.vTide = l.tide then w.vCur.getD i 0 else 0) + bit (decide (8 ≤ qs.getD i 0)))
    lN := if w.vTide = l.tide then w.lN else w.vN, lCur := if w.vTide = l.tide then w.lCur else w.vCur
    tLaunches := w.tLaunches + 1, lastLaunch := some l, anchorSent := false })
  let bits := (if suspects != 0 then [0] else []) ++ (if bad then [1] else []) ++ (if lost.isEmpty then [] else [3])
    ++ (if restarts != 0 then [5] else []) ++ (if capped && !sw.tFrozen then [6] else [])
  let s := s.raise (stSw q) bits
  let s := lost.foldl (fun s _ => s.contained (winRx q) 0 3) s
  let t := l.time + 4 * v.r0 + 2 * v.g
  let invalid := count (fun o => decide (o.qual < 8))
  let s := s.deliver q true 0 1 true 0 t l.ell l.time 0 (swHeader l q 0 flag bad invalid ++ ratePayload ws)
  let qrec := swHeader l q 1 flag bad invalid ++ qualPayload qs
  let s := (s.deliver q v.qtc 0 2 v.qx 1 t l.ell l.time 0 qrec).toBrew q ⟨0, 2, t, l.ell, qrec, l.time, 0⟩
  if s.tideDone q l then s.anchorRecord q else s

/-- The wort record of a launch (R109). Its shift is that of RX_CFG when the record arrives, also where the launch was made before
a commit that changed it (DESIGN CHOICE, log 128). -/
def State.wort (s : State) (q : Port) (l : Launch) (r : Stream) : State :=
  if bitOf l.cfg.wort l.slot then
    let (b, sat) := wortRecord l q (bitsOf (s.reg (winRx q) 4) 18 16) r
    (s.toRing q ⟨3, 8, l.time + 4 * l.cfg.b, l.ell, b, l.time, 0⟩).raiseIf sat (stRx q) 5
  else s

/-! ## At a Tide edge -/

/-- The anchor evaluation of a point (R130): the point, and whether its anchor changed. -/
def SwPoint.anchorEdge (v : Cfg) (p : SwPoint) : SwPoint × Bool :=
  let lam (k : Nat) : Num := (p.slots.getD k {}).lam
  let new : Nat :=
    if p.anchor ≠ 0 ∧ p.resolved v.minUpd 0 ∧ ¬ (lam 0).lt (Num.ofDb (v.fadeSnr + 3)) then 0
    else if (lam p.anchor).lt (Num.ofDb v.fadeSnr) then
      let best := (slotsOf v.mask).foldl (fun (m : Option Nat) k =>
        if p.resolved v.minUpd k && !(lam k).lt (Num.ofDb v.fadeSnr) then
          (match m with
           | none => some k
           | some j => if (lam j).lt (lam k) then some k else some j)
        else m) none
      best.getD p.anchor
    else p.anchor
  -- a slot that becomes the anchor counts as resolved from then on (R126)
  ({ p with anchor := new }, new != p.anchor)

/-- A level as the SNR and noise registers give it: 0.01 dB, 16 bits. -/
def centiDb (x : Num) : Nat :=
  if x.m ≤ 0 then 0 else clampN 0 0xFFFF (((Num.ofInt 1000).mul x.log10).nearest.toNat)

/-- Power of the compressed output of a full-scale chirp: (262,016 × Σ |reference|)² (R108, R144; log 32). -/
def fullScale (v : Cfg) : Num :=
  let a := (Num.ofNat 262016).mul (Num.sum ((compRef v 0).map Cx.abs))
  a.mul a

/-- N0 over the enabled slots, in 0.01 dB below compressed full scale (R144); all ones where no slot has one. -/
def noiseReg (v : Cfg) (l : List (List Num)) : Nat :=
  let ms := ((slotsOf v.mask).map (fun k => l.getD k [])).filter (fun x => !x.isEmpty)
  let m := (Num.sum (ms.map (fun x => (Num.sum x).div (Num.ofNat x.length)))).div (Num.ofNat ms.length)
  if ms.isEmpty ∨ m.m ≤ 0 then 0xFFFF else centiDb ((fullScale v).div m)

/-- A fraction; 0 of nothing. -/
def fraction (a b : Nat) : Num := if b = 0 then Num.zero else Num.ofRatio a b

/-- The Tide edge at the Swash engine (R119, R130, R143, R144): the mean tail power of each slot over the odd rotations, X
and Y, joins the noise estimates, the compression reference being of unit energy and so of noise gain 1; anchors are evaluated;
the Tide's counts and fractions are shown. -/
def State.swashEdge (s : State) (q : Port) : State :=
  let tails := (s.port q).rx.tails
  let s := s.modRx q (fun r => { r with tails := List.replicate 8 (Num.zero, Num.zero, 0) })
  if bitOf (s.reg (winRx q) 0x200) 0 then
    let s := match (s.port q).sw.lastLaunch with
      | some l => if (s.port q).flight.any (fun f => f.tide == l.tide) then s else s.anchorRecord q
      | none => s
    let v := s.cfg q
    let sw := (s.port q).sw
    let add (l : List (List Num)) (f : Num × Num × Nat → Num) : List (List Num) :=
      (upTo 8).foldl (fun l k =>
        let t := tails.getD k (Num.zero, Num.zero, 0)
        if t.2.2 = 0 then l else modAt l k (fun h => ((f t).div (Num.ofNat t.2.2) :: h).take 16)) l
    let nx := add sw.noiseX (fun t => t.1)
    let ny := add sw.noiseY (fun t => t.2.1)
    let ev := sw.pts.map (SwPoint.anchorEdge v)
    let moved := (ev.filter (·.2)).length
    let sl := slotsOf v.mask
    let pairs := sw.pts.length * sl.length
    let countP (f : SwPoint → Nat → Bool) : Nat :=
      (ev.map (fun e => (sl.filter (f e.1)).length)).foldl (· + ·) 0
    let s := s.modSw q (fun w => { w with
      pts := ev.map (·.1), noiseX := nx, noiseY := ny, anchorSwitches := satAdd 0xFFFFFFFF w.anchorSwitches moved
      rValid := min 0xFFFFFFFF w.tValid, rUnwrap := min 0xFFFFFFFF w.tUnwrap, rFade := min 0xFFFFFFFF w.tFade
      rSubst := min 0xFFFF w.tSubst, rSnrMin := match w.tSnrMin with | some m => centiDb m | none => 0
      rNoiseX := noiseReg v nx, rNoiseY := noiseReg v ny
      validFrac := fraction w.tValid w.tWords
      resolvedFrac := fraction (countP (fun p k => p.resolved v.minUpd k)) pairs
      frozenFrac := fraction (countP (fun p k => decide (v.stale < (p.slots.getD k {}).frozen))) pairs
      tWords := 0, tValid := 0, tUnwrap := 0, tFade := 0, tSubst := 0, tSnrMin := none, tFrozen := false, tLaunches := 0 })
    s.raiseIf (moved != 0) (stSw q) 2
  else s

/-- Some enabled point–slot pair is unresolved (R144). -/
def State.acquiring (s : State) (q : Port) : Bool :=
  let v := s.cfg q
  (s.port q).sw.pts.any (fun p => (slotsOf v.mask).any (fun k => !p.resolved v.minUpd k))

/-- StrainPerLsb in pε (R142): λ / (131,072 × ξ × g × c × 4 ns). -/
def State.strainPerLsb (s : State) (q : Port) : Nat :=
  let lam := (s.pr q 0x3100 0x13).mul (Num.dec 1 9)
  let d := ((Num.ofNat 131072).mul (s.pr q 0x3100 0x12)).mul ((Num.ofNat (s.pn q 0x3100 4)).mul (Num.ofRatio (299792458 * 4) 1000000000))
  ((lam.div d).mul (Num.ofNat 1000000000000)).toF32

end Sys2Proof.Machine
end

