-- ==== Sys2Proof/Machine/Pool.lean ====
section
/-! DEFINITION. The Brewhouse's region of pool SRAM, and what its detection library is told by the Lauter bank and by commits
(R212, R213, R219, R226). -/
namespace Sys2Proof.Machine
open Sys2Proof

/-- The cluster is enabled (R236). -/
def State.brewOn (s : State) : Bool := s.up && bitOf (s.reg 0x20 0) 0

/-- Change a port's detection library. -/
def State.modDet (s : State) (q : Port) (f : Detect → Detect) : State := s.modPort q (fun ps => { ps with det := f ps.det })

/-- Ones of a byte. -/
def ones8 (n : Nat) : Nat := ((upTo 8).filter (fun i => bitOf n i)).length

/-- Groups of a port's Lauter record, and its size R (R168, R212). -/
def State.lautGroupCount (s : State) (q : Port) : Nat := ceilDiv (s.plan q).n (max 1 (s.pn q 0x3130 3))
def State.lautSize (s : State) (q : Port) : Nat := 32 + s.lautGroupCount q * (2 + 2 * ones8 (s.pn q 0x3130 2))

/-- The library changes over with the first record of the Tide of an ordinal: its settings, and where `clear` its state. -/
def State.detChange (s : State) (q : Port) (nth : Nat) (clear : Bool) : State :=
  s.modDet q (fun d => if d.changes.contains (nth, clear) then d else { d with changes := d.changes ++ [(nth, clear)] })

/-! ## The port's region of pool SRAM (R212; layout: log 147) -/

/-- Where a port's region begins, its detection state, and the stream rings behind it. -/
def poolRegion (q : Port) : Nat := 0x3400000000 + 0x600000 * Port.num q
def State.cellBase (s : State) (q : Port) : Nat := poolRegion q + 2 * s.lautSize q
def State.streamBase (s : State) (q : Port) : Nat :=
  s.cellBase q + 4 * (s.port q).det.use.ge * ones8 (s.port q).det.use.mask

/-- A Lauter record reaches the input buffer of its Tide's parity over the stream port. -/
def State.lautStore (s : State) (q : Port) (tide : Nat) (bytes : List Byte) : State :=
  if s.brewOn then s.write (poolRegion q + tide % 2 * s.lautSize q) (bytes.take (s.lautSize q)) else s

/-- A range's detection state is written back (R219): b and count of its cells, bands of DetBandMask ascending. -/
def State.detStore (s : State) (q : Port) (first count : Nat) : State :=
  let d := (s.port q).det
  let bands := (upTo 8).filter (bitOf d.use.mask)
  s.write (s.cellBase q + 4 * bands.length * first) ((upTo count).flatMap (fun i =>
    let cs := d.cells.getD (first + i) []
    bands.flatMap (fun b => leBytes 2 (cs.getD b {}).b ++ leBytes 2 (min 0xFFFF (cs.getD b {}).n))))

end Sys2Proof.Machine
end

