-- ==== Sys2Proof/Machine/Decim.lean ====
section
/-! DEFINITION. The decimation channels and the Lauter bank (R145–R172), and the arrival of a launch's record (R138). -/
namespace Sys2Proof.Machine
open Sys2Proof

/-! ## Presets and banks (R147–R153) -/

/-- The decimation factor D of a preset. -/
def presetD (p : Nat) : Nat := [1, 2, 4, 8, 32, 128].getD p 1

/-- Taps L of a preset; 1 for Full. -/
def presetL (p : Nat) : Nat := if presetD p = 1 then 1 else 12 * presetD p

/-- GroupDelay of a preset in halves of a launch interval. -/
def presetDelay2 (p : Nat) : Nat := presetL p - 1

/-- Round the ratio 2^17 × v / sum to an integer, halves away from zero. -/
def tapOf (v sum : Num) : Int := (((Num.ofNat 131072).mul v).div sum).roundAway

/-- The default bank h[0] to h[6D − 1] (R150). -/
def defaultBank (d : Nat) : List Int :=
  if d ≤ 1 then [] else
    let n := 12 * d
    let v (k : Nat) : Num :=
      let x := Num.ofRatio (4 * (2 * (k : Int) - (n - 1))) (10 * d)
      let px := Num.pi.mul x
      let c (j : Nat) : Num := (Num.pi.mul (Num.ofRatio (j * k) (n - 1))).cos
      let win := ((Num.dec 42 2).sub ((Num.dec 5 1).mul (c 2))).add ((Num.dec 8 2).mul (c 4))
      (px.sin.div px).mul win
    let vs := (upTo (6 * d)).map v
    let sum := (Num.sum vs).scale 1
    let h := vs.map (fun x => tapOf x sum)
    -- branch m: its taps of the first half, and of the second half as their mirror images in branch D − 1 − m
    let branch (m : Nat) : Int := sumI ((upTo 6).map (fun i => h.getD (m + i * d) 0 + h.getD (d - 1 - m + i * d) 0))
    -- branch m's tap nearest the centre is 6 D + m, and its mirror image 6 D − 1 − m
    (upTo (6 * d)).map (fun k =>
      let m := 6 * d - 1 - k
      if m < d / 2 then h.getD k 0 + (((131072 / d : Nat) : Int) - branch m) else h.getD k 0)

/-- Whether 6 D coefficients make a valid bank (R149, R151): 18 bits each, every branch sums to 2^17 / D, and the
magnitudes of the whole filter to at most 2^18. The bank is symmetric by its form. -/
def bankOk (d : Nat) (h : List Int) : Bool :=
  h.length == 6 * d && h.all (fun x => decide (-131072 ≤ x) && decide (x ≤ 131071))
    && (upTo d).all (fun m =>
      sumI ((upTo 6).map (fun i => h.getD (m + i * d) 0 + h.getD (d - 1 - m + i * d) 0)) == ((131072 / d : Nat) : Int))
    && decide (2 * sumI (h.map (fun x => (x.natAbs : Int))) ≤ 262144)

/-- A port's decimation channel. -/
def State.dec (s : State) (q : Port) (c : Nat) : Decim := if c = 0 then (s.port q).dec0 else (s.port q).dec1

/-- Change a channel. -/
def State.modDec (s : State) (q : Port) (c : Nat) (f : Decim → Decim) : State :=
  s.modPort q (fun ps => if c = 0 then { ps with dec0 := f ps.dec0 } else { ps with dec1 := f ps.dec1 })

/-- The coefficients of a bank (0 A, 1 B): the default where none has been loaded (R150, R170). -/
def Decim.bank (d : Decim) (preset b : Nat) : List Int :=
  let l := if b = 0 then d.bankA else d.bankB
  if l.isEmpty then defaultBank (presetD preset) else l

/-- The channel as its outputs still to come find it, once it has changed. -/
def Decim.asPast (d : Decim) : DecPast := ⟨d.bankA, d.bankB, d.active, d.swapLog, d.clearEll, d.lost⟩

/-- The channel as a launch at time `t` finds it: before its latest clear or change of preset, as it stood then (R153, R156). -/
def Decim.at_ (d : Decim) (t : Nat) : Decim :=
  match d.past with
  | some (u, p) => if t < u then { d with
      bankA := p.a, bankB := p.b, active := p.active, swapLog := p.log, clearEll := p.clearEll, lost := p.lost } else d
  | none => d

/-- Store the points lost, in the channel as launches at time `t` find it. -/
def Decim.setLost (d : Decim) (t : Nat) (l : List (Nat × Nat)) : Decim :=
  match d.past with
  | some (u, p) => if t < u then { d with past := some (u, { p with lost := l }) } else { d with lost := l }
  | none => { d with lost := l }

/-- The bank that computes an output whose span starts at launch `f` (R152): by the swaps since the latest history clear, at which
the sums start anew on the active bank (DEDUCED, log 140). -/
def Decim.bankFor (d : Decim) (f : Int) : Nat :=
  match d.swapLog.find? (fun e => decide ((e.1 : Int) < f)) with
  | some e => e.2
  | none => if d.swapLog.length % 2 = 0 then d.active else 1 - d.active

/-! ## An output (R148, R154, R155, R160, R161) -/

/-- Launch outputs from the newest back to the first after the channel's latest clear. -/
def sinceClear (c : Nat) : List SwLaunch → List SwLaunch
  | [] => []
  | x :: t => if (if c = 0 then x.l.clr.dec0 else x.l.clr.dec1) then [x] else x :: sinceClear c t

/-- Tap k of a symmetric filter given by its first half. -/
def tapAt (h : List Int) (d k : Nat) : Int := if k < 6 * d then h.getD k 0 else h.getD (12 * d - 1 - k) 0

/-- The filtered value of Swash point `p` over a span ending at launch `ell` (R148). -/
def decValue (h : List Int) (d ell p : Nat) (span : List SwLaunch) : Int :=
  if d = 1 then (match span.head? with
    | some x => 256 * x.words.getD p 0
    | none => 0)
  else asr (sumI (span.map (fun x => tapAt h d (ell - x.l.ell) * x.words.getD p 0))) 9

/-- The quality of an output at Swash point `p` (R155), and whether its value is delivered. -/
def decQual (d minValid taps p : Nat) (lost settling : Bool) (span : List SwLaunch) : Nat × Bool :=
  let qs := span.map (fun x => x.quals.getD p 0)
  if d = 1 then (qs.headD 0, true) else
    let ok (n : Nat) : Bool := decide (8 ≤ n) || n == 4
    let valid := (qs.filter ok).length
    if span.any (fun x => x.l.dark) then (1, false)
    else if lost then (6, false)
    else if settling || qs.contains 0 then (0, true)
    else if valid * 100 < minValid * taps ∨ valid = 0 then (3, true)
    else if qs.contains 4 then (4, true)
    else ((qs.filter (fun n => decide (8 ≤ n))).foldl min 15, true)

/-- The outputs of a channel whose boundary lies from ℓ_c to ℓ_c + L − 2 settle (R157). -/
def Decim.settles (d : Decim) (preset ell : Nat) : Bool :=
  presetD preset != 1 && (match d.clearEll with
    | some c => decide (c ≤ ell) && decide (ell + 2 ≤ c + presetL preset)
    | none => false)

/-- Outputs of a channel are settling, as DEC_STAT says (R157): the block and the channel are enabled, and the latest launch lies in
the span after a clear. -/
def State.decSettling (s : State) (q : Port) (c : Nat) : Bool :=
  match (s.port q).sw.out.head? with
  | some x =>
    let dc := if c = 0 then x.l.cfg.dec0 else x.l.cfg.dec1
    bitOf (s.reg (winRx q) 0x300) 0 && dc.en && (s.dec q c).settles dc.preset x.l.ell
  | none => false

/-- A channel's output for a boundary launch, `hist` being the launches from it back to the first after the channel's clear (R161): the record goes where DecimDest says (R162). `lost` names
the points whose state meets an uncorrectable error (R160). -/
def State.decimate (s : State) (q : Port) (c : Nat) (lost : List Nat) (b : SwLaunch) (hist : List SwLaunch) : State :=
  let dc := if c = 0 then b.l.cfg.dec0 else b.l.cfg.dec1
  let d := presetD dc.preset
  let taps := presetL dc.preset
  let ell := b.l.ell
  let ch := (s.dec q c).at_ b.l.time
  let ch := { ch with lost := lost.map (fun p => (p, ell)) ++ ch.lost }
  let first : Int := (ell : Int) - taps + 1
  let span := hist.filter (fun x => decide (x.l.ell ≤ ell) && decide (ell < x.l.ell + taps))
  let bank := ch.bankFor first
  let h := ch.bank dc.preset bank
  let settling := ch.settles dc.preset ell
  let pt (i : Nat) : Nat := dc.first + i * dc.stride
  let isLost (i : Nat) : Bool := ch.lost.any (fun e => e.1 == i && decide (first ≤ (e.2 : Int)))
  let outs := (upTo dc.count).map (fun i =>
    let (qv, shown) := decQual d (s.nat (decIndex q c) 7) taps (pt i) (isLost i) settling span
    (qv, if shown then decValue h d ell (pt i) span else 0))
  let v := b.l.cfg
  let stepNs2 : Int := ((taps - 1) * v.p * 1000000 : Nat)
  -- R154: the first span launch's time, or the boundary launch's less (L − 1) P / M
  let t0 : Int := match span.find? (fun x => ((x.l.ell : Nat) : Int) == first) with
    | some x => 2 * v.m * (x.l.time : Int)
    | none => 2 * v.m * (b.l.time : Int) - 2 * stepNs2
  let time := (divRound (t0 + stepNs2) (2 * v.m)).toNat + 4 * (v.r0 + pt 0 * v.pitch) + 2 * v.g
  let any (f : SwLaunch → Bool) : Nat := bit (span.any f)
  let bytes := leBytes 8 time ++ leBytes 6 b.l.tide ++ leBytes 2 b.l.epoch ++ leBytes 2 b.l.j
    ++ leBytes 1 (c + 2 * dc.preset + 16 * Port.num q + 32 * bank + 64 * bit settling + 128 * any (fun x => x.l.calStale))
    ++ leBytes 1 (any (·.restart) + 2 * any (·.refSub) + 4 * bit b.l.timeFree + 8 * any (fun x => x.l.late || x.l.missing)
        + 16 * any (fun x => x.l.dark) + 32 * any (fun x => x.l.biasUnlock))
    ++ leBytes 4 dc.first ++ leBytes 4 dc.count ++ leBytes 1 dc.stride ++ leBytes 1 v.g
    ++ leBytes 2 (min 0xFFFF (outs.filter (fun o => decide (o.1 < 8))).length)
    ++ outs.flatMap (fun o => leBytes 4 (o.1 * 2 ^ 28 + ofSigned 28 o.2))
  let s := s.modDec q c (fun d => { d.setLost b.l.time (ch.lost.filter (fun e => decide (first ≤ (e.2 : Int)))) with
    lastOut := some ell, due := d.due.filter (fun t => decide (b.l.time < t)) })
  let s := if lost.isEmpty then s else lost.foldl (fun s _ => s.contained (winRx q) c 4) (s.raise (stDec q) [0])
  let s := s.deliver q (bitOf dc.dest 0) 0 4 (bitOf dc.dest 1) 2 time ell b.l.time c bytes
  let s := if bitOf dc.dest 2 ∧ d ≠ 1 then s.stream q bytes else s
  if bitOf dc.dest 3 then s.toBrew q ⟨c, 4, time, ell, bytes, b.l.time, c⟩ else s

/-- A launch's settings of a channel. -/
def Launch.dec (l : Launch) (c : Nat) : DecCfg := if c = 0 then l.cfg.dec0 else l.cfg.dec1

/-- A launch whose words are there is a boundary launch of an enabled channel: an output of it is due (R148). -/
def State.decDue (s : State) (q : Port) (l : Launch) : State :=
  let one (s : State) (c : Nat) : State :=
    let dc := l.dec c
    s.modDec q c (fun d =>
      if bitOf (s.reg (winRx q) 0x300) 0 then
        (if dc.en && l.ell % presetD dc.preset == 0 then { d with due := (d.due ++ [l.time]).drop (d.due.length - 63) } else d)
      else { d with due := [] })
  one (one s 0) 1

/-- DECIMATED_RECORD: the oldest output that is due is emitted (R161). -/
def execDecimatedRecord (q : Port) (c : Nat) (lost : List Nat) (s : State) : Host.Outcome State Fault Refusal :=
  match (s.dec q c).due with
  | t :: _ =>
    match (s.port q).sw.out.dropWhile (fun x => x.l.time != t) with
    | b :: rest =>
      if s.rxOn q false && bitOf (s.reg (winRx q) 0x300) 0 && decide (c < 2) then
        .next (s.decimate q c lost b (sinceClear c (b :: rest)))
      else .next s
    | [] => .next s
  | [] => .next s

/-- Time of the latest launch whose outputs are there. -/
def State.newest (s : State) (q : Port) : Option Nat := (s.port q).sw.out.head?.map (·.l.time)

/-- BankSelect, or DEC_CTRL.BANK_REQ, is written (R152): the inactive bank is requested, the active one cancels. -/
def State.bankRequest (s : State) (q : Port) (c b : Nat) : State :=
  s.modDec q c (fun d => if b = d.active then { d with want := none } else { d with want := some b, wantAt := s.newest q })

/-- BANK_SWAP: the output boundary has come (R152): the latest launch, which came after the request, is a boundary launch. -/
def execBankSwap (q : Port) (c : Nat) (s : State) : Host.Outcome State Fault Refusal :=
  match (s.dec q c).want, (s.port q).sw.out.head? with
  | some b, some x =>
    let dc := if c = 0 then x.l.cfg.dec0 else x.l.cfg.dec1
    if s.rxOn q false && x.l.ell % presetD dc.preset == 0 && (s.dec q c).wantAt != some x.l.time then
      let first := x.l.ell + 1 - presetL dc.preset
      .next ((s.modDec q c (fun d => { d with
        active := b, want := none, swaps := satAdd 0xFFFFFFFF d.swaps 1
        swapLog := (x.l.ell, b) :: d.swapLog.filter (fun e => decide (first ≤ e.1 + 64)) })).raise (stDec q) [2])
    else .next s
  | _, _ => .next s

/-! ## The Lauter bank (R163–R168) -/

/-- The digital section of (B s) / (s² + c1 s + c0), or with `lp` of c0 / (s² + c1 s + c0), by the bilinear transform, in binary64;
each coefficient rounded to binary32 at the end (R163). -/
def bilinear (lp : Bool) (b c1 c0 : Num) : BqCoef :=
  let one := Num.ofInt 1
  let a0 := (one.add64 c1).add64 c0
  let f (x : Num) : Num := (x.div64 a0).r32
  { b0 := f (if lp then c0 else b), b1 := f (if lp then c0.scale 1 else Num.zero), b2 := f (if lp then c0 else b.neg)
    a1 := f ((c0.sub64 one).scale 1), a2 := f ((one.sub64 c1).add64 c0) }

/-- The two sections of a band (R163), the one of lower Q first (log 34). Every operation is rounded to binary64, in an order of the
model's own (log 141). -/
def bandCoef (fl lo hi : Num) : BqCoef × BqCoef :=
  let w (f : Num) : Num := (Num.pi.r64.mul64 (f.div64 fl)).tan.r64
  let k2 := w hi
  if lo.isZero then
    let sec (n : Nat) : BqCoef :=
      bilinear true Num.zero (((Num.pi.r64.mul64 (Num.ofRatio n 8)).cos.r64.scale 1).mul64 k2) (k2.mul64 k2)
    (sec 1, sec 3)
  else
    let k1 := w lo
    let w2 := k1.mul64 k2
    let b := k2.sub64 k1
    -- poles s of the band-pass: (p B ± √(p² B² − 4 w0²)) / 2 for p = (−1 + j) / √2, so p² = −j
    let dr := (w2.scale 2).neg
    let di := (b.mul64 b).neg
    let m := ((dr.mul64 dr).add64 (di.mul64 di)).sqrt64
    let u := ((m.add64 dr).scale (-1)).sqrt64
    let v := (((m.sub64 dr).scale (-1)).sqrt64).neg
    let r := b.mul64 ((Num.ofInt 1).div64 (Num.ofInt 2).sqrt64)
    let pole (sg : Int) : Num × Num :=
      (((r.neg).add64 (u.mul64 (Num.ofInt sg))).scale (-1), ((r.add64 (v.mul64 (Num.ofInt sg))).scale (-1)))
    let c (p : Num × Num) : Num × Num := ((p.1.scale 1).neg, (p.1.mul64 p.1).add64 (p.2.mul64 p.2))
    let x := c (pole 1)
    let y := c (pole (-1))
    -- Q² = c0 / c1²
    let q (z : Num × Num) : Num := z.2.div64 (z.1.mul64 z.1)
    let sx := bilinear false b x.1 x.2
    let sy := bilinear false b y.1 y.2
    if (q x).lt (q y) then (sx, sy) else (sy, sx)

/-- Firmware computes the coefficients at an epoch commit and at a takeover (R163, R164): a band whose upper edge lies beyond
0.45 f_L is clamped, enabled or not, and off where its lower edge reaches that. Launches made before the edge keep theirs
(R115). -/
def State.lauterCoefs (s : State) (q : Port) : State :=
  let v := s.plan q
  let mask := s.pn q 0x3130 2
  let fl := (Num.ofRatio (1000 * v.m) v.p).r64
  let lim := (Num.dec 45 2).r64.mul64 fl
  let edge (i : Nat) : Num := s.pr q 0x3131 i
  let clamped := (upTo 8).filter (fun b => lim.lt (edge (2 * b + 2)))
  let coef := (upTo 8).map (fun b =>
    let hi := if clamped.contains b then lim else edge (2 * b + 2)
    if bitOf mask b && (edge (2 * b + 1)).lt hi then some (bandCoef fl (edge (2 * b + 1)) hi) else none)
  let s := s.modPort q (fun ps => { ps with laut := { ps.laut with
    coefs := ((s.tide.edges, coef) :: ps.laut.coefs).take 3, clamp := clamped.foldl (fun n b => n + 2 ^ b) 0 } })
  s.raiseIf (!clamped.isEmpty) (stLt q) 2

/-- The coefficients of a launch: those computed at the latest edge up to that of its Tide. -/
def Lauter.coef (lt : Lauter) (l : Launch) : List (Option (BqCoef × BqCoef)) :=
  ((lt.coefs.find? (fun e => decide (e.1 ≤ l.nth))).map (·.2)).getD []

/-- LT_STAT.SETTLING (R167): the record of the Tide whose launches come, or the next one, carries the settling flag. -/
def State.lautSettling (s : State) (q : Port) : Bool :=
  let lt := (s.port q).laut
  bitOf (s.reg (winRx q) 0x310) 0 && decide (0 < lt.since) && ((lt.cur.any (·.settling)) || decide (lt.since < s.pn q 0x3130 4))

/-- One section's step (R163): left to right, every product and sum rounded to binary32. -/
def bqStep (c : BqCoef) (m : Biquad) (x : Num) : Num × Biquad :=
  let mul (a b : Num) : Num := (a.mul b).r32
  let add (a b : Num) : Num := (a.add b).r32
  let y := add (add (mul c.b0 x) (mul c.b1 m.x1)) (mul c.b2 m.x2)
  let y := add (add y (mul c.a1 m.y1).neg) (mul c.a2 m.y2).neg
  (y, { x1 := x, x2 := m.x1, y1 := y, y2 := m.y1 })

/-- One point's bands on one input: the new states and the energies y². -/
def bandsStep (coef : List (Option (BqCoef × BqCoef))) (st : List (Biquad × Biquad)) (x : Num) :
    List (Biquad × Biquad) × List Num :=
  let r := (upTo 8).map (fun b =>
    let m := st.getD b ({}, {})
    match coef.getD b none with
    | none => (m, Num.zero)
    | some c =>
      let (y1, m1) := bqStep c.1 m.1 x
      let (y2, m2) := bqStep c.2 m.2 y1
      ((m1, m2), y2.mul64 y2))
  (r.map (·.1), r.map (·.2))

/-- A launch's words enter the band filters (R165, R166); valid launches end the points' runs of invalid ones. While the bank is off
for the launch, its filters are empty, and the sums of a Tide before wait for their record (R168). A commit that changes the number
of points alone clears nothing: a point that is new begins from zero (R167). -/
def State.lauterLaunch (s : State) (q : Port) (o : SwLaunch) : State :=
  let lt := (s.port q).laut
  let v := o.l.cfg
  let n := v.n
  let pts := (s.port q).sw.pts
  let ok (i : Nat) : Bool := let k := o.quals.getD i 0; decide (8 ≤ k) || k == 4
  let s := s.modSw q (fun w => { w with pts := (upTo w.pts.length).map (fun i =>
    let p := w.pts.getD i {}
    if ok i then { p with lautGap := 0 } else p) })
  if bitOf (s.reg (winRx q) 0x310) 0 && v.laut.en then
    let wipe (l : List (Biquad × Biquad)) : List (Biquad × Biquad) :=
      if o.l.clr.bands = 0 then l else (upTo 8).map (fun b => if bitOf o.l.clr.bands b then ({}, {}) else l.getD b ({}, {}))
    let st := if o.l.clr.laut then List.replicate n [] else (upTo n).map (fun i => wipe (lt.st.getD i []))
    let since := if o.l.clr.laut || o.l.clr.bands != 0 then 0 else lt.since
    let steps := (upTo n).map (fun i =>
      if ok i then
        let x := (o.words.getD i 0).tdiv ((pts.getD i {}).lautGap + 1)
        bandsStep (lt.coef o.l) (st.getD i []) (Num.ofInt x)
      else (st.getD i [], []))
    let old := match lt.cur with
      | some c => if c.last.tide = o.l.tide ∧ c.last.epoch = o.l.epoch then some c else none
      | none => none
    let done := if old.isNone then lt.cur.or lt.done else lt.done
    -- a history clear is one of the detection library too (R226)
    let s := if o.l.clr.laut then s.detChange q o.l.nth true else s
    let cur : LautSum := old.getD { last := o.l }
    let cur := { cur with
      launches := cur.launches + 1
      energy := (upTo n).map (fun i =>
        let e := cur.energy.getD i []
        if ok i then (upTo 8).map (fun b => (e.getD b Num.zero).add64 ((steps.getD i ([], [])).2.getD b Num.zero)) else e)
      valid := (upTo n).map (fun i => cur.valid.getD i 0 + bit (ok i))
      settling := cur.settling || decide (since < s.pn q 0x3130 4)
      calStale := cur.calStale || o.l.calStale, incomplete := cur.incomplete || o.l.incomplete
      restart := cur.restart || o.restart, refSub := cur.refSub || o.refSub
      lateMissing := cur.lateMissing || o.l.late || o.l.missing, dark := cur.dark || o.l.dark
      biasUnlock := cur.biasUnlock || o.l.biasUnlock, last := o.l }
    s.modPort q (fun ps => { ps with laut := { ps.laut with st := steps.map (·.1), since := since + 1, cur := some cur, done := done } })
  else
    let keep := if bitOf (s.reg (winRx q) 0x310) 0 then lt.cur.or lt.done else none
    s.modPort q (fun ps => { ps with laut := { ps.laut with st := [], since := 0, cur := none, done := keep } })

/-- A band's code (R166): 256 × (10 log10 E + 60), rounded and limited to 1 to 65,535; no energy gives 1 (log 35). The arithmetic is
binary64 (R163). -/
def bandCode (e : Num) (n : Nat) : Nat :=
  let m := e.div64 (Num.ofNat n)
  if m.m ≤ 0 then 1
  else (clampI 1 65535 (((m.log10.r64.mul64 (Num.ofInt 10)).add64 (Num.ofInt 60)).mul64 (Num.ofInt 256)).roundAway).toNat

/-- The groups of a Tide's sums: whether validity is too low, ValidFrac, and the codes of the enabled bands (R166). `lost` points
count as invalid. -/
def lautGroups (c : LautSum) (lost : List Nat) (minValid : Nat) (coef : List (Option (BqCoef × BqCoef))) : List (Bool × Nat × List Nat) :=
  let v := c.last.cfg
  let bands := (upTo 8).filter (fun b => bitOf v.laut.mask b)
  let g := v.laut.group
  (upTo (ceilDiv v.n g)).map (fun j =>
    let pts := (upTo g).filterMap (fun i => if j * g + i < v.n then some (j * g + i) else none)
    let good := pts.filter (fun i => !lost.contains i)
    let valid := sumN (good.map (fun i => c.valid.getD i 0))
    let frac := 65535 * valid / (pts.length * c.launches)
    let low := decide (frac * 100 < minValid * 65535) || valid == 0
    (low, frac, bands.map (fun b =>
      if low || (coef.getD b none).isNone then 0
      else bandCode ((good.map (fun i => (c.energy.getD i []).getD b Num.zero)).foldl Num.add64 Num.zero) valid)))

/-- The record of a Tide's sums (R168, R169). -/
def State.lauterOut (s : State) (q : Port) (c : LautSum) (lost : List Nat) : State :=
  let v := c.last.cfg
  let l := c.last
  let marked := lautGroups c lost (s.pn q 0x3130 5) ((s.port q).laut.coef l)
  let groups := marked.map (·.2)
  let time := l.time - 8 * (floorX v.p v.m l.j + v.phi) + 4 * v.r0 + 2 * v.g
  let none0 := (groups.filter (fun x => x.2.all (· == 0))).length
  let bytes := leBytes 8 time ++ leBytes 6 l.tide ++ leBytes 2 l.epoch ++ leBytes 2 c.launches
    ++ leBytes 1 (16 * Port.num q + 32 * bit c.settling + 64 * bit c.incomplete + 128 * bit c.calStale)
    ++ leBytes 1 (bit c.restart + 2 * bit c.refSub + 4 * bit l.timeFree + 8 * bit c.lateMissing + 16 * bit c.dark
        + 32 * bit c.biasUnlock + 64)
    ++ leBytes 4 0 ++ leBytes 4 groups.length ++ leBytes 1 v.laut.group ++ leBytes 1 v.laut.mask ++ leBytes 2 (min 0xFFFF none0)
    ++ padTo 4 (groups.flatMap (fun x => leBytes 2 x.1 ++ x.2.flatMap (leBytes 2)))
  let s := s.modPort q (fun ps => { ps with
    lautRec := some ⟨l, time, c.settling, c.incomplete, v.laut.mask, v.laut.group, groups⟩
    laut := { ps.laut with st := (upTo ps.laut.st.length).map (fun i => if lost.contains i then [] else ps.laut.st.getD i []) } })
  let lowBit := marked.any (·.1)
  let s := s.raise (stLt q) ((if lowBit then [0] else []) ++ (if lost.isEmpty then [] else [1]))
  let s := (lost.foldl (fun s _ => s.contained (winRx q) 0 5) s).lautStore q l.tide bytes
  s.deliver q (bitOf v.laut.dest 0) 1 5 (bitOf v.laut.dest 1) 3 time (ellOf l.tide v.m 0) l.tideTime 0 bytes

/-- LAUTER_RECORD: the sums of a Tide whose launches have all given their records. -/
def execLauterRecord (q : Port) (lost : List Nat) (s : State) : Host.Outcome State Fault Refusal :=
  let lt := (s.port q).laut
  if s.rxOn q false && bitOf (s.reg (winRx q) 0x310) 0 then
    match lt.done with
    | some c => .next ((s.modPort q (fun ps => { ps with laut := { ps.laut with done := none } })).lauterOut q c lost)
    | none =>
      match lt.cur with
      | some c =>
        if s.tideDone q c.last then
          .next ((s.modPort q (fun ps => { ps with laut := { ps.laut with cur := none } })).lauterOut q c lost)
        else .next s
      | none => .next s
  else .next s

/-! ## SWASH_LAUNCH_RECORDS -/

/-- The history clears a launch brings (R156): each channel named notes its first launch after the clear. -/
def State.clearAt (s : State) (q : Port) (l : Launch) : State :=
  let one (s : State) (c : Nat) (b : Bool) : State :=
    s.modDec q c (fun d => if b || d.clearEll.isNone then
      -- outputs still due finish on the channel as it was; a change of preset has put that away at the commit
      let past := match d.past with
        | some (u, p) => if d.due.any (fun t => decide (t < u)) then p else d.asPast
        | none => d.asPast
      { d with clearEll := some l.ell, lost := [], lastOut := none, swapLog := [], past := some (l.time, past) } else d)
  let s := one (one s 0 l.clr.dec0) 1 l.clr.dec1
  s.raiseIf (l.clr.dec0 || l.clr.dec1) (stDec q) 1

/-- The oldest launch in flight has given its record (R138): the slot stream, clips, wort record, the Swash stages, the histories.
The record is complete at the launch's time plus W + C range samples. While the Swash engine is off, the restart and the clears
that the launch brings go to the next one. -/
def execSwashLaunchRecords (q : Port) (r : SlotRecord) (s : State) : Host.Outcome State Fault Refusal :=
  match (s.port q).flight with
  | [] => .next s
  | l :: rest =>
    let s := s.modPort q (fun ps => { ps with flight := rest })
    if s.rxOn q false then
      let s := s.advance (l.time + 8 * (l.cfg.w + l.cfg.c))
      let st := s.slotStream q l r
      let s := if bitOf (s.reg (winRx q) 0) 0 then ((s.rxRecord q l r st).aliasRecord q l r).wort q l st else s
      if bitOf (s.reg (winRx q) 0x200) 0 then
        let s := ((s.clearAt q l).swash q l st).decDue q l
        match (s.port q).sw.out.head? with
        | some o => .next (s.lauterLaunch q o)
        | none => .next s
      else .next (s.clearNext q l.restart l.clr)
    else .next (s.clearNext q l.restart l.clr)

end Sys2Proof.Machine
end

