-- ==== Sys2Proof/Machine/Kiln.lean ====
section
/-! DEFINITION. The Kiln engine: shots, accumulations, the peak fit, the anchor, profiles, shape and frequency reference
calibration (R173–R202, R220). -/
namespace Sys2Proof.Machine
open Sys2Proof

/-! ## The frequency plan (R173, R176, R177, R311) -/

/-- Bin i ends at or before range sample B: blind (R179). -/
def kilnBlind (mode16 : Bool) (b i : Nat) : Bool := decide ((i + 1) * (if mode16 then 32 else 64) ≤ 10 * b)

/-- Channels of a mode (R178). -/
def kilnCh (mode16 : Bool) : Nat := if mode16 then 16 else 32

/-- Rejection the tone needs, dB (R176): 60 where an alias of f_t ± 1/τ lies within ±500 MHz, that is a frequency below
1.75 GHz or above 2 GHz, else 45. -/
def toneNeed (khz ns : Nat) : Nat :=
  if khz * ns < 1750000 * ns + 1000000 ∨ 2000000 * ns < khz * ns + 1000000 then 60 else 45

/-- The Kiln check (R177) over a view of the pending plan. -/
def kilnCode (get : Nat → Nat → Nat) (q : Port) : Nat :=
  let k (i : Nat) : Nat := get (portIndex q 0x4010) i
  let v := planOf get q
  let m16 := k 5 == 16
  if k 1 ≠ 1 then 0
  else if get (portIndex q 0x2100) 0x65 < toneNeed (k 2) (k 3) then 1
  else if 2 ^ k 6 * (slotsOf v.mask).length * v.p < 250 * v.m then 2
  else if kilnBins m16 v.w < k 0x10 + k 0x11 ∨ kilnBlind m16 v.b (k 0x10) then 3
  else 0

/-- Change a port's Kiln engine. -/
def State.modKiln (s : State) (q : Port) (f : Kiln → Kiln) : State := s.modPort q (fun ps => { ps with kiln := f ps.kiln })

/-- The synthesiser's frequency, Hz (R311). -/
def State.synHz (s : State) (q : Port) : Num := ⟨156250000 * (s.port q).syn.steps, -24⟩

/-- KilnSynthActual, kHz. -/
def State.synKhz (s : State) (q : Port) : Nat := ((s.synHz q).div (Num.ofNat 1000)).nearest.toNat

/-- The frequency-reference flag applies: |e_syn| exceeds 10 kHz (R194). -/
def Kiln.freqOff (k : Kiln) : Bool := decide (10000 < k.eSyn.natAbs)

/-- A frequency reference calibration begins: its first count (R194). -/
def Kiln.freqStart (k : Kiln) (on : Bool) : Kiln := { k with freqRun := on, freq := { k.freq with prev := none } }

/-- Set the synthesiser from the active objects, or power it down (R311, R187): a change makes it relock, and starts a
frequency reference calibration, as does the engine's start (R194). -/
def State.setSynth (s : State) (q : Port) (started : Bool) : State :=
  let on := s.kilnOn q || (s.port q).kiln.shapeRun
  let khz := s.pn q 0x4010 2 + s.pn q 0x4010 4
  let steps := if on then ((2 * khz * 1000 * 2 ^ 24 + 156250000) / (2 * 156250000)) else 0
  let y := (s.port q).syn
  if y.on = on ∧ y.steps = steps then (if started then s.modKiln q (·.freqStart on) else s) else
    (s.synLost q).modPort q (fun ps => { ps with
      syn := { on := on, locked := false, steps := steps }, kiln := ps.kiln.freqStart on })

/-! ## Shots (R180–R184) -/

/-- The Kiln block runs: its domain is on, KILN_CTRL.ENABLE is 1, and its converters have passed their foreground calibration
(R100). -/
def State.kilnRuns (s : State) (q : Port) : Bool := s.up && s.kilnEnabled q && (s.port q).rx.kfgPass

/-- Discard the accumulation in progress; where the engine is enabled, a new one waits to start with a slot 0 launch made at `t`
or later (R184). -/
def State.kilnDiscard (s : State) (q : Port) (t : Nat) : State :=
  s.modKiln q (fun k => { k with acc := none, waiting := s.kilnOn q, waitAt := t })

/-- MODE16 and NBINS as KILN_CFG and KILN_BINS say: no more than the mode's most bins (R178, R202). -/
def State.kilnMode16 (s : State) (q : Port) : Bool := bitOf (s.reg (winKiln q) 4) 0
def State.kilnCount (s : State) (q : Port) : Nat :=
  min (if s.kilnMode16 q then 40960 else 20480) (bitsOf (s.reg (winKiln q) 8) 15 0)

/-- The settings of a new accumulation: those of KILN_CFG and KILN_BINS within their limits (R202), the others from the objects in
force. -/
def State.kilnCfg (s : State) (q : Port) : KilnCfg :=
  let k (i : Nat) : Nat := s.pn q 0x4010 i
  let r := s.reg (winKiln q) 4
  { toneKhz := k 2, mode16 := s.kilnMode16 q, shots := clampN 10 20 (bitsOf r 12 8), shift := min 24 (bitsOf r 20 16)
    dest := k 0xC, coilFirst := k 0x10, coilCount := k 0x11
    b := (s.plan q).b, bins := s.kilnCount q, epoch := s.tide.epoch }

/-- KILN_ACCUMULATION_START (R182): the latest slot 0 launch was made while the port is Live and its synthesiser locked;
it is the first of the accumulation. A launch that is dark at a yielded port, whose OpticsState is still Live, starts none (DESIGN
CHOICE, log 169). The Kiln converters' corrections move to their targets, once a profile (R458). -/
def execKilnAccumulationStart (q : Port) (s : State) : Host.Outcome State Fault Refusal :=
  let k := (s.port q).kiln
  match k.flight.getLast? with
  | some l =>
    if s.kilnRuns q && s.kilnOn q && k.waiting && k.acc.isNone && decide (k.waitAt ≤ l.time) && s.live q && !l.dark
        && (s.port q).syn.locked then
      let c := s.kilnCfg q
      let s := s.modRx q (fun r =>
        if bitOf (s.reg (winRx q) 0) 1 then r else { r with kCal := { r.kCal with use := r.kCal.target } })
      .next (s.modKiln q (fun k => { k with
        waiting := false
        acc := some { cfg := c, start := l.time, buf := k.next
                      cells := List.replicate c.bins (List.replicate (kilnCh c.mode16) 0) } }))
    else .next s
  | none => .next s

/-- Power code of a bin and channel (R181), and whether it was limited. -/
def powerCode (shift : Nat) (z : Cx) : Nat × Bool :=
  let p := z.pow.floor.toNat / 2 ^ shift
  (min p 4095, decide (4095 < p))

/-- A shot's power codes (R178, R181): per bin and channel the code, and whether it was limited. -/
def State.shotCodes (s : State) (q : Port) (m16 : Bool) (bins shift : Nat) (r : KilnRecord) : List (List (Nat × Bool)) :=
  (upTo bins).map (fun i => (upTo (kilnCh m16)).map (fun c =>
    powerCode shift (kilnSample m16 (bitOf (s.reg (winKiln q) 4) 1) (s.port q).rx.kCal.use (s.kilnDelay q) r i c)))

/-- An accepted shot enters the accumulators (R181). -/
def KilnAcc.add (a : KilnAcc) (codes : List (List (Nat × Bool))) : KilnAcc :=
  { a with cells := (upTo a.cells.length).map (fun i =>
      let row := a.cells.getD i []
      let xs := codes.getD i []
      (upTo row.length).map (fun c => (row.getD c 0 + (xs.getD c (0, false)).1) % 2 ^ 32)) }

/-- A slot 0 launch's record enters the run of a shape calibration (R187): the power codes of bins B / 6.4 on, per channel, in both
modes; 2^14 launches end a run, two runs the measurement. -/
def State.shapeShot (s : State) (q : Port) (l : Launch) (r : KilnRecord) : State :=
  let k := (s.port q).kiln
  if k.shapeRun && (s.port q).syn.locked && decide (k.shapeRuns.length < 2) then
    let m16 := s.kilnMode16 q
    let codes := s.shotCodes q m16 (s.kilnCount q) (min 24 (bitsOf (s.reg (winKiln q) 4) 20 16)) r
    let rows := codes.drop (10 * l.cfg.b / 64)
    let sum := (upTo (kilnCh m16)).map (fun c => k.shapeSum.getD c 0 + sumN (rows.map (fun x => (x.getD c (0, false)).1)))
    s.modKiln q (fun k => if k.shapeN + 1 < 2 ^ 14 then { k with shapeSum := sum, shapeN := k.shapeN + 1 }
      else { k with shapeSum := [], shapeN := 0, shapeRuns := sum :: k.shapeRuns })
  else s

/-- The clips of the Kiln converters inside a record (R90), and the count of them for the Tide: those that came after the present
Tide's edge; what came before was counted at that edge. -/
def State.kilnClipped (s : State) (q : Port) (l : Launch) (r : KilnRecord) : Bool × List Nat :=
  let of_ (c : Nat) : List Int := kilnClips (s.kilnMode16 q) (s.kilnCount q) (s.kilnDelay q) r.first (r.codes.getD c [])
  ((upTo 2).any (fun c => !(of_ c).isEmpty),
    (upTo 2).map (fun c => ((of_ c).filter (fun n => decide ((s.tide.edge : Int) ≤ (l.time : Int) + 4 * n / 5))).length))

/-- A shot of the accumulation in progress (R180, R181): dropped or accepted, and counted either way. -/
def State.kilnCount1 (s : State) (q : Port) (l : Launch) (a : KilnAcc) (r : KilnRecord) (drop unlocked : Bool) : State :=
  let a := { a with last := l.time, lastTide := l.tide, lastEll := l.ell, timeFree := a.timeFree || l.timeFree }
  if drop then
    let s := s.modKiln q (fun k => { k with acc := some { a with dropped := a.dropped + 1 } })
    s.raise (stKiln q) ([2] ++ (if unlocked then [5] else []))
  else
    let codes := s.shotCodes q a.cfg.mode16 a.cfg.bins a.cfg.shift r
    let sat := codes.any (fun x => x.any (·.2))
    let a := { (a.add codes) with accepted := a.accepted + 1, first := a.first.or (some l.time), cold := a.cold || !s.time.warm }
    (s.modKiln q (fun k => { k with acc := some a })).raiseIf sat (stKiln q) 3

/-- KILN_SHOT: the Kiln record of the oldest slot 0 launch in flight has come, as the two converters give it, and whether the
synthesiser was seen unlocked during it besides what its own commands told (R83, R180, R181). -/
def execKilnShot (q : Port) (r : KilnRecord) (unlocked : Bool) (s : State) : Host.Outcome State Fault Refusal :=
  match (s.port q).kiln.flight with
  | [] => .next s
  | l :: rest =>
    let s := s.modKiln q (fun k => { k with flight := rest })
    if s.kilnRuns q then
      let s := s.advance (l.time + 8 * l.cfg.w)
      let (clip, n) := s.kilnClipped q l r
      let s := (s.modRx q (fun x => { x with kClips := (upTo 2).map (fun c => x.kClips.getD c 0 + n.getD c 0) })).shapeShot q l r
      match (s.port q).kiln.acc with
      | none => .next s
      | some a =>
        if a.accepted + a.dropped < 2 ^ a.cfg.shots ∧ a.start ≤ l.time then
          let off := unlocked || l.synOff
          .next (s.kilnCount1 q l a r (clip || l.dark || l.tuning || l.missing || off) off)
        else .next s
    else .next s

/-- A bridge temperature joins the accumulations whose coil it reports (R191). -/
def State.coilResult (s : State) (ch : Nat) (t : Num) (settling brk : Bool) : State :=
  s.modBoth (fun q ps =>
    if s.pn q 0x4010 0x12 = ch then
      { ps with kiln := { ps.kiln with acc := ps.kiln.acc.map (fun a =>
          { a with coil := if brk || settling then a.coil else t :: a.coil, coilBreak := a.coilBreak || brk }) } }
    else ps)

/-- The coil temperature of a profile, none where the reading is invalid (R191). -/
def KilnAcc.coilTemp (a : KilnAcc) : Option Num :=
  if a.coilBreak ∨ a.coil.length < 16 then none else some ((Num.sum a.coil).div (Num.ofNat a.coil.length))

/-- The zones in force (R196). -/
def State.zones (s : State) (q : Port) : List Zone :=
  (upTo 64).map (fun z =>
    let i := portIndex q 0x4100 + z
    ⟨s.nat i 1, s.nat i 2, s.nat i 3, s.real i 4, s.real i 5, s.real i 6, s.real i 7⟩)

/-- The shape of a mode. -/
def Kiln.shape (k : Kiln) (mode16 : Bool) : Option (List Nat) := if mode16 then k.shape16 else k.shape32

/-- KILN_ACCUMULATION_COMPLETE (R182): the buffer is full and its fit queues; a new accumulation waits. -/
def execKilnAccumulationComplete (q : Port) (s : State) : Host.Outcome State Fault Refusal :=
  let k := (s.port q).kiln
  match k.acc with
  | some a =>
    if s.kilnRuns q && a.accepted + a.dropped == 2 ^ a.cfg.shots then
      let f : KilnFit := { acc := a, seq := (k.seq + 1) % 2 ^ 32, synHz := s.synHz q, eSyn := k.eSyn, anchor := k.anchor
                           coilT := a.coilTemp, zones := s.zones q, shape := k.shape a.cfg.mode16
                           calStale := (s.port q).rx.kCal.state == 3 }
      let s := s.modKiln q (fun k => { k with acc := none, waiting := s.kilnOn q, waitAt := a.last + 1, next := 1 - a.buf
                                              seq := f.seq, fits := k.fits ++ [f] })
      let s : State := { s with brew := { s.brew with fitQueue := s.brew.fitQueue ++ [q] } }
      .next (s.raise (stKiln q) [0])
    else .next s
  | none => .next s

/-! ## The fit (R188–R190, R220) -/

/-- Centre of channel c, MHz (R178). -/
def chCentre (mode16 : Bool) (c : Nat) : Num :=
  if mode16 then (Num.ofRatio (-29296875 + 3906250 * (c : Int)) 100000)
  else (Num.ofRatio (-302734375 + 19531250 * (c : Int)) 1000000)

/-- Channel spacing, MHz. -/
def chSpacing (mode16 : Bool) : Num := if mode16 then ⟨625, -4⟩ else ⟨625, -5⟩

/-- Solve a symmetric 3 × 3 system by Cramer's rule; none where it is singular. -/
def solve3 (a b c d e f : Num) (x y z : Num) : Option (Num × Num × Num) :=
  -- rows (a b c) (b d e) (c e f)
  let m (p q r t : Num) : Num := (p.mul t).sub (q.mul r)
  let det3 (p q r t u v w g h : Num) : Num :=
    ((p.mul (m u v g h)).sub (q.mul (m t v w h))).add (r.mul (m t u w g))
  let det := det3 a b c b d e c e f
  if det.isZero then none else
    some ((det3 x b c y d e z e f).div det, (det3 a x c b y e c z f).div det, (det3 a b x b d y c e z).div det)

/-- The Lorentzian's value and derivatives by a, ν and h = Γ / 2 at f. -/
def lorentzAt (a nu h f : Num) : Num × Num × Num × Num :=
  let u := (f.sub nu).div h
  let den := (Num.ofInt 1).add (u.mul u)
  let dn := ((a.mul u).scale 1).div (h.mul (den.mul den))
  (a.div den, (Num.ofInt 1).div den, dn, dn.mul u)

/-- At most `n` Gauss–Newton iterations; the parameters once the step in ν is below 1 kHz, none where that never comes
(R189 step 3). -/
def gaussNewton (pts : List (Num × Num)) : Nat → Num × Num × Num → Option (Num × Num × Num)
  | 0, _ => none
  | n + 1, (a, nu, h) =>
    let js := pts.map (fun p => (lorentzAt a nu h p.1, p.2))
    let sum (g : (Num × Num × Num × Num) → Num → Num) : Num := Num.sum (js.map (fun j => g j.1 j.2))
    let r (j : Num × Num × Num × Num) (y : Num) : Num := y.sub j.1
    match solve3
      (sum (fun j _ => j.2.1.mul j.2.1)) (sum (fun j _ => j.2.1.mul j.2.2.1)) (sum (fun j _ => j.2.1.mul j.2.2.2))
      (sum (fun j _ => j.2.2.1.mul j.2.2.1)) (sum (fun j _ => j.2.2.1.mul j.2.2.2)) (sum (fun j _ => j.2.2.2.mul j.2.2.2))
      (sum (fun j y => j.2.1.mul (r j y))) (sum (fun j y => j.2.2.1.mul (r j y))) (sum (fun j y => j.2.2.2.mul (r j y))) with
    | none => none
    | some (da, dn, dh) =>
      let a := a.add da
      let nu := nu.add dn
      let h := h.add dh
      if h.m ≤ 0 then none
      else if dn.abs.lt (Num.dec 1 3) then some (a, nu, h)
      else gaussNewton pts n (a, nu, h)

/-- The fit of one bin (R188, R189) from its powers y(c): SNR in dB (none where it has no positive signal), the floor, and
the peak (ν_IF, Γ, Q) where the fit converged. `n` is the accepted shot count, `k` the fit span. -/
def peakFit (mode16 : Bool) (ys : List Num) (n k : Nat) : Option Num × Num × Option (Num × Num × Num) :=
  let ch := kilnCh mode16
  let low := if mode16 then 6 else 12
  let sorted := ys.mergeSort (fun a b => a.le b)
  let f := (Num.sum (sorted.take low)).div (Num.ofNat low)
  let s := ys.map (fun y => y.sub f)
  let cm := (upTo ch).foldl (fun m c => if (s.getD m Num.zero).lt (s.getD c Num.zero) then c else m) 0
  let top := s.getD cm Num.zero
  let snr : Option Num := if top.m ≤ 0 ∨ n = 0 then none
    else if f.m ≤ 0 then some (Num.ofNat 1000) else some ((top.mul (Num.ofNat n).sqrt).div f).db
  let lo := cm - k
  let hi := min (ch - 1) (cm + k)
  let span := (upTo (hi + 1 - lo)).map (fun i => (chCentre mode16 (lo + i), s.getD (lo + i) Num.zero))
  let d := chSpacing mode16
  let sl := s.getD (cm - 1) Num.zero
  let sr := s.getD (cm + 1) Num.zero
  let plain := (top, chCentre mode16 cm, Num.ofNat 20)
  let start :=
    if cm = 0 ∨ cm + 1 = ch ∨ sl.m ≤ 0 ∨ sr.m ≤ 0 ∨ top.m ≤ 0 then plain else
      let l := sl.ln
      let r := sr.ln
      let kap := (l.add r).sub (top.ln.scale 1)
      if 0 ≤ kap.m then plain else
        (top, (chCentre mode16 cm).add ((d.mul (l.sub r)).div (kap.scale 1)),
          (d.mul ((Num.ofInt (-8)).div kap).sqrt).scale (-1))
  let fit := (gaussNewton span 8 start).map (fun p =>
    let mean := (Num.sum (span.map (·.2))).div (Num.ofNat span.length)
    let sq (g : Num × Num → Num) : Num := Num.sum (span.map (fun x => (g x).mul (g x)))
    let tot := sq (fun x => x.2.sub mean)
    let res := sq (fun x => x.2.sub (lorentzAt p.1 p.2.1 p.2.2 x.1).1)
    (p.2.1, p.2.2.scale 1, if tot.isZero then Num.zero else (Num.ofInt 1).sub (res.div tot)))
  (snr, f, fit)

/-- The result of bin i (R190): the first code that applies. `unfit` tells that the fit did not reach it. -/
def KilnFit.bin (f : KilnFit) (minSnr : Nat) (minFit : Num) (k : Nat) (poison : List Nat) (unfit : Bool) (i : Nat) : BinFit :=
  let c := f.acc.cfg
  if kilnBlind c.mode16 c.b i then { code := 4 }
  else if poison.contains i then { code := 6 }
  else if unfit then { code := 5 }
  else
    let g (j : Nat) : Num := match f.shape with
      | some l => f32Num (l.getD j 0)
      | none => Num.ofInt 1
    let ys := (upTo (kilnCh c.mode16)).map (fun j => (Num.ofNat ((f.acc.cells.getD i []).getD j 0)).div (g j))
    let (snr, floor, fit) := peakFit c.mode16 ys f.acc.accepted k
    let db := match snr with
      | some d => clampN 0 255 ((d.scale 2).roundAway.toNat)
      | none => 0
    let low := match snr with
      | some d => d.lt (Num.ofNat minSnr)
      | none => true
    if low then { code := 1, snr := db, floor := floor }
    else match fit with
      | none => { code := 3, snr := db, floor := floor }
      | some (nuIf, gam, q) =>
        if q.lt minFit then { code := 3, snr := db, floor := floor }
        else
          let hz := (f.synHz.add (Num.ofInt f.eSyn)).div (Num.ofNat 1000000)
          let nu := (hz.add nuIf).sub (Num.ofRatio c.toneKhz 1000)
          let edge := ((Num.dec 3125 1).sub ((chSpacing c.mode16).scale 1)).lt nuIf.abs
          { code := if edge then 2 else 0, snr := db, nu := nu, gamma := gam, floor := floor }

/-- Non-blind bins before bin i. -/
def KilnFit.ordinal (f : KilnFit) (i : Nat) : Nat :=
  ((upTo i).filter (fun j => !kilnBlind f.acc.cfg.mode16 f.acc.cfg.b j)).length

/-- The pool of a core as BREW_POOL says it: 6 and 7 act as 0 (R236). -/
def State.poolOf (s : State) (c : Nat) : Nat :=
  let v := s.reg 0x20 (if c < 8 then 0x14 else 0x18) / 8 ^ (c % 8) % 8
  if v < 6 then v else 0

/-- The cores of a pool that are in service (R215, R223). -/
def State.poolCores (s : State) (pool : Nat) : List Nat :=
  (upTo 16).filter (fun c => s.poolOf c == pool && !(s.brew.cores.getD c {}).out)

/-- Split `n` items from 0 into contiguous ranges over cores, the lower-numbered taking one extra (R218, R220). -/
def splitRanges (cores : List Nat) (n : Nat) : List (Nat × Nat × Nat) :=
  let k := cores.length
  ((upTo k).map (fun j => (cores.getD j 0, j * (n / k) + min j (n % k), n / k + bit (decide (j < n % k)))))

/-- Change a core. -/
def State.modCore (s : State) (c : Nat) (f : Core → Core) : State :=
  { s with brew := { s.brew with cores := modAt s.brew.cores c f } }

/-- An entry of the program a core holds: 0 its work or a customer's initialisation, 1 Tide work, 2 abort (R216, R221, R233;
log 145). -/
def Core.entry (k : Core) (kind : Nat) : Nat :=
  match k.prog with
  | .empty => 0
  | .library p => Config.libraryEntry p kind % 4096
  | .image i => Config.imageField i (10 + kind) % 4096

/-- A core starts on work at an entry of its program (R216): with the ordinal of the Tide at whose edge it is due, at a time. -/
def Core.start (k : Core) (w : Work) (entry : Nat) (due : Option Nat) (now : Nat) : Core :=
  { k with running := true, work := some w, waitEvent := false, waitDma := none, aborting := false, stopping := false
           pc := k.entry entry, loops := [], rets := [], due := due, again := none, since := now }

/-- Start cores on work (R216). -/
def State.dispatch (s : State) (w : Work) (cores : List Nat) : State :=
  cores.foldl (fun s c => s.modCore c (fun k => k.start w 0 none s.time.now)) s

/-- The customer program a core works for. -/
def Core.owner (k : Core) : Option Nat := match k.work with
  | some (.customer p) => some p
  | _ => none

/-- A core ends its work and waits for its next dispatch; descriptors still queued are carried out for whom queued them. -/
def Core.idle (k : Core) : Core :=
  { k with running := false, work := none, waitEvent := false, waitDma := none, aborting := false, stopping := false
           due := none, again := none }

/-- The controller signals abort: the core jumps to its abort entry (R221). -/
def Core.abort (k : Core) : Core :=
  { k with aborting := true, waitEvent := false, waitDma := none, pc := k.entry 2, loops := [], rets := [] }

/-- Cores that work on `w` halt. -/
def State.halt (s : State) (w : Work) : State :=
  { s with brew := { s.brew with cores := s.brew.cores.map (fun k =>
      if k.work = some w then k.idle else k) } }

/-- Change a port's oldest fit. -/
def State.modFit (s : State) (q : Port) (f : KilnFit → KilnFit) : State :=
  s.modKiln q (fun k => { k with fits := match k.fits with
    | x :: t => f x :: t
    | [] => [] })

/-- KILN_FIT_DISPATCH (R220): the oldest queued fit goes to the fit pool, once no fit runs and the port's previous profile
is done. -/
def execKilnFitDispatch (q : Port) (s : State) : Host.Outcome State Fault Refusal :=
  let idle := !(s.brew.cores.any (fun k => k.work == some (.fit .a) || k.work == some (.fit .b)))
  match s.brew.fitQueue, (s.port q).kiln.fits with
  | r :: rest, f :: _ =>
    let cores := s.poolCores 4
    if s.brewOn && r == q && idle && f.ranges.isNone && f.bins.isNone && !cores.isEmpty then
      let s : State := { s with brew := { s.brew with fitQueue := rest } }
      let n := f.acc.cfg.bins - ((upTo f.acc.cfg.bins).filter (kilnBlind f.acc.cfg.mode16 f.acc.cfg.b)).length
      .next ((s.modFit q (fun f => { f with ranges := some (splitRanges cores n) })).dispatch (.fit q) cores)
    else .next s
  | _, _ => .next s

/-- The fit of a port ends with the results of its bins; `unfit` names the ordinals not reached. -/
def State.endFit (s : State) (q : Port) (f : KilnFit) (poison : List Nat) (over_ : Bool) (unfit : Nat → Bool) : State :=
  let r := (upTo f.acc.cfg.bins).map (fun i =>
    f.bin (s.pn q 0x4010 8) (s.pr q 0x4010 9) (s.pn q 0x4010 0xA) poison (unfit (f.ordinal i)) i)
  let n := (r.filter (fun b => b.code == 6)).length
  let s := (s.modFit q (fun f => { f with bins := some r, over_ := over_, endedAt := s.tide.edges })).halt (.fit q)
  if n = 0 then s else
    (upTo n).foldl (fun s _ => s.contained (winKiln q) 0 3) (s.raise (stKiln q) [7])

/-- KILN_FIT_COMPLETE (R189). `poison` names the bins with an uncorrectable accumulator word. -/
def execKilnFitComplete (q : Port) (poison : List Nat) (s : State) : Host.Outcome State Fault Refusal :=
  match (s.port q).kiln.fits with
  | f :: _ =>
    if s.brewOn && f.ranges.isSome && f.bins.isNone then
      .next (s.endFit q f poison false (fun j => f.unfit.contains j))
    else .next s
  | [] => .next s

/-- KILN_FIT_OVERRUN (R183): the next accumulation is complete and the fit has not ended. `fitted` gives how many bins of
its range each core has fitted, in the order of the ranges. -/
def execKilnFitOverrun (q : Port) (fitted : List Nat) (poison : List Nat) (s : State) : Host.Outcome State Fault Refusal :=
  match (s.port q).kiln.fits with
  | f :: _ :: _ =>
    if s.up && f.bins.isNone then
      let rs := f.ranges.getD []
      let reached (j : Nat) : Bool := (upTo rs.length).any (fun i =>
        let r := rs.getD i (0, 0, 0)
        decide (r.2.1 ≤ j) && decide (j < r.2.1 + min r.2.2 (fitted.getD i 0))) && !f.unfit.contains j
      let s : State := { s with brew := { s.brew with fitQueue := if f.ranges.isSome then s.brew.fitQueue else s.brew.fitQueue.erase q } }
      let s := s.endFit q f poison true (fun j => !reached j)
      .next ((s.modKiln q (fun k => { k with overruns := satAdd 0xFFFFFFFF k.overruns 1 })).raise (stKiln q) [1])
    else .next s
  | _ => .next s

/-! ## The anchor (R191–R193) -/

/-- The anchor after a profile's candidate (R192): accepted where it agrees with the previous profile's. -/
def State.anchorUpdate (s : State) (q : Port) (cand : Option Num) : State :=
  let k := (s.port q).kiln
  let khz (n : Nat) : Num := Num.ofRatio n 1000
  match cand, k.prevCand with
  | some c, some p =>
    if ((c.sub p).abs).le (khz (s.pn q 0x4010 0x14)) then
      let a := match k.anchor with
        | some a =>
          if k.anchored then
            let st := khz (s.pn q 0x4010 0x15)
            a.add (((c.sub a).min st).max st.neg)
          else c
        | none => c
      let s := s.modKiln q (fun k => { k with anchor := some a, anchored := true, noAccept := 0, prevCand := cand
                                              coilCount := satAdd 0xFFFFFFFF k.coilCount 1, coilTime := s.time.now })
      -- the anchor and its time are kept in the persistent store
      (s.storeWrite (objKey (portIndex q 0x4010 + 1) 7) (leBytes 4 a.toF32)).storeWrite
        (objKey (portIndex q 0x4010 + 1) 0x10) (leBytes 8 s.time.now)
    else s.modKiln q (fun k => { k with noAccept := k.noAccept + 1, prevCand := cand, coilFails := satAdd 0xFFFFFFFF k.coilFails 1 })
  | _, _ => s.modKiln q (fun k => { k with noAccept := k.noAccept + 1, prevCand := cand })

/-! ## Zones and profiles (R196–R199) -/

/-- The zone of a bin: the highest-numbered one in use that includes it. -/
def zoneOf (zs : List Zone) (i : Nat) : Option Zone :=
  (zs.filter (fun z => z.mode != 0 && decide (z.first ≤ i) && decide (i ≤ z.last))).getLast?

/-- Kind and value of a valid bin (R196): temperature in m°C or strain in 0.01 µε. -/
def zoneValue (z : Option Zone) (nu : Num) (anchor coilT : Option Num) : Nat × Int :=
  match z with
  | none => (0, 0)
  | some z =>
    let kind := if z.mode = 1 then 1 else if z.mode = 3 ∧ coilT.isNone then 0 else 2
    match anchor with
    | none => (kind, 0)
    | some a =>
      let d := (nu.sub a).sub z.ofs
      let lim (x : Num) : Int := clampI (-2147483648) 2147483647 x.roundAway
      if z.mode = 1 then
        (kind, lim ((((d.sub (z.ce.mul z.held)).div z.ct).add (Num.ofNat 25)).mul (Num.ofNat 1000)))
      else
        let t := if z.mode = 2 then some z.held else coilT
        match t with
        | none => (0, 0)
        | some t => (kind, lim (((d.sub (z.ct.mul (t.sub (Num.ofNat 25)))).div z.ce).mul (Num.ofNat 100)))

/-- A bin's entry of a profile record (R199). Where R190 gives a bin no shift its Linewidth is 0; codes 4, 5 and 6 have Snr 0; the
kind bits are the zone's for every code (DESIGN CHOICE, log 170). -/
def KilnFit.entry (f : KilnFit) (i : Nat) (b : BinFit) : List Byte :=
  let z := zoneOf f.zones i
  let (kind, v) := zoneValue z b.nu f.anchor f.coilT
  let shown := b.code == 0 || b.code == 2
  let sh := if shown then clampI 0 0xFFFFFFFF (b.nu.mul (Num.ofNat 1000)).roundAway else 0
  let lw := if shown then clampI 0 0xFFFF (b.gamma.mul (Num.ofNat 100)).roundAway else 0
  leBytes 4 sh.toNat ++ leBytes 4 (if b.code = 0 then ofSigned 32 v else 0) ++ leBytes 2 lw.toNat ++ leBytes 1 b.snr
    ++ leBytes 1 (b.code + 8 * kind)

/-- An optional number as binary32, NaN where there is none. -/
def f32Opt (x : Option Num) : Nat := match x with
  | some n => n.toF32
  | none => nan32

/-- The header of a profile (kind 0) or raw record (kind 1) (R198). -/
def KilnFit.header (f : KilnFit) (q : Port) (kind invalid : Nat) (stale low : Bool) : List Byte :=
  let a := f.acc
  leBytes 8 (a.first.getD 0) ++ leBytes 8 a.last ++ leBytes 6 a.lastTide ++ leBytes 2 a.cfg.epoch ++ leBytes 4 f.seq
    ++ leBytes 4 a.accepted ++ leBytes 2 (min 0xFFFF a.dropped) ++ leBytes 2 a.cfg.bins
    ++ leBytes 2 (if kind = 0 then min 0xFFFF invalid else 0)
    ++ leBytes 1 (Port.num q + 2 * bit a.cfg.mode16 + 4 * bit a.cold + 8 * bit stale + 16 * bit f.anchor.isNone + 32 * bit low
        + 64 * bit f.over_ + 128 * bit a.timeFree)
    ++ leBytes 1 (bit (decide (10000 < f.eSyn.natAbs)) + 2 * bit f.calStale + 4 * bit f.incomplete + 8 * bit f.shape.isNone + 64 * kind)
    ++ leBytes 4 (f32Opt f.coilT) ++ leBytes 4 (f32Opt f.anchor)

/-- The edge of the Tide after the fit's end has passed (R45). -/
def State.fitLate (s : State) (f : KilnFit) : Bool := f.bins.isSome && decide (f.endedAt + 1 ≤ s.tide.edges)

/-- The oldest fit of a port, if it has ended, is anchored, converted and delivered (R192, R193, R197); marked INCOMPLETE where
its deadline has come (R46). -/
def State.assemble (s : State) (q : Port) (incomplete : Bool) : State :=
  match (s.port q).kiln.fits with
  | f0 :: rest =>
    match f0.bins with
    | some bins =>
      let f : KilnFit := { f0 with incomplete := incomplete }
      let a := f.acc
      let c := a.cfg
      let coil := (upTo c.coilCount).filterMap (fun j =>
        match bins[c.coilFirst + j]? with
        | some b => if b.code = 0 then some b.nu else none
        | none => none)
      let cand : Option Num := match f.coilT with
        | some t => if c.coilCount ≤ 2 * coil.length then
            some (((Num.sum coil).div (Num.ofNat coil.length)).sub ((s.pr q 0x4010 0x13).mul (t.sub (Num.ofNat 25)))) else none
        | none => none
      let s := s.anchorUpdate q cand
      let stale := decide (8 ≤ (s.port q).kiln.noAccept)
      let low := decide (a.accepted * 100 < s.pn q 0x4010 0xB * 2 ^ c.shots)
      let invalid := (bins.filter (fun b => b.code != 0)).length
      let prof := f.header q 0 invalid stale low ++ ((upTo bins.length).flatMap (fun i => f.entry i (bins.getD i { code := 4 })))
      let raw := f.header q 1 0 stale low ++ a.cells.flatMap (fun r => r.flatMap (leBytes 4))
        ++ (upTo (kilnCh c.mode16)).flatMap (fun j => leBytes 4 (match f.shape with | some l => l.getD j 0 | none => f32OfInt 1))
      let fl := (bins.filter (fun b => b.code != 4 && b.code != 5 && b.code != 6)).map (·.floor)
      let floor := if fl.isEmpty ∨ a.accepted = 0 then Num.zero
        else ((Num.sum fl).div (Num.ofNat fl.length)).div (Num.ofNat a.accepted)
      let s := s.modKiln q (fun k => { k with
        fits := rest, lastTime := a.last, lastAccepted := a.accepted, lastDropped := a.dropped, coilT := f.coilT
        floorCode := floor.toF32 })
      let t := a.first.getD 0
      let s := s.deliver q (bitOf c.dest 0) 2 6 (bitOf c.dest 2) 4 t a.lastEll s.time.now 0 prof
      let s := s.deliver q (bitOf c.dest 1) 2 7 false 4 t a.lastEll s.time.now 0 raw
      if bitOf c.dest 3 then s.stream q prof else s
    | none => s
  | [] => s

/-- KILN_PROFILE_ASSEMBLY: stage 5 of R45, by its deadline. -/
def execKilnProfileAssembly (q : Port) (s : State) : Host.Outcome State Fault Refusal :=
  if s.up && ((s.port q).kiln.fits.head?.any (fun f => !s.fitLate f)) then .next (s.assemble q false) else .next s

/-! ## Shape calibration (R187) -/

/-- State of the shape of a mode. -/
def Kiln.setShapeState (k : Kiln) (m16 : Bool) (n : Nat) : Kiln :=
  if m16 then { k with shapeState16 := n } else { k with shapeState32 := n }

/-- Whether a write of 1 to ShapeCal is accepted (R187). -/
def State.shapeCalOk (s : State) (q : Port) : Bool :=
  s.live q && (s.port q).rx.kfgPass && !s.kilnOn q && !(s.port q).kiln.shapeRun

/-- A shape calibration starts: the synthesiser is powered and set. -/
def State.shapeStart (s : State) (q : Port) : State :=
  (s.modKiln q (fun k => { k with shapeRun := true, shapeSum := [], shapeN := 0, shapeRuns := [] })).setSynth q false

/-- One run's values normalised to a mean of 1. -/
def shapeNorm (l : List Nat) : List Num :=
  let m := Num.ofRatio (sumN l) l.length
  l.map (fun x => (Num.ofNat x).div m)

/-- SHAPE_CAL_DONE (R187): the two runs have ended with a value G(c) per channel each. They agree within 0.2 dB in every channel,
or fail. -/
def execShapeCalDone (q : Port) (s : State) : Host.Outcome State Fault Refusal :=
  let k := (s.port q).kiln
  let run1 := k.shapeRuns.getD 1 []
  let run2 := k.shapeRuns.getD 0 []
  if s.up && k.shapeRun && k.shapeRuns.length == 2 then
    let m16 := s.pn q 0x4010 5 == 16
    let a := shapeNorm run1
    let b := shapeNorm run2
    let n := kilnCh m16
    let lim := Num.exp10 (Num.dec 2 2)
    let agree := run1.length == n && run2.length == n && run1.all (0 < ·) && run2.all (0 < ·) &&
      (a.zip b).all (fun z => (z.1.div z.2).le lim && (z.2.div z.1).le lim)
    let mean : List Nat := (a.zip b).map (fun z => ((z.1.add z.2).scale (-1)).toF32)
    let s := s.modKiln q (fun k =>
      let k := { k with shapeRun := false, shapeRuns := [] }
      if agree then (if m16 then { k with shape16 := some mean } else { k with shape32 := some mean }).setShapeState m16 1
      else k.setShapeState m16 2)
    let s : State := if agree then { s with flash := { s.flash with
        cal := insertKey (0x100 + 2 * Port.num q + bit m16) (mean.map Int.ofNat) s.flash.cal } } else s
    .next (s.setSynth q false)
  else .next s

/-! ## Frequency reference (R194) -/

/-- FREQ_REF_CAL_RUN: the count of SYN / 256 over 1 s. Two runs that agree within 500 Hz are accepted. -/
def execFreqRefCalRun (q : Port) (count : Nat) (s : State) : Host.Outcome State Fault Refusal :=
  let k := (s.port q).kiln
  if s.up && k.freqRun && (s.port q).syn.on && (s.port q).syn.locked then
    let e := ((Num.ofNat (256 * count)).sub (s.synHz q)).nearest
    let (c, v) := k.freq.run [500] s.time.now [e]
    .next (s.modKiln q (fun k => { k with
      freq := c, freqRun := v != some true, eSyn := if v = some true then c.target.getD 0 0 else k.eSyn }))
  else .next s

/-- FREQ_REF_CAL_PERIOD: every 600 s a new calibration begins its 1 s count (R194). -/
def execFreqRefCalPeriod (q : Port) (s : State) : Host.Outcome State Fault Refusal :=
  if s.up && (s.port q).syn.on then
    .next (s.modKiln q (fun k => { k with freqRun := true, freq := { k.freq with prev := none } }))
  else .next s

/-! ## The tone's alias (R201) -/

/-- The Tide edge's report of the alias level, in 0.01 dB below channel full scale (R201): the mean difference over the Tide's
slot 0 launches (log 129). It keeps its value while the engine is off, and a mean that is not positive reads 0xFFFF (DESIGN CHOICE,
log 171). -/
def State.aliasEdge (s : State) (q : Port) : State :=
  if s.kilnRuns q && s.kilnOn q then
    let k := (s.port q).kiln
    let lvl := if (aliasChannel (s.pn q 0x4010 2)).isSome then levelBelow k.aliasSum (1024 * k.aliasN) else 0xFFFF
    (s.modKiln q (fun k => { k with aliasLvl := lvl, aliasSum := Num.zero, aliasN := 0 })).raiseIf (lvl != 0xFFFF && decide (lvl ≤ 100 * s.pn q 0x4010 0xD)) (stKiln q) 6
  else s

/-! ## Commits (R184, R187) -/

/-- A commit at the Kiln engine: `changed` where the plan, KilnEnable or a Kiln object changed (R184), `was` whether the engine
was enabled before. Firmware reloads the engine's registers (R202); a commit that enables the engine abandons a shape
calibration (R187) and starts a frequency reference calibration (R194). -/
def State.kilnCommit (s : State) (q : Port) (changed was : Bool) : State :=
  let s := if s.kilnOn q then s.modKiln q (fun k => { k with shapeRun := false, shapeRuns := [] }) else s
  let s := if changed then (s.kilnDiscard q s.tide.edge).kilnConfig q else s
  s.setSynth q (s.kilnOn q && !was)

/-- KilnState (R200). -/
def State.kilnState (s : State) (q : Port) : Nat :=
  let k := (s.port q).kiln
  if (s.port q).rx.kfgFail then 4 else if k.shapeRun then 3 else if k.acc.isSome then 2 else if k.waiting then 1 else 0

/-- State of a buffer: 0 free, 1 filling, 2 full (R182, R202). -/
def State.kilnBuf (s : State) (q : Port) (b : Nat) : Nat :=
  let k := (s.port q).kiln
  if k.acc.any (fun a => a.buf == b) then 1 else if k.fits.any (fun f => f.acc.buf == b && f.bins.isNone) then 2 else 0

end Sys2Proof.Machine
end

