-- ==== Sys2Proof/Machine/Hk.lean ====
section
/-! DEFINITION. Housekeeping converter, bridge front end and their calibrations (spec/16_housekeeping_calibration.md). -/
namespace Sys2Proof.Machine
open Sys2Proof

/-- Change the housekeeping part. -/
def State.modHk (s : State) (f : Hk → Hk) : State := { s with hk := f s.hk }

/-- HkReference in force (R442): 3 acts as 0. -/
def State.hkRef (s : State) : Nat := bitsOf (s.reg 0x40 4) 1 0 % 3

/-- HK_CTRL.ENABLE. -/
def State.hkOn (s : State) : Bool := s.up && bitOf (s.reg 0x40 0) 0

/-- The nominal reference, mV (R442). -/
def State.hkRefMv (s : State) : Nat := if s.hkRef = 2 then 1800 else 2500

/-- The bias loop of a port runs (R66, R67). -/
def State.biasRuns (s : State) (q : Port) : Bool := (s.port q).opt.bias == 1 || (s.port q).opt.bias == 2

/-- A bridge's enable in HK_CTRL (R465). -/
def State.brOn (s : State) (n : Nat) : Bool := bitOf (s.reg 0x40 0) (3 + n)

/-- A bridge channel. -/
def Hk.br (h : Hk) (n : Nat) : Bridge := if n = 0 then h.br0 else h.br1

/-- Change a bridge channel. -/
def State.modBr (s : State) (n : Nat) (f : Bridge → Bridge) : State :=
  s.modHk (fun h => if n = 0 then { h with br0 := f h.br0 } else { h with br1 := f h.br1 })

/-- The slot has an active owner of its own (R443): a bridge's enable counts from conversion boundary to conversion boundary (R454). -/
def State.slotOwned (s : State) (slot : Nat) : Bool :=
  match slot % 10 with
  | 0 => s.biasRuns .a
  | 1 => s.biasRuns .b
  | 2 => s.hk.br0.cfg.en
  | 3 => s.hk.br1.cfg.en
  | _ => false

/-- Entries of the scan list in use (R444, R465). -/
def State.scanLen (s : State) : Nat := min 32 (bitsOf (s.reg 0x40 4) 13 8)

/-- Scan entry `i` as source + 32 for differential; sources 24–31 act as 0 (R465). -/
def State.scanEntry (s : State) (i : Nat) : Nat :=
  let r := s.reg 0x40 (0x100 + 4 * i)
  (if 24 ≤ r % 32 then 0 else r % 32) + 32 * bit (bitOf r 5)

/-- The converter runs an acquisition or a conversion (R446): the slot after the last one served has work. -/
def State.hkBusy (s : State) : Bool :=
  s.slotOwned (s.hk.slot + 1) || (s.hk.pass.isSome && s.hk.run == .none)

/-- HK_CFG, the scan list and HK_CTRL.SCAN_EN from the objects in force (R444, R465). -/
def State.syncScan (s : State) : State :=
  let s := s.setReg 0x40 4 (s.nat 0x8000 3 % 64 * 2 ^ 8 + s.nat 0x8000 2 % 2 * 4 + s.nat 0x8000 1 % 4)
  let s := (upTo 32).foldl (fun s i => s.setReg 0x40 (0x100 + 4 * i) (s.nat 0x8001 (i + 1) % 64)) s
  s.setRegBit 0x40 0 1 (0 < s.nat 0x8000 3)

/-- The scan list and its length as Next Tide writes left them apply between two passes (R444). -/
def State.scanList (s : State) : State :=
  if s.hk.pass.isSome then s.modHk (fun h => { h with listDue := true }) else (s.modHk (fun h => { h with listDue := false })).syncScan

/-- A source is in the scan list in use (R444, R463). -/
def State.scanned (s : State) (i : Nat) : Bool := (upTo s.scanLen).any (fun k => s.scanEntry k % 32 == i)

/-- Limit a code and say whether it lies at a limit (R441). -/
def codeLimit (lo hi x : Int) : Int × Bool := let c := clampI lo hi x; (c, decide (c = lo) || decide (c = hi))

/-- The code of a conversion before alignment (R441): voltages in µV, the self-calibration's offset and gain applied
before the code is formed (R447). -/
def State.hkCode (s : State) (diff : Bool) (vp vn vref : Int) : Int × Bool :=
  let full : Int := if diff then 2048 else 4096
  let v := if diff then vp - vn else vp
  -- (full × V / V_ref − offset / 16) × gain / 32768
  let num := (16 * full * v - s.hk.ofs * vref) * s.hk.gain
  let den := 16 * vref * 32768
  let c := num / den
  if diff then codeLimit (-2048) 2047 c else codeLimit 0 4095 c

/-- VALUE of a code (R441). -/
def State.hkAlign (s : State) (c : Int) : Nat :=
  if bitOf (s.reg 0x40 4) 2 then ofSigned 12 c * 16 else ofSigned 16 c

/-- Place a result in AUX_DATA (R445): one that replaces an unread one counts an overrun. -/
def State.placeAux (s : State) (a : Aux) : State :=
  let s' := s.modHk (fun h => { h with aux := { a with new := true, time := s.time.now }
                                       overruns := if h.aux.new then satAdd 0xFFFFFFFF h.overruns 1 else h.overruns })
  s'.raiseIf s.hk.aux.new stHk 0

/-- HK_SLOT_CONVERSION: one slot is served (R443), with what lies at the source's inputs and the reference, in µV. A
reserved slot whose owner is active gives the bias loop or the bridge its sample, which TIDE_EDGE and
BRIDGE_CONVERSION_END carry. -/
def execHkSlotConversion (slot : Nat) (vp vn vref : Int) (s : State) : Host.Outcome State Fault Refusal :=
  if s.hkOn && s.hk.refRdy && decide (0 < vref) then
    let s := s.modHk (fun h => { h with slot := slot % 10 })
    if s.slotOwned slot then .next s
    else if s.hk.run = .self ∧ ¬ s.hk.ready then .next s
    else
      match s.hk.inj with
      | some e =>
        let (c, o) := s.hkCode (bitOf e 5) vp vn vref
        let s := s.modHk (fun h => { h with inj := none })
        .next (s.placeAux { source := e % 32, inj := true, diff := bitOf e 5, ovr := o, value := s.hkAlign c })
      | none =>
        if s.hk.run ≠ .none then .next s
        else match s.hk.pass with
        | none => .next s
        | some i =>
          let e := s.scanEntry i
          let (c, o) := s.hkCode (bitOf e 5) vp vn vref
          let s := s.placeAux { source := e % 32, entry := i, diff := bitOf e 5, ovr := o, value := s.hkAlign c }
          let due := s.hk.passDue
          if i + 1 < s.scanLen then .next (s.modHk (fun h => { h with pass := some (i + 1) }))
          else
            -- the pass ends: a list that waited for it applies (R444)
            let s := s.modHk (fun h => { h with pass := none, passDue := false })
            let s := if s.hk.listDue then s.scanList else s
            if due ∧ 0 < s.scanLen then
              let s := s.modHk (fun h => { h with pass := some 0, scanLate := satAdd 0xFFFFFFFF h.scanLate 1 })
              .next (s.raise stHk [2])
            else .next s
  else .next s

/-- HK_SCAN_PASS_START: ScanPeriod has passed (R444). -/
def execHkScanPassStart (s : State) : Host.Outcome State Fault Refusal :=
  if s.hkOn && s.hk.ready && bitOf (s.reg 0x40 0) 1 && decide (0 < s.scanLen) then
    if s.hk.pass.isSome then .next (s.modHk (fun h => { h with passDue := true }))
    else .next (s.modHk (fun h => { h with pass := some 0 }))
  else .next s

/-- AUX_DATA as it reads (R465). -/
def Aux.word (a : Aux) : Nat :=
  a.source % 32 * 2 ^ 27 + a.entry % 32 * 2 ^ 22 + bit a.inj * 2 ^ 21 + bit a.diff * 2 ^ 20 + bit a.ovr * 2 ^ 19
    + bit a.brk * 2 ^ 18 + bit a.settling * 2 ^ 17 + bit a.new * 2 ^ 16 + a.value % 2 ^ 16

/-- SourceValue of a result, binary32 bits (R442, R449): code × nominal reference / full scale, with the system
calibration of an external input. The die sensors' scale is not given: free. -/
def State.sourceValue (s : State) (a : Aux) : Nat × State :=
  if a.source = 16 ∨ a.source = 17 then
    let (v, s) := s.takeFree
    (v % 2 ^ 32, s)
  else
    let raw := if bitOf (s.reg 0x40 4) 2 then a.value / 16 else a.value % 2 ^ 12
    let c := if a.diff then toSigned 12 raw else (raw : Int)
    let x := if a.source < 16 then
        ((Num.ofInt c).sub (s.real 0x8030 (a.source + 1))).mul (s.real 0x8031 (a.source + 1))
      else Num.ofInt c
    ((x.mul (Num.ofRatio s.hkRefMv (1000 * (if a.diff then 2048 else 4096)))).toF32, s)

/-- AUX_DATA is read: only the sequencer, initiator 31, takes the result into its write queue of 16 entries and clears NEW; while
the queue is full it leaves AUX_DATA unread (R445). -/
def State.auxRead (s : State) (init : Nat) : State :=
  let a := s.hk.aux
  if init = 31 ∧ a.new ∧ s.hk.queue.length < 16 then
    s.modHk (fun h => { h with aux := { a with new := false }, queue := h.queue ++ [a] })
  else s

/-- The oldest entry of the write queue reaches firmware's result table (R445): the value of its source, or that of an injected
request (R446, R463). -/
def State.auxWritten (s : State) : State :=
  match s.hk.queue with
  | [] => s
  | a :: rest =>
    let s := s.modHk (fun h => { h with queue := rest })
    if a.source < 24 then
      let (v, s) := s.sourceValue a
      if a.inj then s.modHk (fun h => { h with injResult := v })
      else s.modHk (fun h => { h with values := insertKey a.source ⟨v, a.time, a.ovr || a.brk⟩ h.values })
    else s

/-- As many of the queue's writes as the fabric has completed (R439, R445). -/
def State.auxDrain (s : State) (done : Nat) : State := (upTo (min done 16)).foldl (fun s _ => s.auxWritten) s

/-- A request for an injected conversion (R446), decided at this instant. -/
def State.injectRequest (s : State) (e : Nat) : State :=
  if s.hkBusy ∨ s.hk.run ≠ .none ∨ s.hk.inj.isSome then
    (s.modHk (fun h => { h with injDrops := satAdd 0xFFFFFFFF h.injDrops 1, injResult := nan32 })).raise stHk [1]
  else s.modHk (fun h => { h with inj := some (e % 64) })

/-! ## References and calibration -/

/-- REFRDY: the reference has settled (R442). After a loss conversions resume. -/
def execRefrdy (s : State) : Host.Outcome State Fault Refusal :=
  if s.hkOn then .next (s.modHk (fun h => { h with refRdy := true, refLost := false })) else .next s

/-- REFIN_LOST: REFIN leaves its range while in use (R442). -/
def execRefinLost (s : State) : Host.Outcome State Fault Refusal :=
  if s.hkOn ∧ s.hkRef = 1 ∧ s.hk.refRdy then
    .next (((s.modHk (fun h => { h with refRdy := false, refLost := true })).raise stHk [4]).contained 0x40 0 1)
  else .next s

/-- Start a self-calibration (R447, R448); none while a calibration runs. -/
def State.selfCalStart (s : State) : Option State :=
  if s.hk.run = .none then some (s.modHk (fun h => { h with run := .self, again := false, selfState := 3 })) else none

/-- The runs agree: within 1 LSB of offset and 0.05 % of gain (R447). -/
def selfAgree (o1 o2 : Int) (g1 g2 : Nat) : Bool :=
  decide ((o1 - o2).natAbs ≤ 16) && decide (2000 * ((g1 : Int) - g2).natAbs ≤ 0x8000)

/-- HK_SELF_CAL_DONE: the two runs end, with their offsets in 1/16 LSB and gain factors with 0x8000 = 1 (R447, R448). -/
def execHkSelfCalDone (o1 o2 : Int) (g1 g2 : Nat) (s : State) : Host.Outcome State Fault Refusal :=
  let h := s.hk
  if s.hkOn ∧ h.run = .self ∧ h.refRdy then
    if selfAgree o1 o2 g1 g2 then
      let o := (o1 + o2) / 2
      let g := (g1 + g2) / 2
      let s := s.modHk (fun h => { h with run := .none, ready := true, again := false, ofsT := o, gainT := g
                                          ofs := if h.ready then h.ofs else o, gain := if h.ready then h.gain else g
                                          selfState := 1, calCount := satAdd 0xFFFFFFFF h.calCount 1, calTime := s.time.now })
      .next (s.raise stHk [8])
    else if ¬ h.ready ∧ ¬ h.again then
      .next (s.modHk (fun h => { h with again := true }))
    else
      let s := s.modHk (fun h => { h with run := .none, again := false, selfState := 2
                                          calFails := satAdd 0xFFFFFFFF h.calFails 1 })
      let s := if h.ready then s else
        s.modHk (fun h => { h with ready := true, ofsT := 0, gainT := 0x8000, ofs := 0, gain := 0x8000 })
      .next ((s.raise stHk [5]).contained 0x40 0 2)
  else .next s

/-- HK_SELF_CAL_STALE: 4 × HkCalPeriod without an acceptance (R448). -/
def execHkSelfCalStale (s : State) : Host.Outcome State Fault Refusal :=
  if s.up ∧ s.nat 0x8020 5 ≠ 0 ∧ s.hk.run ≠ .self then .next (s.modHk (fun h => { h with selfState := 4 })) else .next s

/-- One Tide's movement of the factors in use (R448): at most 0.25 LSB and 0.005 %. -/
def State.hkEdge (s : State) : State :=
  s.modHk (fun h =>
    { h with ofs := if h.ofs < h.ofsT then min h.ofsT (h.ofs + 4) else max h.ofsT (h.ofs - 4)
             gain := if h.gain < h.gainT then min h.gainT (h.gain + 1) else max h.gainT (h.gain - 1) })

/-- An offset has been accepted for an input (R449): its object holds a value. -/
def State.zeroAccepted (s : State) (input : Nat) : Bool := (lookup (objKey 0x8030 (input % 32 + 1)) s.od.act).isSome

/-- Start a system calibration (R449); none while a calibration runs or a gain run has no offset. -/
def State.sysCalStart (s : State) (full : Bool) (input : Nat) : Option State :=
  if s.hk.run ≠ .none ∨ (full ∧ ¬ s.zeroAccepted input) then none
  else some (s.modHk (fun h => { h with run := .sys full (input % 64), sysState := 3 }))

/-- The codes two runs of 256 conversions must show at full scale (R449), as a multiple of 256. -/
def State.sysExpected (s : State) (input : Nat) : Num :=
  (s.real 0x8020 6).mul (Num.ofRatio (1000 * (if bitOf input 5 then 2048 else 4096)) s.hkRefMv)

/-- SYS_CAL_DONE: the sums of the codes of two runs of 256 conversions (R449). -/
def execSysCalDone (s1 s2 : Int) (s : State) : Host.Outcome State Fault Refusal :=
  match s.hk.run with
  | .sys full input =>
    let sub := input % 32 + 1
    let keep (idx : Nat) (v : Num) : Host.Outcome State Fault Refusal :=
      let b := leBytes 4 v.toF32
      let s := s.modHk (fun h => { h with run := .none, sysState := 1 })
      .next (((s.setObj idx sub b).storeWrite (objKey idx sub) b).raise stHk [8])
    let reject : Host.Outcome State Fault Refusal :=
      .next ((s.modHk (fun h => { h with run := .none, sysState := 2, calFails := satAdd 0xFFFFFFFF h.calFails 1 })).raise stHk [5])
    if full then
      let o := s.real 0x8030 sub
      let a := (Num.ofRatio s1 256).sub o
      let b := (Num.ofRatio s2 256).sub o
      if a.isZero ∨ b.isZero then reject
      else if ((Num.ofInt 2000).mul (a.sub b).abs).le (a.add b).abs then
        keep 0x8031 (((s.sysExpected input).div a).add ((s.sysExpected input).div b) |>.scale (-1))
      else reject
    else if (s1 - s2).natAbs ≤ 512 then keep 0x8030 (Num.ofRatio (s1 + s2) 512)
    else reject
  | _ => .next s

/-! ## The bridges (R450–R455) -/

/-- The excitation current of ISEL, µA (R465). -/
def iselUa (n : Nat) : Nat := [50, 100, 250, 500].getD n 1000

/-- The settings a bridge's registers and objects hold (R464, R465). -/
def State.brCfg (s : State) (n : Nat) : BrCfg :=
  let r := s.reg 0x40 (0x200 + 0x10 * n)
  { en := s.brOn n, vmode := bitOf r 0, uA := iselUa (bitsOf r 10 8), mV := if bitOf r 1 then 2500 else 1250
    gain := 2 ^ bitsOf r 13 11, ms := max 1 (min 1000 (bitsOf r 23 14)), settle := bitsOf r 31 24
    func := s.nat (0x8010 + n) 8 }

/-- The settings of excitation, gain, function or enable differ (R454). -/
def BrCfg.resettles (a b : BrCfg) : Bool :=
  a.en != b.en || a.vmode != b.vmode || a.uA != b.uA || a.mV != b.mV || a.gain != b.gain || a.func != b.func

/-- New settings take effect at a conversion boundary (R454). -/
def State.brBoundary (s : State) (n : Nat) : State :=
  let c := s.brCfg n
  s.modBr n (fun b => { b with cfg := c, setA := if b.cfg.resettles c then c.settle else b.setA })

/-- Sum of the samples of a conversion (R451), `runs` giving for consecutive samples their number, V_in and V_S (any one
unit, V_S positive); and whether one clipped. -/
def brSum (g : Nat) : Nat → List (Nat × Int × Nat) → Int × Bool
  | _, [] => (0, false)
  | k, (n, vin, vs) :: rest =>
    let r := (upTo n).foldl (fun (acc : Int × Bool) i =>
      let x := if vs = 0 then (if vin < 0 then -2048 else 2047)
        else (16 * 2048 * g * vin + ((k + i) % 16 : Nat) * vs) / (16 * vs : Nat)
      let c := clampI (-2048) 2047 x
      (acc.1 + c, acc.2 || decide (c ≠ x))) (0, false)
    let t := brSum g (k + n) rest
    (r.1 + t.1, r.2 || t.2)

/-- Samples a conversion takes (R451). -/
def BrCfg.samples (c : BrCfg) : Nat := 16 * (c.ms * 100 / 16)

/-- BRIDGE_CONVERSION_END: the samples of the conversion form its code; new settings take effect here (R451, R454). The
first boundary after an enable begins the first conversion. -/
def execBridgeConversionEnd (n : Nat) (runs : List (Nat × Int × Nat)) (s : State) : Host.Outcome State Fault Refusal :=
  if s.hkOn ∧ n < 2 then
    let b := s.hk.br n
    let c := b.cfg
    if ¬ c.en then .next (s.brBoundary n)
    else if s.hk.refRdy ∧ s.hk.ready ∧ sumN (runs.map (·.1)) = c.samples then
      let (sum, clip) := brSum c.gain 0 runs
      let code := clampI (-32768) 32767 (16 * sum / c.samples)
      let s := s.modBr n (fun b => { b with wait := some ⟨code, clip, c, b.brk, decide (0 < b.setA)⟩, brk := false, setA := b.setA - 1 })
      .next (s.brBoundary n)
    else .next s
  else .next s

/-- V_S as the running conversion's excitation predicts it, µV (R453). -/
def State.predictedVs (s : State) (n : Nat) : Num :=
  let c := (s.hk.br n).cfg
  let rref := s.real (0x8010 + n) 9
  let mv := Num.ofNat (1000 * c.mV)
  if ¬ c.vmode then (Num.ofNat c.uA).mul rref
  else if c.func = 0 then mv
  else (mv.mul rref).div (rref.add (s.real (0x8010 + n) 0xA))

/-- A monitor trips (R453), from the voltage across the excitation drive, V_S, and those of BRGn_P and BRGn_N, all in µV: the current
source is at its compliance of 2.6 V (R450), V_S is below half of its predicted value, or an input lies outside 0.05 V to 2.70 V. -/
def State.bridgeTrip (s : State) (n : Nat) (drive vs vp vn : Int) : Bool :=
  let out (v : Int) : Bool := decide (v < 50000) || decide (2700000 < v)
  (!(s.hk.br n).cfg.vmode && decide (2600000 ≤ drive)) || (Num.ofInt (2 * vs)).lt (s.predictedVs n) || out vp || out vn

/-- BRIDGE_BREAK_DETECT: what the monitors see of the wiring (R453): where one trips, the running conversion and one in its hold are
flagged. A break that lasts trips it in each later conversion too. -/
def execBridgeBreakDetect (n : Nat) (drive vs vp vn : Int) (s : State) : Host.Outcome State Fault Refusal :=
  if s.hkOn ∧ n < 2 ∧ (s.hk.br n).cfg.en ∧ s.bridgeTrip n drive vs vp vn then
    .next (s.modBr n (fun b => { b with brk := true, wait := b.wait.map (fun w => { w with brk := true }) }))
  else .next s

/-- Newton's method on R0 (1 + A T + B T² + C (T − 100) T³) − R. -/
def cvdNewton (a b c r : Num) : Nat → Num → Num
  | 0, t => t
  | n + 1, t =>
    let t2 := t.mul t
    let t3 := t2.mul t
    let f := ((((a.mul t).add (b.mul t2)).add (c.mul ((t3.mul t).sub ((Num.ofInt 100).mul t3)))).add (Num.ofInt 1)).sub r
    let d := (a.add ((b.mul t).scale 1)).add (c.mul (((t3.scale 2)).sub ((Num.ofInt 300).mul t2)))
    if d.isZero then t else cvdNewton a b c r n (t.sub (f.div d))

/-- The Callendar–Van Dusen temperature of R / R0 (R452); none where the equation has no solution in its branch. -/
def cvd (a b c r : Num) : Option Num :=
  let one := Num.ofInt 1
  if one.le r then
    if b.isZero then (if a.isZero then none else some ((r.sub one).div a))
    else
      let d := (a.mul a).sub ((b.scale 2).mul (one.sub r))
      if d.lt Num.zero then none else some ((d.sqrt.sub a).div (b.scale 1))
  else if a.isZero then none
  else some (cvdNewton a b c r 40 ((r.sub one).div a))

/-- BRIDGE_RESULT: the result of the conversion that ended 10 µs ago is delivered (R451–R454). -/
def execBridgeResult (n : Nat) (s : State) : Host.Outcome State Fault Refusal :=
  match (s.hk.br n).wait with
  | none => .next s
  | some w =>
    if n < 2 then
      let b := s.hk.br n
      let settling := w.first || (!w.brk && decide (0 < b.setB))
      let i := 0x8010 + n
      let ratio := (Num.ofInt (2 * w.code + 1)).div (Num.ofInt (65536 * w.cfg.gain))
      let r0 := s.real i 0xA
      let t : Option Num := if w.cfg.func = 1 ∧ ¬ r0.isZero then
          cvd (s.real i 0xB) (s.real i 0xC) (s.real i 0xD) ((ratio.mul (s.real i 9)).div r0)
        else none
      let (f, s) := s.takeFree
      let t32 := match t with
        | some x => x.toF32
        | none => if w.cfg.func = 1 then f % 2 ^ 32 else nan32
      let flags := bit settling + 2 * bit w.brk + 4 * bit w.ovr
      let s := s.modBr n (fun b =>
        { b with wait := none, code := w.code, flags := flags, ratio := ratio.toF32, temp := t32
                 breaks := if w.brk then satAdd 0xFFFFFFFF b.breaks 1 else b.breaks
                 setB := if w.brk then w.cfg.settle else b.setB - 1 })
      let s := s.raiseIf w.brk stHk (6 + n)
      let s := s.placeAux { source := 24 + n, ovr := w.ovr, brk := w.brk, settling := settling, value := ofSigned 16 w.code }
      .next (if w.cfg.func = 1 then s.coilResult n (f32Num t32) settling w.brk else s)
    else .next s

/-- Level of AMONn, µV, for an input voltage in µV; none where it is high-impedance (R455). -/
def State.amonOut (s : State) (n : Nat) (vin : Int) : Option Int :=
  if bitOf (s.reg 0x40 0) (5 + n) && s.brOn n then some (clampI 100000 1700000 (900000 + (s.hk.br n).cfg.gain * vin / 2)) else none

/-! ## Transmit DAC trims (R462) -/

/-- Agreement of a DAC trim run and its step per Tide (R461): offset 0.01 LSB, gain 0.001 dB, skew 0.1 ps. -/
def trimTol : List Int := [20, 10, 10]
def trimStep : List Int := [5, 2, 2]

/-- The trims' Tide: the move of R458, and the stale limit of 65,536 Tides (R459–R461). -/
def State.trimEdge (s : State) (q : Port) : State :=
  s.modPort q (fun ps =>
    let c := ps.trim.move trimStep
    let n := if s.unmuted q then c.tides + 1 else c.tides
    { ps with trim := { c with tides := n, state := if 65536 ≤ n then 3 else c.state } })

/-- DAC_TRIM_RUN: 4,096 gaps have been gathered (R462); the item pauses while the outputs are muted (R460). -/
def execDacTrimRun (q : Port) (res : List Int) (s : State) : Host.Outcome State Fault Refusal :=
  let ps := s.port q
  if s.up && s.domain (10 + Port.num q) && ps.hasPlan && ps.trim.window && s.unmuted q && decide (4096 ≤ ps.gaps) then
    let (c, v) := ps.trim.run trimTol s.time.now res
    let c := if v = some false then { c with state := 2 } else c
    .next (s.modPort q (fun ps => { ps with trim := c, gaps := 0 }))
  else .next s

end Sys2Proof.Machine
end

