-- ==== Sys2Proof/Machine/Dram.lean ====
section
/-! DEFINITION. The 288-bit code and the DRAM controller (spec/10_dram_controller.md). -/
namespace Sys2Proof.Machine
open Sys2Proof

/-! ## The code (R265–R267) -/

/-- Product of two polynomials over GF(2), the second below degree 32. -/
def polyMul (a b : Nat) : Nat := (upTo 32).foldl (fun r i => if b.testBit i then r ^^^ (a <<< i) else r) 0

/-- g = (x + 1) m₁ m₃ m₅ over α with α⁹ + α⁴ + 1 = 0 (R266). -/
def eccGen : Nat := polyMul (polyMul (polyMul 0x3 0x211) 0x259) 0x331

/-- Remainder modulo g of the bits of `n` below `k`, from the highest down. -/
def eccRem (n : Nat) : Nat → Nat → Nat
  | 0, r => r
  | k + 1, r =>
    let t := 2 * r + bit (n.testBit k)
    eccRem n k (if t.testBit 28 then t ^^^ eccGen else t)

/-- The information vector: codeword bits 259:0 and the line's address bits 39:5 (R266). -/
def eccInfo (w260 addr : Nat) : Nat := w260 % 2 ^ 260 + bitsOf addr 39 5 * 2 ^ 260

/-- Check bits of a word (R266). -/
def eccCheck (w260 addr : Nat) : Nat := eccRem (eccInfo w260 addr * 2 ^ 28) 323 0

/-- Data, poison flag and stream tag as codeword bits 259:0 (R265). -/
def eccWord (data : List Byte) (poison : Bool) (tag : Nat) : Nat :=
  leNat (data.take 32) + bit poison * 2 ^ 256 + tag % 8 * 2 ^ 257

/-- The codeword of a word at a line's address. -/
def eccEncode (w260 addr : Nat) : Nat := w260 % 2 ^ 260 + eccCheck w260 addr * 2 ^ 260

/-- The syndrome of a received codeword at the address it was asked for. -/
def eccSyndrome (cw addr : Nat) : Nat := eccCheck cw addr ^^^ (cw / 2 ^ 260 % 2 ^ 28)

/-- Syndromes of the positions of the code, x^i modulo g, from position i on. -/
def eccPositions : Nat → Nat → List Nat
  | 0, _ => []
  | n + 1, v => v :: eccPositions n (let t := 2 * v; if t.testBit 28 then t ^^^ eccGen else t)

/-- One position whose syndrome is `s`, of those of index `lo` and above. -/
def eccOne (l : List Nat) (lo s : Nat) : Option (List Nat) := ((l.drop lo).idxOf? s).map (fun i => [i + lo])

/-- Positions, at most three, whose syndromes sum to `s` (R267). -/
def eccFind (l : List Nat) (s : Nat) : Option (List Nat) :=
  let idx := upTo l.length
  let two (lo s : Nat) : Option (List Nat) :=
    (idx.drop lo).findSome? (fun i => (eccOne l (i + 1) (s ^^^ l.getD i 0)).map (fun r => i :: r))
  match eccOne l 0 s with
  | some r => some r
  | none => match two 0 s with
    | some r => some r
    | none => idx.findSome? (fun i => (two (i + 1) (s ^^^ l.getD i 0)).map (fun r => i :: r))

/-- The classes of a check (R267). -/
inductive EccClass where
  | clean
  | corrected (w260 : Nat)
  | misaddress
  | uncorrectable
  deriving DecidableEq, Repr

/-- Codeword bit of a position: check bits stand at powers 0–27, word bits above them; none for an address position. -/
def eccBit (i : Nat) : Option Nat := if i < 28 then some (260 + i) else if i < 288 then some (i - 28) else none

/-- Check a received codeword (R267). -/
def eccDecode (cw addr : Nat) : EccClass :=
  let s := eccSyndrome cw addr
  if s = 0 then .clean
  else match eccFind (eccPositions 323 1) s with
  | none => .uncorrectable
  | some ps =>
    if ps.all (fun i => (eccBit i).isSome) then
      .corrected (ps.foldl (fun w i => match eccBit i with
        | some b => w ^^^ 2 ^ b
        | none => w) cw % 2 ^ 260)
    else .misaddress

/-- Invert bits of a codeword. -/
def flipBits (cw : Nat) (bits : List Nat) : Nat := bits.foldl (fun w b => w ^^^ 2 ^ (b % 288)) cw

/-- The 32 data bytes of a word. -/
def wordData (w : Nat) : List Byte := leBytes 32 (w % 2 ^ 256)
def wordPoison (w : Nat) : Bool := w.testBit 256
def wordTag (w : Nat) : Nat := bitsOf w 259 257

/-! ## Configuration in force (R261, R272, R289) -/

def State.ddrcCfg (s : State) : Nat := s.reg 0x2A 4
/-- Channels configured: 1, 2 or 4. -/
def State.cfgChans (s : State) : Nat := [1, 2, 4, 4].getD (bitsOf s.ddrcCfg 1 0) 4
/-- Active ranks per channel. -/
def State.ranksPer (s : State) : Nat := if bitOf s.ddrcCfg 2 then 2 else 1
/-- Rank size, MiB. -/
def State.rankMib (s : State) : Nat := [4096, 8192, 16384, 16384].getD (bitsOf s.ddrcCfg 5 4) 16384

/-- Active capacity, MiB (R272, R288). -/
def State.activeMib (s : State) : Nat := s.dram.chans.length * s.ranksPer * s.rankMib

/-- CellarCapacity, MiB: the active DRAM less firmware's 4 GiB (R238). -/
def State.cellarMib (s : State) : Nat := s.activeMib - 4096

/-- RealTimeBudget, bytes/s (R286); before training the default, of 4 channels. -/
def State.rtBudget (s : State) : Nat :=
  let per := if s.ranksPer = 2 then [8250, 9250, 10250, 11250] else [6750, 7500, 8250, 9000]
  (if s.dram.trained then s.dram.chans.length else 4) * per.getD (bitsOf s.ddrcCfg 7 6) 11250 * 1000000

/-- k of the interleave grain 2^k bytes (R272): IL_LOG2, below 8 acting as 8; it holds 4 bits, so firmware's 16 shows as 0 there and
is in force all the same (DEDUCED, log 142). -/
def State.grain (s : State) : Nat :=
  let f := bitsOf s.ddrcCfg 11 8
  if f = 0 ∧ s.nat 0x5080 6 = 16 then 16 else max 8 f

/-- Index among the channels in use of the channel that holds address `a` (R272). -/
def State.dramChan (s : State) (a : Nat) : Nat :=
  let k := s.grain
  let h := bitOf s.ddrcCfg 12
  match s.dram.chans.length with
  | 4 => bitsOf a (k + 1) k ^^^ (if h then bitsOf a 21 20 ^^^ bitsOf a 29 28 else 0)
  | 2 => bitsOf a k k ^^^ (if h then bitsOf a 20 20 ^^^ bitsOf a 28 28 else 0)
  | _ => 0

/-- The channel-local address (R272). -/
def State.dramLocal (s : State) (a : Nat) : Nat :=
  let k := s.grain
  let n := match s.dram.chans.length with
    | 4 => 2
    | 2 => 1
    | _ => 0
  a % 2 ^ k + a / 2 ^ (k + n) * 2 ^ k

/-- Where a byte lies (R273): channel, its chip select, and the address within the rank. -/
structure DramLoc where
  ch : Nat
  cs : Nat
  ofs : Nat
  deriving DecidableEq, Repr

/-- The mapping of R272 and R273. -/
def State.dramLoc (s : State) (a : Nat) : DramLoc :=
  let b := s.dramLocal a
  let ch := s.dram.chans.getD (s.dramChan a) 0
  if s.ranksPer = 2 then ⟨ch, bitsOf b 10 10, b % 2 ^ 10 + b / 2 ^ 11 * 2 ^ 10⟩ else ⟨ch, 0, b⟩

/-- Bank (group and address) and row within a rank (R273). -/
def DramLoc.bank (l : DramLoc) : Nat := bitsOf l.ofs 9 8 + 4 * bitsOf l.ofs 11 10
def DramLoc.row (l : DramLoc) : Nat := l.ofs / 2 ^ 17

/-- Column within a row, in bursts of 8: C[4:3] and C[9:5] (R273). -/
def DramLoc.column (l : DramLoc) : Nat := 8 * bitsOf l.ofs 7 6 + 32 * bitsOf l.ofs 16 12

/-- Rows of a bank. -/
def State.rowCount (s : State) : Nat := s.rankMib * 2 ^ 20 / 2 ^ 17

/-- DRAM is reachable at an address (R272, R289, R494). -/
def State.dramOk (s : State) (a : Nat) : Bool :=
  s.domain 2 && bitOf (s.reg 0x2A 0) 0 && s.dram.trained && decide (a < s.activeMib * 2 ^ 20)

/-- A line's metadata. -/
def State.lineInfo (s : State) (line : Nat) : Nat := (lookup line s.dram.info).getD 0

/-- Store a line's metadata; 0 is not listed. -/
def State.setInfo (s : State) (line v : Nat) : State :=
  { s with dram := { s.dram with info := if v = 0 then eraseKey line s.dram.info else insertKey line v s.dram.info } }

/-- A word of DRAM that carries the poison flag (R257, R271). -/
def State.linePoisoned (s : State) (a : Nat) : Bool := s.lineInfo (a / 32) % 2 == 1

/-- Codeword bits 259:0 that a line holds. -/
def State.lineWord (s : State) (line : Nat) : Nat :=
  let v := s.lineInfo line
  eccWord (s.read (32 * line) 32) (v % 2 == 1) (v / 2)

/-- Store a word at a line. -/
def State.putWord (s : State) (line w : Nat) : State :=
  (s.write (32 * line) (wordData w)).setInfo line (bit (wordPoison w) + 2 * wordTag w)

/-! ## Ranks: service, migration, retirement (R280–R284) -/

def State.modDram (s : State) (f : Dram → Dram) : State := { s with dram := f s.dram }

/-- Rank index of an active rank: its channel and the chip select that serves it (R281). -/
def State.rankOf (s : State) (ch cs : Nat) : Nat := 3 * ch + s.dram.serving.getD (2 * ch + cs) cs

/-- The ranks in service. -/
def State.inService (s : State) : List Nat :=
  s.dram.chans.flatMap (fun ch => (upTo s.ranksPer).map (fun cs => s.rankOf ch cs))

/-- The migration that runs on a channel. -/
def State.migOf (s : State) (ch : Nat) : Option Migration :=
  match lookup ch s.dram.migs with
  | some m => if m.state = 1 then some m else none
  | none => none

/-- The rank that a chip select of the controller names: an active one by what serves it, 2 the spare that is copied to. -/
def State.rankAt (s : State) (ch cs : Nat) : Nat := if cs = 2 then 3 * ch + 2 else s.rankOf ch cs

/-- The chip select a read of a location goes to: the spare below the copy pointer (R282). -/
def State.readCs (s : State) (l : DramLoc) : Nat :=
  match s.migOf l.ch with
  | some m => if m.rank = s.rankOf l.ch l.cs ∧ l.ofs < m.copied * 2 ^ 20 then 2 else l.cs
  | none => l.cs

/-- The rank a read of a location is served from (R282). -/
def State.readRank (s : State) (l : DramLoc) : Nat := s.rankAt l.ch (s.readCs l)

/-- Start a rank's migration to its spare (R281). -/
def State.startMigration (s : State) (rank : Nat) : State :=
  let ch := rank / 3
  let s := s.modDram (fun d => { d with migs := insertKey ch { rank := rank, start := s.time.now } d.migs, lastMig := some ch
                                        spare := setAt d.spare ch false })
  ((s.emit (.dram (3 * ch + 2) 4 0 0)).raise stDdrc [5]).contained 0x2A ch 3

/-- A spare is free on the rank's channel and no migration runs there (R281). -/
def State.canMigrate (s : State) (rank : Nat) : Bool :=
  s.dram.spare.getD (rank / 3) false && (s.migOf (rank / 3)).isNone

/-- A retirement cause on a rank (R281, R284). -/
def State.retireCause (s : State) (rank : Nat) : State :=
  let moving := match s.migOf (rank / 3) with
    | some m => m.rank == rank
    | none => false
  if moving then s
  else if s.inService.contains rank ∧ s.canMigrate rank then s.startMigration rank
  else if bitOf s.dram.degraded rank ∨ bitOf s.dram.retired rank then s
  else (s.modDram (fun d => { d with degraded := d.degraded ||| 2 ^ rank })).contained 0x2A (rank / 3) 4

/-- An operator's request (R280, R284); none where it is refused. -/
def State.retireRequest (s : State) (rank : Nat) : Option State :=
  if s.inService.contains rank ∧ s.canMigrate rank then some (s.startMigration rank) else none

/-! ## Reads and writes (R271) -/

/-- A corrected word (R267, R280, R511). -/
def State.countCe (s : State) (rank : Option Nat) : State :=
  let s := ((s.modDram (fun d => { d with corrected := (d.corrected + 1) % 2 ^ 64 })).raise stDdrc [0]).corrected
  match rank with
  | none => s
  | some r =>
    let s := s.modDram (fun d => { d with ce := modAt d.ce r (· + 1) })
    if s.nat 0x5081 6 ≤ s.dram.ce.getD r 0 then s.retireCause r else s

/-- An uncorrectable or misaddressed read (R267, R271, R280). `cause` tells whether it counts for retirement (R281). -/
def State.countUe (s : State) (line rank tag : Nat) (mis cause : Bool) : State :=
  let held := (s.stat stDdrc).has 1
  let s := s.modDram (fun d => { d with
    uncorrectable := satAdd 0xFFFFFFFF d.uncorrectable 1
    misaddress := if mis then satAdd 0xFFFFFFFF d.misaddress 1 else d.misaddress
    poisoned := satAdd 0xFFFFFFFF d.poisoned 1
    err := if held then d.err else ⟨line, rank, mis, tag⟩ })
  let s := s.raise stDdrc (if mis then [1, 2, 3] else [1, 3])
  if cause then s.retireCause rank else s

/-- Check the word a rank gives for a line, with the bits the devices changed and the line it came from where that is
another (R267): the word as it goes on, and the class. -/
def State.senseLine (s : State) (line : Nat) (flips : List Nat) (wrong : Option Nat) : Nat × EccClass :=
  let src := wrong.getD line
  let cw := flipBits (eccEncode (s.lineWord src) (32 * src)) flips
  match eccDecode cw (32 * line) with
  | .clean => (cw % 2 ^ 260, .clean)
  | .corrected w => (w, .corrected w)
  -- the data as read, with the poison flag set
  | c => ((cw ||| 2 ^ 256) % 2 ^ 260, c)

/-- Counts and causes of a checked read (R267, R280). -/
def State.afterSense (s : State) (line rank tag : Nat) (c : EccClass) : State :=
  match c with
  | .clean => s
  | .corrected _ => s.countCe (some rank)
  | .misaddress => s.countUe line rank tag true true
  | .uncorrectable => s.countUe line rank tag false true

/-- The migration's copy meets a line with inverted bits (R281): an uncorrectable one is written to the spare as read with the poison
flag, and counted; it causes no retirement. -/
def State.copyLine (s : State) (rank : Nat) (e : Nat × List Nat) : State :=
  let (w, c) := s.senseLine e.1 e.2 none
  match c with
  | .clean => s
  | .corrected _ => s.countCe (some rank)
  | .misaddress => (s.countUe e.1 rank (wordTag w) true false).putWord e.1 w
  | .uncorrectable => (s.countUe e.1 rank (wordTag w) false false).putWord e.1 w

/-- A channel's copy goes on to `upto` MiB (R281): both its ranks are awake. Its activations draw the channel's LFSR a number of times
that is free, so the LFSR is free too, and so are the neighbours they refresh (R278; log 143). -/
def State.copyTo (s : State) (ch : Nat) (m : Migration) (upto : Nat) (errs : List (Nat × List Nat)) : State :=
  let mine (e : Nat × List Nat) : Bool :=
    let l := s.dramLoc (32 * e.1)
    l.ch == ch && s.rankOf ch l.cs == m.rank && decide (m.copied * 2 ^ 20 ≤ l.ofs) && decide (l.ofs < upto * 2 ^ 20)
  let asleep := s.dram.asleep.filter (fun i => i / 3 != ch || (i % 3 != 2 && s.rankOf ch (i % 3) != m.rank))
  let s := (errs.filter mine).foldl (fun s e => s.copyLine m.rank e) s
  let (x, s) := s.takeFree
  let rows := Config.copyRows s.free
  let s := rows.foldl (fun s r => s.emit (.dram (if r.1 % 2 = 0 then m.rank else 3 * ch + 2) 2 (r.2.1 % 16) (r.2.2 % s.rowCount))) s
  s.modDram (fun d => { d with migs := insertKey ch { m with copied := max m.copied upto } d.migs, asleep := asleep
                               lfsr := setAt d.lfsr ch (x % 2 ^ 32) })

/-- Progress of a channel's copy (R281): within MigrateRate and the rank's size it is free, and it never falls. -/
def State.copyOn (s : State) (ch : Nat) : State :=
  match s.migOf ch with
  | none => s
  | some m =>
    let top := min (s.rankMib - 1) (s.nat 0x5081 8 * (s.time.now - m.start) / 1000000000)
    let (f, s) := s.takeFree
    s.copyTo ch m (f % (top + 1)) (Config.readErrs s.free)

/-- An access wakes the rank of a chip select (R279), and an activation draws the channel's LFSR and may refresh the row's neighbours
(R278). -/
def State.touchCs (s : State) (l : DramLoc) (cs : Nat) (act : Bool) : State :=
  let s := s.modDram (fun d => { d with asleep := d.asleep.filter (· ≠ 3 * l.ch + cs) })
  if act then
    let x := Config.lfsrNext (s.dram.lfsr.getD l.ch 1)
    let s := s.modDram (fun d => { d with lfsr := setAt d.lfsr l.ch x })
    if Config.lfsrHit x (clampN 4 12 (bitsOf s.ddrcCfg 19 16)) then
      let r := s.rankAt l.ch cs
      let s := if l.row = 0 then s else s.emit (.dram r 2 l.bank (l.row - 1))
      if l.row + 1 < s.rowCount then s.emit (.dram r 2 l.bank (l.row + 1)) else s
    else s
  else s

/-- A read reaches a location, the copy of its channel having gone on. -/
def State.touchRead (s : State) (l : DramLoc) (act : Bool) : State :=
  let s := s.copyOn l.ch
  s.touchCs l (s.readCs l) act

/-- A write reaches a location: of a retiring rank the spare too, whose activation is free (R282; log 143). -/
def State.touchWrite (s : State) (l : DramLoc) (act : Bool) : State :=
  let s := s.touchCs l l.cs act
  if (s.migOf l.ch).any (fun m => m.rank == s.rankOf l.ch l.cs) then
    let (f, s) := s.takeFree
    s.touchCs l 2 (f % 2 == 1)
  else s

/-- A block of the Y9 reaches the lines of a range of DRAM: each access wakes its rank, and whether it activates its row is free
(R278, R279; log 143). -/
def State.touchLines (s : State) (a n : Nat) (write : Bool) : State :=
  (upTo ((a + n + 31) / 32 - a / 32)).foldl (fun s i =>
    let (f, s) := s.takeFree
    let l := s.dramLoc (32 * (a / 32 + i))
    if write then s.touchWrite l (f % 2 == 1) else s.touchRead l (f % 2 == 1)) s

/-- A block reads a line of DRAM, `errs` naming the bits that the devices give inverted (R271, R280): its bytes, and whether it comes
poisoned. -/
def State.readLine (s : State) (errs : List (Nat × List Nat)) (line : Nat) : (List Byte × Bool) × State :=
  match lookup line errs with
  | none => ((s.read (32 * line) 32, s.linePoisoned (32 * line)), s)
  | some fl =>
    let rank := s.readRank (s.dramLoc (32 * line))
    let (w, c) := s.senseLine line fl none
    ((wordData w, wordPoison w), s.afterSense line rank (wordTag w) c)

/-- Bytes of a range of DRAM as a block reads them, and whether a word of them comes poisoned. -/
def State.readLines (s : State) (errs : List (Nat × List Nat)) (a n : Nat) : (List Byte × Bool) × State :=
  let k := (a + n + 31) / 32 - a / 32
  match errs with
  | [] => ((s.read a n, (upTo k).any (fun i => s.linePoisoned (32 * (a / 32 + i)))), s)
  | _ =>
    let r := (upTo k).foldl (fun (x : (List Byte × Bool) × State) i =>
      let (b, s) := x.2.readLine errs (a / 32 + i)
      ((x.1.1 ++ b.1, x.1.2 || b.2), s)) (([], false), s)
    (((r.1.1.drop (a % 32)).take n, r.1.2), r.2)

/-- The read part of writes that cover a line only in part (R271): an uncorrectable one leaves its word poisoned. -/
def State.mergeLine (s : State) (errs : List (Nat × List Nat)) (line : Nat) : State :=
  match lookup line errs with
  | none => s
  | some fl =>
    let rank := s.readRank (s.dramLoc (32 * line))
    let (w, c) := s.senseLine line fl none
    (s.afterSense line rank (wordTag w) c).putWord line w

/-- DRAM answers an initiator at an address: a PCIe host reads through the aperture at `PCIE_DWIN` and writes none of it, an SPI host
reaches none (R272, R421, R427). -/
def State.dramReach (s : State) (init a : Nat) (write : Bool) : Bool :=
  s.dramOk a && init != 22 && (init != 21 || (!write && s.domain 1 && !s.hostSel && a / 2 ^ 29 == s.reg 3 8))

/-- DRAM_READ: an initiator reads the word of a line (R271). `flips`: the bits the devices give inverted; `wrong`: the
line that answered where it is another; `act`: the read activates its row. -/
def execDramRead (init addr : Nat) (flips : List Nat) (wrong : Option Nat) (act : Bool) (s : State) :
    Host.Outcome State Fault Refusal :=
  if s.dramReach init addr false then
    let line := addr / 32
    let l := s.dramLoc (32 * line)
    let s := s.touchRead l act
    let rank := s.readRank l
    let (w, c) := s.senseLine line flips wrong
    let s := s.afterSense line rank (wordTag w) c
    .next (s.emit (.word init (32 * line) (wordData w) (wordTag w) (wordPoison w)))
  else .next ((s.busError init addr false).emit (.readData init 0 true))

/-- Put bytes into a word from byte `o` on. -/
def mergeWord (w o : Nat) (data : List Byte) : Nat :=
  let old := wordData w
  let new := (old.take o ++ data ++ old.drop (o + data.length)).take 32
  leNat new + w / 2 ^ 256 * 2 ^ 256

/-- A write flit as it arrives, `flips` being the bits its transfer inverted: the word to store, poisoned where it cannot be corrected
(R271). -/
def State.takeFlit (s : State) (line : Nat) (data : List Byte) (tag : Nat) (poison : Bool) (flips : List Nat) : Nat × State :=
  let cw := flipBits (eccEncode (eccWord data poison tag) (32 * line)) flips
  match eccDecode cw (32 * line) with
  | .clean => (cw % 2 ^ 260, s)
  | .corrected w => (w, s.countCe none)
  | _ => ((cw ||| 2 ^ 256) % 2 ^ 260,
      (s.modDram (fun d => { d with poisoned := satAdd 0xFFFFFFFF d.poisoned 1 })).raise stDdrc [3])

/-- DRAM_WRITE: a full word arrives as a flit, with the bits its transfer inverted (R271). -/
def execDramWrite (init addr : Nat) (data : List Byte) (tag : Nat) (poison : Bool) (flips : List Nat) (act : Bool) (s : State) :
    Host.Outcome State Fault Refusal :=
  if s.dramReach init addr true then
    let line := addr / 32
    let (w, s) := (s.touchWrite (s.dramLoc (32 * line)) act).takeFlit line data tag poison flips
    .next (s.putWord line w)
  else .next ((s.busError init addr true).tellWrite init)

/-- DRAM_PARTIAL_WRITE: fewer than 32 bytes of one line, an atomic read-merge-write (R271). The flit carries the bytes in their
places and zeros beside them; `tflips` are the bits its transfer inverted, `flips` and `wrong` those of the read part. A
poisoned or uncorrectable flit, or read part, leaves the merged word poisoned. -/
def execDramPartialWrite (init addr : Nat) (data : List Byte) (tag : Nat) (poison : Bool) (tflips : List Nat) (flips : List Nat)
    (wrong : Option Nat) (act : Bool) (s : State) : Host.Outcome State Fault Refusal :=
  if s.dramReach init addr true ∧ addr % 32 + data.length ≤ 32 then
    let line := addr / 32
    let l := s.dramLoc (32 * line)
    let (new, s) := ((s.touchRead l act).touchWrite l false).takeFlit line (zeros (addr % 32) ++ data) tag poison tflips
    let rank := s.readRank l
    let (w, c) := s.senseLine line flips wrong
    let s := s.afterSense line rank (wordTag w) c
    let m := mergeWord w (addr % 32) (((wordData new).drop (addr % 32)).take data.length)
    let p := bit (wordPoison m || wordPoison new)
    .next (s.putWord line (m % 2 ^ 256 + p * 2 ^ 256 + wordTag new * 2 ^ 257))
  else .next ((s.busError init addr true).tellWrite init)

/-! ## Training, refresh, temperature, power-down, scrub (R263, R264, R274–R280) -/

/-- Result of a rank at training (R288): 0 pass, 1 fail, 2 replaced by spare, 3 not fitted. -/
def trainRank (chans ranks : Nat) (spare : Bool) (fails rank : Nat) : Nat :=
  let ch := rank / 3
  let cs := rank % 3
  let bad (r : Nat) : Bool := bitOf fails r
  if chans ≤ ch then 3
  else if cs = 2 then (if spare then bit (bad rank) else 3)
  else if ranks ≤ cs then 3
  else if ¬ bad rank then 0
  -- the spare takes one rank's place, CS0's first
  else if spare ∧ ¬ bad (3 * ch + 2) ∧ (cs = 0 ∨ ¬ bad (3 * ch)) then 2 else 1

/-- The channels used when some cannot provide their ranks (R264). -/
def usedChans (chans : Nat) (ok : Nat → Bool) : List Nat :=
  let all := upTo chans
  if all.all ok then all
  else if chans = 4 ∧ ok 0 ∧ ok 1 then [0, 1]
  else if chans = 4 ∧ ok 2 ∧ ok 3 then [2, 3]
  else (all.filter ok).take 1

/-- DRAM_TRAINING: training ends, with a bit for each rank that failed (R263, R264). Firmware enables the controller
(R289). Breakwater is not enabled before firmware runs: a start raises the fault of a lost channel once it does. A rank that has been
retired under this configuration counts as failed (R283; log 175). -/
def execDramTraining (fails : Nat) (s : State) : Host.Outcome State Fault Refusal :=
  if s.alive ∧ s.domain 2 then
    let kept := if s.flash.retiredCfg = s.ddrcCfg then s.flash.retired else 0
    let fails := fails ||| kept
    let n := s.cfgChans
    let sp := bitOf s.ddrcCfg 3
    let res (r : Nat) : Nat := trainRank n s.ranksPer sp fails r
    let ok (ch : Nat) : Bool := (upTo s.ranksPer).all (fun cs => res (3 * ch + cs) != 1)
    let used := usedChans n ok
    let swapped (ch : Nat) : Bool := (upTo 2).any (fun cs => res (3 * ch + cs) == 2)
    let lostCh := (upTo n).filter (fun ch => !ok ch)
    let d := s.dram
    let s := { s with dram := { d with
      trained := true, chans := used
      serving := (upTo 8).map (fun i => if res (3 * (i / 2) + i % 2) = 2 then 2 else i % 2)
      spare := (upTo 4).map (fun ch => res (3 * ch + 2) == 0 && !swapped ch)
      retired := sumN ((upTo 12).map (fun r => if res r = 2 then 2 ^ r else 0))
      chDegraded := !lostCh.isEmpty
      result := sumN ((upTo 12).map (fun r => res r * 4 ^ r))
      lfsr := [1, 2, 3, 4], ce := List.replicate 12 0, backlog := List.replicate 12 0, asleep := []
      owed := if s.up then [] else lostCh }
                      flash := { s.flash with retired := kept, retiredCfg := s.ddrcCfg } }
    let s := s.setRegBit 0x2A 0 0 true
    .next (if s.up then lostCh.foldl (fun s ch => s.contained 0x2A ch 2) s else s)
  else .next s

/-- The ranks that hold data or are being copied to, the others being in self-refresh (R274, R281). -/
def State.awake (s : State) : List Nat :=
  s.inService ++ (s.dram.chans.filter (fun ch => (s.migOf ch).isSome)).map (fun ch => 3 * ch + 2)

/-- ZQ_SHORT_CAL: every rank that is not in self-refresh (R263; log 144). -/
def execZqShortCal (s : State) : Host.Outcome State Fault Refusal :=
  if s.dram.trained then .next (s.awake.foldl (fun s r => s.emit (.dram r 1 0 0)) s) else .next s

/-- A rank that the controller refreshes: an active one, or chip select 2, the spare, from the time a migration begins (R274). -/
def State.activeRank (s : State) (ch cs : Nat) : Bool :=
  s.dram.chans.contains ch && (decide (cs < s.ranksPer) || (cs == 2 && (s.migOf ch).isSome))

/-- Issue one refresh of a rank. -/
def State.refresh (s : State) (ch cs : Nat) : State :=
  (s.modDram (fun d => { d with asleep := d.asleep.filter (· ≠ 3 * ch + cs) })).emit (.dram (s.rankAt ch cs) 0 0 0)

/-- REFRESH_DUE: postponed while real-time writes to the rank are queued, up to a backlog of 8 (R276). -/
def execRefreshDue (ch cs : Nat) (queued : Bool) (s : State) : Host.Outcome State Fault Refusal :=
  if s.activeRank ch cs then
    let i := 3 * ch + cs
    if queued ∧ s.dram.backlog.getD i 0 < 8 then .next (s.modDram (fun d => { d with backlog := modAt d.backlog i (· + 1) }))
    else .next (s.refresh ch cs)
  else .next s

/-- POSTPONED_REFRESH_ISSUE: no real-time write is queued to the rank (R276). -/
def execPostponedRefreshIssue (ch cs : Nat) (s : State) : Host.Outcome State Fault Refusal :=
  let i := 3 * ch + cs
  if s.activeRank ch cs ∧ 0 < s.dram.backlog.getD i 0 then
    .next ((s.refresh ch cs).modDram (fun d => { d with backlog := modAt d.backlog i (· - 1) }))
  else .next s

/-- The pairs of ThermistorTable: code and °C (R288). -/
def thermPairs (b : List Byte) : List (Num × Num) :=
  if b.length = 128 then
    (upTo 16).map (fun i => (f32Num (leNat ((b.drop (8 * i)).take 4)), f32Num (leNat ((b.drop (8 * i + 4)).take 4))))
  else []

/-- Straight-line interpolation in the table; none outside its codes. -/
def thermLookup (c : Num) : List (Num × Num) → Option Num
  | (a, ta) :: (b, tb) :: rest =>
    if ((a.le c && c.le b) || (b.le c && c.le a)) && !(b.sub a).isZero then
      some (ta.add (((c.sub a).mul (tb.sub ta)).div (b.sub a)))
    else thermLookup c ((b, tb) :: rest)
  | _ => none

/-- A channel's poll (R275): none where it failed; else whether the channel is hot after it. With the thermistor, a result
older than 64 ms, an input that is not in the scan list, or a conversion flagged as broken fails (R275, R464); a code outside the table gives a free temperature. -/
def State.channelPoll (s : State) (ch : Nat) (status : Option Bool) : Option Bool :=
  if s.nat 0x5081 1 = 0 then status
  else
    let pairs := thermPairs (s.obj 0x5081 3)
    let i := s.nat 0x5081 2 + ch
    match lookup i s.hk.values with
    | none => none
    | some v =>
      if pairs.isEmpty ∨ v.broken ∨ v.time + 64000000 < s.time.now ∨ ¬ s.scanned i then none
      else
        let code := (f32Num v.bits).mul (Num.ofRatio (4096 * 1000) s.hkRefMv)
        match thermLookup code pairs with
        | some t => some ((Num.ofInt 85).le t || (bitOf s.dram.hot ch && !t.le (Num.ofInt 82)))
        | none => some (Config.freeValue (s.free + ch) % 2 == 1)

/-- DRAM_TEMPERATURE_POLL: `status` gives for each channel what its ranks report, none where the read failed (R275). A
channel that turns hot issues its ranks' backlogs at once (R277). The read strobe drift of every rank is tracked (R263). -/
def execDramTemperaturePoll (status : List (Option Bool)) (s : State) : Host.Outcome State Fault Refusal :=
  if s.dram.trained then
    let s0 := s
    let s := { s with free := s.free + 4 }
    .next (s0.dram.chans.foldl (fun s ch =>
      let hot := (s0.channelPoll ch (status.getD ch none)).getD true
      let was := bitOf s0.dram.hot ch
      let s := s.modDram (fun d => { d with hot := if hot then d.hot ||| 2 ^ ch else d.hot - (if was then 2 ^ ch else 0) })
      let owed := (upTo 3).filter (fun cs => s.activeRank ch cs && s.dram.backlog.getD (3 * ch + cs) 0 != 0)
      if hot && !was && !owed.isEmpty then
        let s := owed.foldl (fun s cs =>
          let s := (upTo (s.dram.backlog.getD (3 * ch + cs) 0)).foldl (fun s _ => s.refresh ch cs) s
          s.modDram (fun d => { d with backlog := setAt d.backlog (3 * ch + cs) 0 })) s
        s.raise stDdrc [7]
      else s) (s.awake.foldl (fun s r => s.emit (.dram r 5 0 0)) s))
  else .next s

/-- POWER_DOWN_ENTRY: a rank has had no command for PowerDownIdle and no real-time write is queued (R279). -/
def execPowerDownEntry (ch cs : Nat) (s : State) : Host.Outcome State Fault Refusal :=
  let i := 3 * ch + cs
  if s.activeRank ch cs ∧ bitOf (s.reg 0x2A 0) 2 ∧ s.nat 0x5081 4 ≠ 0 ∧ ¬ s.dram.asleep.contains i then
    .next ((s.modDram (fun d => { d with asleep := d.asleep ++ [i] })).emit (.dram (s.rankAt ch cs) 3 0 0))
  else .next s

/-- SCRUB_LINE: the patrol scrub reads its next line (R280), in ascending address (log 50). `act`: the read activates its row. -/
def execScrubLine (flips : List Nat) (wrong : Option Nat) (act : Bool) (s : State) : Host.Outcome State Fault Refusal :=
  let line := s.dram.scrubAt
  if s.dramOk (32 * line) ∧ bitOf (s.reg 0x2A 0) 1 then
    let l := s.dramLoc (32 * line)
    let s := s.touchRead l act
    let rank := s.readRank l
    let (w, c) := s.senseLine line flips wrong
    let s := s.afterSense line rank (wordTag w) c
    let s := match c with
      | .clean => s
      | _ => (s.touchWrite l false).putWord line w
    if (line + 1) * 32 < s.activeMib * 2 ^ 20 then .next (s.modDram (fun d => { d with scrubAt := line + 1 }))
    else .next (s.modDram (fun d => { d with scrubAt := 0, passes := satAdd 0xFFFFFFFF d.passes 1, lastScrub := s.time.now }))
  else .next s

/-- CE_WINDOW_EXPIRY: a window of CeWindow ends (R280). -/
def execCeWindowExpiry (s : State) : Host.Outcome State Fault Refusal :=
  if s.domain 2 then .next (s.modDram (fun d => { d with ce := List.replicate 12 0 })) else .next s

/-- MIGRATION_COPY_END: the pointer reaches the end, `errs` naming the bits inverted in the last lines copied (R281), CS2 takes the
retired rank's place, and that rank enters self-refresh for good (R283). -/
def execMigrationCopyEnd (ch : Nat) (errs : List (Nat × List Nat)) (s : State) : Host.Outcome State Fault Refusal :=
  match s.migOf ch with
  | none => .next s
  | some m =>
    let s := s.copyTo ch m s.rankMib errs
    let fl := s.flash
    let s : State := { s with flash := { fl with retiredCfg := s.ddrcCfg
                                                 retired := (if fl.retiredCfg = s.ddrcCfg then fl.retired else 0) ||| 2 ^ m.rank } }
    let s := (s.emit (.dram m.rank 6 0 0)).modDram (fun d => { d with
      migs := insertKey ch { m with copied := s.rankMib, state := 3 } d.migs
      serving := modAt (modAt d.serving (2 * ch) (fun c => if 3 * ch + c = m.rank then 2 else c)) (2 * ch + 1)
        (fun c => if 3 * ch + c = m.rank then 2 else c)
      backlog := (modAt (modAt d.backlog (3 * ch) (fun n => if s.rankOf ch 0 = m.rank then d.backlog.getD (3 * ch + 2) 0 else n))
        (3 * ch + 1) (fun n => if s.rankOf ch 1 = m.rank then d.backlog.getD (3 * ch + 2) 0 else n)).set (3 * ch + 2) 0
      asleep := d.asleep.filter (fun i => i / 3 != ch)
      degraded := d.degraded - (if bitOf d.degraded m.rank then 2 ^ m.rank else 0)
      retired := d.retired ||| 2 ^ m.rank })
    .next (s.raise stDdrc [6])

end Sys2Proof.Machine
end

