-- ==== Sys2Proof/Machine/Detect.lean ====
section
/-! DEFINITION. The detection library and its dispatch (R212, R213, R218, R219, R222, R224–R227). -/
namespace Sys2Proof.Machine
open Sys2Proof

/-- DetEnable in force. -/
def State.detOn (s : State) (q : Port) : Bool := s.pn q 0x6010 1 == 1

/-- A program's stream ring bytes of a port. -/
def ImageHeader.ring (h : ImageHeader) (q : Port) : Nat := match q with
  | .a => h.ringA
  | .b => h.ringB

/-- Size the port's pool region (R213): all groups, or as many as fit 6 MiB beside two input buffers and the stream ring. -/
def State.detSize (s : State) (q : Port) : State :=
  let groups := s.lautGroupCount q
  let r := s.lautSize q
  let bands := ones8 (s.pn q 0x6010 2)
  let ring := sumN ((s.brew.progs.filter (fun p => p.state == 2)).map (fun p => ImageHeader.ring p.hdr q))
  let room := 6291456 - 2 * r - ring
  let ge := if 2 * r + 4 * groups * bands + ring ≤ 6291456 ∨ bands = 0 then groups else min groups (room / (4 * bands))
  (s.modDet q (fun d => { d with ge := ge, trunc := decide (ge < groups) })).raiseIf (decide (ge < groups) && s.detOn q) stBrew 2

/-- Clear the library's state; learning starts anew (R226). -/
def State.detClear (s : State) (q : Port) : State :=
  let s : State := { s with mem := memClear s.mem (s.cellBase q) (s.streamBase q - s.cellBase q) }
  s.modDet q (fun d => { d with cells := [], hotRun := [], opened := [], learned := 0 })

/-! ## Settings in use (R213, R226) -/

/-- The settings that the record of the Tide of an ordinal is evaluated under. -/
def State.detUse (s : State) (q : Port) (nth : Nat) : DetUse :=
  let d := (s.port q).det
  if d.changes.any (fun e => decide (e.1 ≤ nth)) then
    { on := s.detOn q, mask := s.pn q 0x6010 2, learn := s.pn q 0x6010 8, ge := d.ge, trunc := d.trunc }
  else d.use

/-- The changes due with the record of that Tide take effect. -/
def State.detAdopt (s : State) (q : Port) (nth : Nat) : State :=
  let u := s.detUse q nth
  let clear := (s.port q).det.changes.any (fun e => decide (e.1 ≤ nth) && e.2)
  let s := s.modDet q (fun d => { d with use := u, changes := d.changes.filter (fun e => decide (nth < e.1)) })
  if clear then s.detClear q else s

/-! ## Tides whose record is owed (R45, R217, R218) -/

/-- The deadline of the work on the Tide of an ordinal has come: the edge of the Tide after the next (R45). -/
def State.late (s : State) (nth : Nat) : Bool := decide (nth + 2 ≤ s.tide.edges)

/-- The Tides whose detection a port still owes: its record is being evaluated, waits, or has not come complete. -/
def State.detOwed (s : State) (q : Port) : List Nat :=
  let ps := s.port q
  let on := bitOf (s.reg (winRx q) 0x200) 0 && bitOf (s.reg (winRx q) 0x310) 0
  let coming := if on then (ps.laut.done.toList ++ ps.laut.cur.toList).map (·.last.nth)
    ++ (ps.flight.filter (·.cfg.laut.en)).map (·.nth) else []
  ((ps.det.work.toList.map (·.lrec.last.nth)) ++ (ps.lautRec.toList.map (·.last.nth)) ++ coming).filter (fun n =>
    decide (ps.det.doneTo ≤ n) && (s.detUse q n).on)

/-! ## The cells of one Tide (R224, R226) -/

/-- Code of group g in band b; 0 where the record has none. -/
def LautRec.code (r : LautRec) (g b : Nat) : Nat :=
  if bitOf r.mask b then
    let pos := ((upTo b).filter (fun i => bitOf r.mask i)).length
    ((r.groups.getD g (0, [])).2).getD pos 0
  else 0

/-- Settings of an evaluation: threshold in code units, background shift, band mask, learning. -/
structure DetSet where
  thr : Num
  shift : Nat
  mask : Nat
  learn : Bool

/-- A cell is hot (R224 step 2). -/
def DetSet.hot (d : DetSet) (c : DetCell) (code : Nat) : Bool :=
  code != 0 && !d.learn && d.thr.le (Num.ofInt ((code : Int) - c.b))

/-- A cell after a Tide. -/
def DetSet.cell (d : DetSet) (c : DetCell) (code : Nat) : DetCell :=
  if code = 0 then c
  else if d.learn then { b := (c.sum + code) / (c.n + 1), sum := c.sum + code, n := c.n + 1 }
  else if d.hot c code then c
  else { c with b := (c.b + asr ((code : Int) - c.b) d.shift).toNat }

/-- The hot bands of a group, as a mask, and the largest excess among them. -/
def DetSet.group (d : DetSet) (r : LautRec) (cells : List DetCell) (g : Nat) : Nat × Nat :=
  (upTo 8).foldl (fun m b =>
    let c := cells.getD b {}
    let k := r.code g b
    if bitOf d.mask b && d.hot c k then (m.1 + 2 ^ b, max m.2 (k - c.b)) else m) (0, 0)

/-- The settings of a Tide's evaluation. -/
def State.detSet (s : State) (q : Port) : DetSet :=
  let d := (s.port q).det
  { thr := (Num.ofNat 256).mul (s.pr q 0x6010 3), shift := s.pn q 0x6010 7, mask := d.use.mask
    learn := decide (d.learned < d.use.learn) }

/-- A group lies in a range. -/
def inRange (l : List (Nat × Nat)) (g : Nat) : Bool := l.any (fun r => decide (r.1 ≤ g) && decide (g < r.1 + r.2))

/-- Cells and runs of hot Tides of a range after a Tide, and per group its hot bands and excess. -/
def Detect.evalRange (d : Detect) (e : DetSet) (on : Nat) (r : LautRec) (hots : List (Nat × Nat)) (first count : Nat) :
    Detect × List (Nat × Nat) :=
  let mine (g : Nat) : Bool := decide (first ≤ g) && decide (g < first + count)
  let hots := (upTo d.use.ge).map (fun g => if mine g then e.group r (d.cells.getD g []) g else hots.getD g (0, 0))
  ({ d with
     cells := (upTo d.use.ge).map (fun g =>
       let cs := d.cells.getD g []
       if mine g then (upTo 8).map (fun b =>
         if bitOf e.mask b then e.cell (cs.getD b {}) (r.code g b) else cs.getD b {}) else cs)
     hotRun := (upTo d.use.ge).map (fun g =>
       let n := d.hotRun.getD g 0
       if mine g then (if (hots.getD g (0, 0)).1 = 0 then 0 else min (n + 1) on) else n) }, hots)

/-- Hot groups, ascending, joined where at most `gap` not-hot groups lie between (R224 step 6). -/
def clusters (gap : Nat) : List Nat → List (Nat × Nat)
  | [] => []
  | g :: t =>
    match clusters gap t with
    | [] => [(g, g)]
    | (a, b) :: r => if a ≤ g + gap + 1 then (g, b) :: r else (g, g) :: (a, b) :: r

/-- The peak of an extent: the group of the largest excess, the lowest on a tie, with its hot bands (R225). -/
def peakOf (hots : List (Nat × Nat)) (a b : Nat) : Option (Nat × Nat × Nat) :=
  (upTo (b + 1 - a)).foldl (fun m i =>
    let h := hots.getD (a + i) (0, 0)
    if h.1 = 0 then m else match m with
      | none => some (a + i, h.2, h.1)
      | some x => if x.2.1 < h.2 then some (a + i, h.2, h.1) else m) none

/-- Put a detection among others in order of first group. -/
def insertDet (d : Detection) : List Detection → List Detection
  | [] => [d]
  | x :: t => if d.first ≤ x.first then d :: x :: t else x :: insertDet d t

def Detection.entry (d : Detection) (state : Nat) : DetEntry := ⟨d.first, d.last, d.peak, d.excess, d.bands, state⟩

/-- A cluster and the open detections (R224 steps 5 and 6): it extends the lowest detection it reaches, which takes over
the others' extents; it opens one where a group of it has been hot long enough and there is room for one of `room`. Result:
detections, those closed by merging, those opened (by first group), and whether one found no room. -/
def joinCluster (gap on room : Nat) (d : Detect) (hots : List (Nat × Nat)) (st : List Detection × List DetEntry × List Nat × Bool)
    (c : Nat × Nat) : List Detection × List DetEntry × List Nat × Bool :=
  let (open_, closed, fresh, full) := st
  let near (x : Detection) : Bool := decide (c.1 ≤ x.last + gap + 1) && decide (x.first ≤ c.2 + gap + 1)
  match open_.filter near with
  | x :: others =>
    let x' := { x with first := min x.first c.1, last := (others.foldl (fun m y => max m y.last) (max x.last c.2)), off := 0 }
    let rest := open_.filter (fun y => !near y)
    (insertDet x' rest, closed ++ others.map (fun y => y.entry 2),
      (fresh.filter (fun f => !others.any (fun y => y.first == f))).map (fun f => if f = x.first then x'.first else f), full)
  | [] =>
    if (upTo (c.2 + 1 - c.1)).any (fun i => decide (on ≤ d.hotRun.getD (c.1 + i) 0)) then
      if room ≤ open_.length then (open_, closed, fresh, true)
      else match peakOf hots c.1 c.2 with
        | some p => (insertDet ⟨c.1, c.2, p.1, p.2.1, p.2.2, 0, 0⟩ open_, closed, fresh ++ [c.1], full)
        | none => st
    else st

/-- The header of a detection (kind 0) or track record (kind 1) (R227, R231). -/
def detHeader (time tide epoch count flags kind groups group : Nat) : List Byte :=
  leBytes 8 time ++ leBytes 6 tide ++ leBytes 2 epoch ++ leBytes 2 count ++ leBytes 1 flags ++ leBytes 1 kind
    ++ leBytes 4 groups ++ leBytes 1 group ++ zeros 7

/-- Publish a detection record (R227): to the event ring, the export DMA, tracking. -/
def State.publishDet (s : State) (q : Port) (r : DetRec) (first : Nat) : State :=
  let bytes := detHeader r.time r.tide r.epoch r.entries.length r.flags 0 r.groups r.group
    ++ r.entries.flatMap (fun e => leBytes 4 e.first ++ leBytes 4 e.last ++ leBytes 4 e.peak ++ leBytes 2 (min 0xFFFF e.excess)
      ++ leBytes 1 e.bands ++ leBytes 1 e.state)
  (s.modDet q (fun d => { d with done := some r, trig := some r })).deliver q true 4 9 true 5 r.time first (r.time - 4 * r.cfg.r0 - 2 * r.cfg.g) 0 bytes

/-- The detection work of a port has ended: join the Tide's hot groups and publish its record (R224–R227). Ranges that faulted
stay as they were; a record that is settling or incomplete is not evaluated (R226). -/
def State.detEnd (s : State) (q : Port) (w : DetWork) : State :=
  let r := w.lrec
  let d := (s.port q).det
  let e := s.detSet q
  let base := Port.num q + 8 * bit r.settling + 16 * bit (r.incomplete || w.incomplete) + 32 * bit w.poisoned
  let s := s.modDet q (fun d => { d with work := none, doneTo := r.last.nth + 1 })
  let make (entries : List DetEntry) (flags : Nat) (ev : Bool) : DetRec :=
    { time := r.time, tide := r.last.tide, epoch := r.last.epoch, entries := entries, flags := flags, groups := d.use.ge
      group := r.group, evaluated := ev, nth := r.last.nth, cfg := r.last.cfg }
  let first := ellOf r.last.tide r.last.cfg.m 0
  if r.settling ∨ r.incomplete then
    s.publishDet q (make (d.opened.map (fun x => x.entry 1)) (base + 2 * bit d.use.trunc + 4 * bit e.learn) false) first
  else
    let on := s.pn q 0x6010 4
    let gap := s.pn q 0x6010 6
    let hots := w.hots
    if e.learn then
      (s.modDet q (fun d => { d with learned := d.learned + 1 })).publishDet q
        (make [] (base + 2 * bit d.use.trunc + 4) true) first
    else
      -- detections that reach into a faulted range are carried unchanged (R223)
      let frozen (x : Detection) : Bool := (upTo (x.last + 1 - x.first)).any (fun i => inRange w.faulted (x.first + i))
      let held := d.opened.filter frozen
      let live := (d.opened.filter (fun x => !frozen x)).map (fun x => { x with age := x.age + 1, off := x.off + 1 })
      -- a cluster near held detections alone opens none; one near a live detection extends that one
      let near (l : List Detection) (c : Nat × Nat) : Bool :=
        l.any (fun x => decide (c.1 ≤ x.last + gap + 1) && decide (x.first ≤ c.2 + gap + 1))
      let cl := (clusters gap ((upTo d.use.ge).filter (fun g => (hots.getD g (0, 0)).1 != 0))).filter (fun c => !near held c || near live c)
      let (now, merged, fresh, full) := cl.foldl (joinCluster gap on (1024 - held.length) d hots) (live, [], [], false)
      let now := now.map (fun x => match peakOf hots x.first x.last with
        | some p => { x with peak := p.1, excess := p.2.1, bands := p.2.2 }
        | none => x)
      let old (x : Detection) : Bool := decide (s.pn q 0x6010 9 ≤ x.age)
      let ended (x : Detection) : Bool := old x || decide (s.pn q 0x6010 5 ≤ x.off)
      let entries := now.map (fun x => x.entry (if ended x then 2 else if fresh.contains x.first then 0 else 1))
      let all := (entries ++ merged ++ held.map (fun x => x.entry 1)).mergeSort (fun a b => decide (a.first ≤ b.first))
      -- a detection open for DetMaxTides closes and its cells take their present codes (R225)
      let aged := (now.filter old).map (fun x => (x.first, x.last + 1 - x.first))
      let cells := (upTo d.cells.length).map (fun g =>
        let cs := d.cells.getD g []
        if inRange aged g then (upTo 8).map (fun b =>
          let c := cs.getD b {}
          if bitOf e.mask b ∧ r.code g b ≠ 0 then { c with b := r.code g b } else c) else cs)
      let opened := (held ++ now.filter (fun x => !ended x)).mergeSort (fun a b => decide (a.first ≤ b.first))
      let s := s.modDet q (fun d => { d with cells := cells, opened := opened })
      (aged.foldl (fun s x => s.detStore q x.1 x.2) s).publishDet q (make all (base + 2 * bit (d.use.trunc || full)) true) first

/-- Add per-Tide cycles to a core (R222). -/
def State.addBusy (s : State) (c n : Nat) : State :=
  { s with brew := { s.brew with busy := modAt s.brew.busy c (· + n) } }

/-- DETECTION_DISPATCH (R218): the port's Lauter record is complete; its evaluated groups go to the detection pool. -/
def execDetectionDispatch (q : Port) (s : State) : Host.Outcome State Fault Refusal :=
  match (s.port q).lautRec with
  | none => .next s
  | some r =>
    let cores := s.poolCores (1 + Port.num q)
    if s.brewOn && (s.detUse q r.last.nth).on && (s.port q).det.work.isNone && !s.late r.last.nth && !cores.isEmpty then
      let s := s.detAdopt q r.last.nth
      let u := (s.port q).det.use
      let rs := splitRanges cores (min u.ge r.groups.length)
      let s := s.modPort q (fun ps => { ps with lautRec := none, det := { ps.det with work := some { lrec := r, busy := rs } } })
      let s := rs.foldl (fun s x => s.addBusy x.1 (6 * x.2.2 * ones8 u.mask + 2000)) s
      .next (s.dispatch (.detect q) cores)
    else .next s

/-- A core of a dispatch ends its range: it has written its state back (R219); a record that is not evaluated changes none
(R226). -/
def State.detRange (s : State) (q : Port) (w : DetWork) (first count : Nat) : DetWork × State :=
  if w.lrec.settling || w.lrec.incomplete then (w, s)
  else
    let (d, hots) := (s.port q).det.evalRange (s.detSet q) (s.pn q 0x6010 4) w.lrec w.hots first count
    ({ w with hots := hots }, (s.modDet q (fun _ => d)).detStore q first count)

/-- DETECTION_CORE_END (R219): a core of the dispatch ends its range; the last one publishes the record (R227). -/
def execDetectionCoreEnd (q : Port) (c : Nat) (s : State) : Host.Outcome State Fault Refusal :=
  match (s.port q).det.work with
  | some w =>
    match w.busy.find? (fun r => r.1 == c) with
    | some x =>
      if s.brewOn && !s.late w.lrec.last.nth then
        let (w, s) := s.detRange q { w with busy := w.busy.filter (fun r => r.1 != c) } x.2.1 x.2.2
        let s := s.modCore c Core.idle
        .next (if w.busy.isEmpty then s.detEnd q w else s.modDet q (fun d => { d with work := some w }))
      else .next s
    | none => .next s
  | none => .next s

/-- The deadline of a port's detection (R46, R221): the work on late Tides is dropped; what ended cores have written back stays,
nothing is published, and stage 2 goes without. -/
def State.detAbort (s : State) (q : Port) : State :=
  let gone := (s.detOwed q).filter s.late
  if gone.isEmpty then s else
    s.modPort q (fun ps => { ps with
      lautRec := if ps.lautRec.any (fun r => s.late r.last.nth) then none else ps.lautRec
      det := { ps.det with
        work := if ps.det.work.any (fun w => s.late w.lrec.last.nth) then none else ps.det.work
        doneTo := s.tide.edges - 1, missed := some (gone.foldl max 0) } })

end Sys2Proof.Machine
end

