-- ==== Sys2Proof/Machine/Track.lean ====
section
/-! DEFINITION. The tracking library, its dispatch, and the hand-off of tracks (R218, R228–R231, R371, R372). -/
namespace Sys2Proof.Machine
open Sys2Proof

/-- Change a port's tracking library. -/
def State.modTrk (s : State) (q : Port) (f : Tracker → Tracker) : State := s.modPort q (fun ps => { ps with trk := f ps.trk })

/-- TrackEnable in force. -/
def State.trkOn (s : State) (q : Port) : Bool := s.pn q 0x6030 1 == 1

/-- Δz in mm (R40): c × 8 ns / (2 n_g). -/
def State.dz (s : State) (q : Port) : Num := (Num.ofRatio (299792458 * 4) 1000000).div (s.pr q 0x2010 8)

/-- Distance in mm of the point `q2` / 2 (R228): (r_0 + q p + g / 2) Δz + DistanceOffset. -/
def State.distance (s : State) (q : Port) (v : Cfg) (q2 : Nat) : Num :=
  ((Num.ofRatio (2 * v.r0 + q2 * v.pitch + v.g) 2).mul (s.dz q)).add (Num.ofInt (s.int 32 (portIndex q 0x2010) 9))

/-- Distance of a peak group: the mean of its first and last point (R228). -/
def State.groupPos (s : State) (q : Port) (r : DetRec) (pk : Nat) : Num :=
  s.distance q r.cfg (pk * r.group + min ((pk + 1) * r.group - 1) (r.cfg.n - 1))

/-! ## Pairing (R229) -/

/-- A possible pair: the distance, track and detection by position in their lists. -/
structure Pairing where
  d : Num
  id : Nat
  t : Nat
  k : Nat

/-- Nearer; on a tie the lower TrackId, then the lower detection. -/
def Pairing.before (a b : Pairing) : Bool :=
  a.d.lt b.d || (!b.d.lt a.d && (decide (a.id < b.id) || (a.id == b.id && decide (a.k < b.k))))

/-- Take the best pair, remove both, repeat. -/
def greedy : Nat → List Pairing → List (Nat × Nat)
  | 0, _ => []
  | n + 1, l =>
    match l with
    | [] => []
    | x :: t =>
      let b := t.foldl (fun m y => if Pairing.before y m then y else m) x
      (b.t, b.k) :: greedy n (l.filter (fun y => y.t != b.t && y.k != b.k))

/-- One Tide of a port's tracks (R229, R230): the tracks that stay, those that ended, dropped new tracks, and the next
serial number. -/
def trackStep (tracks : List Track) (serial idBase : Nat) (dets : List (Num × Nat)) (p gate maxV conf win maxMiss : Nat)
    (alpha beta : Num) (tide time : Nat) : List Track × List Track × Nat × Nat :=
  let ps := Num.ofRatio p 1000
  let pred := tracks.map (fun t => { t with x := t.x.add (t.v.mul ps) })
  let cands := (upTo pred.length).flatMap (fun i =>
    match pred[i]? with
    | none => []
    | some t => (upTo dets.length).filterMap (fun k =>
        let e := (((dets.getD k (Num.zero, 0)).1).sub t.x).abs
        if e.le (Num.ofNat (gate * (1 + t.misses))) then some ⟨e, t.id, i, k⟩ else none))
  let prs := greedy cands.length cands
  let lim (v : Num) : Num := (v.min (Num.ofNat maxV)).max (Num.ofInt (-maxV))
  let moved := (upTo pred.length).filterMap (fun i =>
    match pred[i]? with
    | none => none
    | some t =>
      match prs.find? (fun z => z.1 == i) with
      | some z =>
        let d := dets.getD z.2 (Num.zero, 0)
        let e := d.1.sub t.x
        let t := { t with x := t.x.add (alpha.mul e), v := lim (t.v.add ((beta.mul e).div ps)), misses := 0
                          pairings := t.pairings + 1, age := t.age + 1, excess := d.2, time := time }
        some { t with confirmed := t.confirmed || decide (conf ≤ t.pairings ∧ t.age ≤ win) }
      | none => some { t with misses := t.misses + 1, age := t.age + 1 })
  -- tentative tracks past their window go; confirmed ones end after too many misses
  let kept := moved.filter (fun t => t.confirmed || decide (t.age < win))
  let missed := kept.filter (fun t => t.confirmed && decide (maxMiss ≤ t.misses))
  let kept := kept.filter (fun t => !(t.confirmed && decide (maxMiss ≤ t.misses)))
  -- confirmed tracks close together for long: the higher TrackId ends
  let half := Num.ofRatio gate 2
  let near := kept.map (fun t =>
    let close := kept.filter (fun u => u.confirmed && decide (u.id < t.id) && ((u.x.sub t.x).abs).le half)
    let runs := close.map (fun u => (u.id, ((lookup u.id t.near).getD 0) + 1))
    if t.confirmed then { t with near := runs } else t)
  let merged := near.filter (fun t => t.near.any (fun e => decide (conf ≤ e.2)))
  let kept := near.filter (fun t => !t.near.any (fun e => decide (conf ≤ e.2)))
  -- each unpaired detection starts a tentative track
  let fresh := (upTo dets.length).filter (fun k => !prs.any (fun z => z.2 == k))
  let room := 512 - kept.length
  let born := (upTo (min room fresh.length)).map (fun j =>
    let d := dets.getD (fresh.getD j 0) (Num.zero, 0)
    ({ id := idBase + (serial + j) % 2 ^ 21, x := d.1, v := Num.zero, excess := d.2, firstTide := tide, time := time } : Track))
  (kept ++ born, missed ++ merged, fresh.length - born.length, (serial + born.length) % 2 ^ 21)

/-! ## Hand-off (R371, R372) -/

/-- D̂ in 100 ps where both delays are known (R360): the sum of DelayIn and DelayOut, halved. -/
def Pair.delayIn (p : Pair) : Option Int :=
  if p.arrivals.length = 0 then none else some (divRound (sumI p.arrivals) p.arrivals.length)

/-- The aligned delay D̂ in 100 ps. -/
def Pair.aligned (p : Pair) : Option Int :=
  match p.delayIn, p.delayOut with
  | some a, some b => some (divRound (a + b) 2)
  | _, _ => none

/-- SpanLength in mm (R371): as set, or 2 D Δz less both ends' r_0 Δz. -/
def State.spanLength (s : State) (q : Port) : Num :=
  let n := s.pn q 0x7010 3
  if n ≠ 0 then Num.ofNat n else
    let pr := (s.port q).pair
    let d2 := Num.ofRatio (2 * pr.aligned.getD 0) 80
    (d2.sub (Num.ofNat ((s.plan q).r0 + (pr.partner.map (·.r0)).getD (s.plan q).r0))).mul (s.dz q)

/-- Change a port's pairing. -/
def State.modPair (s : State) (q : Port) (f : Pair → Pair) : State := s.modPort q (fun ps => { ps with pair := f ps.pair })

/-- Send the hand-offs of a Tide (R371): each confirmed track past the hand-off point and moving away, none of whose
hand-offs is open. -/
def State.handoffSend (s : State) (q : Port) : State :=
  let pr := (s.port q).pair
  if pr.state = 2 then
    let span := s.spanLength q
    let hp := s.pn q 0x7010 4
    let point := (if hp = 0 then span.scale (-1) else Num.ofNat hp).add (Num.ofNat (s.pn q 0x7010 5))
    let go := (s.port q).trk.tracks.filter (fun t =>
      t.confirmed && point.le t.x && decide (0 < t.v.m) && !pr.open_.any (fun h => h.track == t.id))
    go.foldl (fun s t =>
      let fields := [t.id, t.firstTide, ofSigned 64 (span.sub t.x).floor, ofSigned 32 t.v.neg.floor]
      let s := s.originate 2 0x30 (s.pn q 0x7010 2) fields []
      let s := if s.chain.iAct ∨ s.chain.acting = 0 ∨ s.chain.acting = s.pn q 0x7010 2 then s
        else s.originate 2 0x30 s.chain.acting fields []
      s.modPair q (fun p => { p with open_ := p.open_ ++ [⟨t.id, s.tide.num⟩] })) s
  else s

/-! ## Dispatch and record (R218, R231) -/

/-- Tracking is enabled for the Tide of an ordinal (R230). -/
def State.trkOnAt (s : State) (q : Port) (nth : Nat) : Bool :=
  match (s.port q).trk.dropAt with
  | some k => decide (nth < k)
  | none => s.trkOn q

/-- The detection record that a port's tracking has before it, unless done. -/
def State.trkNext (s : State) (q : Port) : Option DetRec :=
  match (s.port q).det.done with
  | some r => if s.trkOnAt q r.nth && decide ((s.port q).trk.doneTo ≤ r.nth) then some r else none
  | none => none

/-- The Tides whose tracking a port owes: those before it, those whose detection a port still owes or has left without a record
(R218). -/
def State.trkOwed (s : State) (q : Port) : List Nat :=
  let t := (s.port q).trk
  (t.work.toList.map (·.2.nth) ++ ((s.trkNext q).toList.map (·.nth))
    ++ bothPorts.flatMap (fun r => s.detOwed r ++ (s.port r).det.missed.toList)).filter (fun n =>
      decide (t.doneTo ≤ n) && s.trkOnAt q n)

/-- TRACKING_DISPATCH (R218): both ports' detection of the Tide has ended; port A goes to the pool's lowest core, port B to
the next; with one core, port B's work follows port A's on it. -/
def execTrackingDispatch (s : State) : Host.Outcome State Fault Refusal :=
  let due (q : Port) : Option DetRec :=
    match s.trkNext q with
    | some r =>
      let waits := bothPorts.any (fun p => (s.detOwed p).any (fun n => decide (n ≤ r.nth)))
      if !waits && !s.late r.nth && (s.port q).trk.work.isNone then some r else none
    | none => none
  let cores := s.poolCores 3
  if s.brewOn && !cores.isEmpty && ((due .a).isSome || (due .b).isSome) then
    let ca := cores.getD 0 0
    let cb := cores.getD 1 ca
    let one (s : State) (q : Port) (c : Nat) : State :=
      match due q with
      | none => s
      | some r =>
        let n := (s.port q).trk.tracks.length
        let s := s.modTrk q (fun t => { t with work := some (c, r) })
        let s := s.addBusy c (3000 * r.entries.length + 1500 * n + 2000)
        -- a core that works on the other port's tracking takes this up once it ends that
        if (s.brew.cores.getD c {}).work = some (.track (Port.other q)) then s else s.dispatch (.track q) [c]
    .next (one (one s .a ca) .b cb)
  else .next s

/-- An entry of a track record. -/
def Track.entry (t : Track) (state : Nat) : List Byte :=
  let i (x : Num) : Nat := ofSigned 32 (clampI (-2147483648) 2147483647 x.floor)
  leBytes 4 t.id ++ leBytes 4 (i t.x) ++ leBytes 4 (i t.v) ++ leBytes 2 (min 0xFFFF t.excess) ++ leBytes 1 state
    ++ leBytes 1 (min 255 t.misses) ++ leBytes 6 t.firstTide ++ zeros 2 ++ leBytes 8 t.time

/-- Publish a port's track record: confirmed tracks, then those that ended this Tide (order: log 40). -/
def State.publishTrk (s : State) (q : Port) (r : DetRec) (ended : List Track) : State :=
  let conf := (s.port q).trk.tracks.filter (·.confirmed)
  let bytes := detHeader r.time r.tide r.epoch (conf.length + ended.length) r.flags 1 r.groups r.group
    ++ conf.flatMap (fun t => t.entry (if t.misses = 0 ∧ r.evaluated then 0 else 1)) ++ ended.flatMap (fun t => t.entry 2)
  s.deliver q true 4 10 true 5 r.time (ellOf r.tide r.cfg.m 0) (r.time - 4 * r.cfg.r0 - 2 * r.cfg.g) 0 bytes

/-- A commit that disables tracking drops every track at its Tide, whose ordinal is the present one: the record of the Tide
before still reports them (R230). One that enables it again finds none. -/
def State.trkDrop (s : State) (q : Port) (was : Bool) : State :=
  if s.trkOn q then
    s.modTrk q (fun t => if t.dropAt.isSome then { t with tracks := [], ending := [], work := none, dropAt := none } else t)
  else if was then s.modTrk q (fun t => { t with dropAt := some s.tide.edges }) else s

/-- The tracks go once the last record has been published, or its deadline has come. -/
def State.trkDropped (s : State) (q : Port) : State :=
  s.modTrk q (fun t =>
    if t.dropAt.any (fun k => decide (k ≤ t.doneTo) || decide (k + 1 ≤ s.tide.edges)) then { t with tracks := [], ending := [] } else t)

/-- TRACK_RECORD (R229–R231): a port's tracking ends and publishes; one whose core still works on the other port's has not begun
(R218). -/
def execTrackRecord (q : Port) (s : State) : Host.Outcome State Fault Refusal :=
  match (s.port q).trk.work with
  | none => .next s
  | some (c, r) =>
    let k := s.brew.cores.getD c {}
    if s.brewOn && !s.late r.nth && k.work != some (.track (Port.other q)) then
      let other := (s.port (Port.other q)).trk.work
      -- the core goes on to the other port's tracking where it has both
      let s := if other.any (fun w => w.1 == c) then s.dispatch (.track (Port.other q)) [c]
        else if k.work = some (.track q) then s.modCore c Core.idle else s
      let t := (s.port q).trk
      let s := s.modTrk q (fun t => { t with work := none, doneTo := r.nth + 1 })
      if r.evaluated then
        let dets := (r.entries.filter (fun e => decide (e.state < 2))).map (fun e => (s.groupPos q r e.peak, e.excess))
        let n (i : Nat) : Nat := s.pn q 0x6030 i
        let (tr, ended, drop, serial) := trackStep t.tracks t.serial (s.node * 2 ^ 22 + Port.num q * 2 ^ 21) dets r.cfg.p
          (n 2) (n 3) (n 6) (n 7) (n 8) (s.pr q 0x6030 4) (s.pr q 0x6030 5) r.tide r.time
        let s := s.modTrk q (fun t => { t with tracks := tr, serial := serial, drops := satAdd 0xFFFFFFFF t.drops drop })
        let s := (s.publishTrk q r (ended ++ t.ending)).handoffSend q
        .next ((s.modTrk q (fun t => { t with ending := [] })).trkDropped q)
      else
        -- a Tide that was not evaluated only moves the tracks on (R229)
        let ps := Num.ofRatio r.cfg.p 1000
        let s := s.modTrk q (fun t => { t with tracks := t.tracks.map (fun k => { k with x := k.x.add (k.v.mul ps) }) })
        .next ((((s.publishTrk q r t.ending).handoffSend q).modTrk q (fun t => { t with ending := [] })).trkDropped q)
    else .next s

/-- HANDOFF_RECEIVE (R372): the partner's track is adopted by the confirmed track nearest x' within TrackGate, or created;
then it is acknowledged. -/
def execHandoffReceive (q : Port) (inp : LinkPort) (f : Frame) (s : State) : Host.Outcome State Fault Refusal :=
  if s.up && s.carries inp then
    let (pass, s) := s.ingress inp f
    if pass then
      let s := s.forward inp f
      if s.chnOn && s.takes f && (s.port q).pair.state == 2 && f.src == s.pn q 0x7010 2 then
        let id := f.fields.getD 0 0
        let ft := f.fields.getD 1 0
        let x := Num.ofInt (toSigned 64 (f.fields.getD 2 0))
        let v := Num.ofInt (toSigned 32 (f.fields.getD 3 0))
        let ts := (s.port q).trk.tracks
        let near := (upTo ts.length).foldl (fun (m : Option (Nat × Num)) i =>
          match ts[i]? with
          | none => m
          | some t =>
            let d := (t.x.sub x).abs
            if t.confirmed && d.le (Num.ofNat (s.pn q 0x6030 2)) then
              (match m with
               | none => some (i, d)
               | some z => if d.lt z.2 then some (i, d) else m)
            else m) none
        let ack (s : State) : State := s.originate 2 0x30 f.src [id, ft, 0, 0, 1] []
        match near with
        | some z => .next (ack (s.modTrk q (fun t => { t with
            tracks := modAt t.tracks z.1 (fun k => { k with id := id, firstTide := ft }) })))
        | none =>
          -- no room: the track stays with the end that hands it (DESIGN CHOICE, log 184)
          if 512 ≤ ts.length then .next (s.modTrk q (fun t => { t with drops := satAdd 0xFFFFFFFF t.drops 1 }))
          else
            let k : Track := { id := id, x := x, v := v, confirmed := true, excess := 0, firstTide := ft, time := s.time.now }
            .next (ack (s.modTrk q (fun t => { t with tracks := t.tracks ++ [k] })))
      else .next s
    else .next s
  else .next s

/-- HANDOFF_ACK (R372): the handing end ends its track with state 2. -/
def execHandoffAck (q : Port) (inp : LinkPort) (f : Frame) (s : State) : Host.Outcome State Fault Refusal :=
  if s.up && s.carries inp then
    let (pass, s) := s.ingress inp f
    if pass then
      let s := s.forward inp f
      let id := f.fields.getD 0 0
      if s.chnOn && s.takes f && (s.port q).pair.open_.any (fun h => h.track == id) then
        let ended := (s.port q).trk.tracks.filter (fun t => t.id == id)
        let s := s.modPair q (fun p => { p with open_ := p.open_.filter (fun h => h.track != id)
                                                handoffs := satAdd 0xFFFFFFFF p.handoffs 1 })
        let s := s.modTrk q (fun t => { t with tracks := t.tracks.filter (fun k => k.id != id)
                                               ending := t.ending ++ ended })
        .next s
      else .next s
    else .next s
  else .next s

/-- HANDOFF_TIMEOUT (R372): no acknowledgement within 4 Tides; the track is kept. -/
def execHandoffTimeout (q : Port) (track : Nat) (s : State) : Host.Outcome State Fault Refusal :=
  if s.up && (s.port q).pair.open_.any (fun h => h.track == track && decide (h.tide + 4 ≤ s.tide.num)) then
    .next (s.modPair q (fun p => { p with open_ := p.open_.filter (fun h => h.track != track)
                                          handFails := satAdd 0xFFFFFFFF p.handFails 1 }))
  else .next s

end Sys2Proof.Machine
end

