-- ==== Sys2Proof/Machine/Dsp.lean ====
section
/-! DEFINITION. The Brewhouse cores: exceptions (R221, R223, R234) and the instructions (R203–R211). -/
namespace Sys2Proof.Machine
open Sys2Proof

/-! ## Exceptions -/

/-- A core. -/
def State.core (s : State) (c : Nat) : Core := s.brew.cores.getD c {}

/-- Change a program. -/
def State.modProg (s : State) (p : Nat) (f : Program → Program) : State :=
  { s with brew := { s.brew with progs := modAt s.brew.progs p f } }

/-- What the end of a core's work by an exception does (R223). `fitted` is how many bins of its range a fit core had
fitted; `poison` tells that the cause was a poisoned or uncorrectable read. -/
def State.workFault (s : State) (c : Nat) (w : Work) (poison : Bool) (fitted : Nat) : State :=
  match w with
  | .detect q =>
    (match (s.port q).det.work with
     | some k =>
       let bad := (k.busy.filter (fun r => r.1 == c)).map (fun r => (r.2.1, r.2.2))
       let k := { k with busy := k.busy.filter (fun r => r.1 != c), faulted := k.faulted ++ bad, incomplete := true
                         poisoned := k.poisoned || poison }
       if k.busy.isEmpty && !s.late k.lrec.last.nth then s.detEnd q k else s.modDet q (fun d => { d with work := some k })
     | none => s)
  | .track _ =>
    bothPorts.foldl (fun s q => s.modTrk q (fun t =>
      match t.work with
      | some (k, r) => if k = c then { t with work := none, doneTo := r.nth + 1 } else t
      | none => t)) s
  | .fit q =>
    s.modFit q (fun f => { f with poisoned := f.poisoned || poison, unfit := f.unfit ++ ((f.ranges.getD []).filter (fun r => r.1 == c)).flatMap (fun r =>
      (upTo (r.2.2 - fitted)).map (fun i => r.2.1 + fitted + i)) })
  | .customer p =>
    let g := (s.brew.progs.getD p {})
    let run := if g.faultNow then g.faultRun else g.faultRun + 1
    let s := s.modProg p (fun g => { g with faults := satAdd 0xFFFFFFFF g.faults 1, faultRun := run, faultNow := true })
    if 16 ≤ run ∧ g.state = 2 then
      -- PROGRAM_FAULTED (R234)
      let s := g.cores.foldl (fun s k => s.modCore k Core.idle) s
      s.modProg p (fun g => { g with state := 3, cores := [] })
    else s

/-- Records that a program's core has published in its present work carry INCOMPLETE, and where the cause was a bad read the
poisoned flag (R221, R223). -/
def State.markOutputs (s : State) (c : Nat) (poison : Bool) : State :=
  match (s.core c).work with
  | some (.customer p) => s.modProg p (fun g => { g with outputs := g.outputs.map (fun o =>
      if o.core = c ∧ o.due = (s.core c).due then { o with incomplete := true, poisoned := o.poisoned || poison } else o) })
  | _ => s

/-- A customer core's time at work in the Tide, up to `t` (R222). -/
def State.chargeCore (s : State) (c t : Nat) : State :=
  let k := s.core c
  match k.work with
  | some (.customer _) => if k.running then (s.addBusy c (t - k.since)).modCore c (fun k => { k with since := t }) else s
  | _ => s

/-- A core ends its work; Tide work that waited for it starts (R218, R221). -/
def Core.ended (k : Core) (now : Nat) : Core :=
  match k.again, k.work with
  | some d, some (.customer p) => k.start (.customer p) 1 (some d) now
  | _, _ => k.idle

/-- A core takes an exception (R223). Cause 0: illegal instruction, address, stack or loop overflow, bus error; 1: poisoned
or uncorrectable data read; 2: uncorrectable program memory; 3: no halt within 10 µs of a stop. -/
def State.coreException (s : State) (c cause fitted : Nat) : State :=
  let w := (s.core c).work
  let out := decide (2 ≤ cause)
  let s := (s.markOutputs c (cause == 1)).chargeCore c s.time.now
  let s := s.modCore c (fun k => if out then { k.idle with out := true } else k.ended s.time.now)
  let s : State := { s with brew := { s.brew with faults := satAdd 0xFFFFFFFF s.brew.faults 1 } }
  let s := (s.raise stBrew [0]).contained 0x20 c 1
  match w with
  | some w => s.workFault c w (cause == 1) fitted
  | none => s

/-- CORE_EXCEPTION. -/
def execCoreException (c cause fitted : Nat) (s : State) : Host.Outcome State Fault Refusal :=
  if s.brewOn && decide (c < 16) && decide (cause < 3) && (s.core c).running then .next (s.coreException c cause fitted)
  else .next s

/-- CORE_ABORT_TIMEOUT (R221): a core has not halted 2 µs after an abort, so the controller stops it. -/
def execCoreAbortTimeout (c : Nat) (s : State) : Host.Outcome State Fault Refusal :=
  if s.brewOn && (s.core c).aborting then
    .next (s.modCore c (fun k => { k with aborting := false, stopping := true }))
  else .next s

/-- CORE_STOP_TIMEOUT (R223): a stopped core has not halted within 10 µs, so it leaves service. -/
def execCoreStopTimeout (c : Nat) (s : State) : Host.Outcome State Fault Refusal :=
  if s.brewOn && (s.core c).stopping then .next (s.coreException c 3 0) else .next s

/-! ## Memory of a core -/

/-- A 32-bit word of a core's program memory as the debug access reads it (R203, R416). -/
def Core.progWord (k : Core) (i : Nat) : Nat :=
  match k.prog with
  | .empty => 0
  | .library p => Config.libraryCode p i % 2 ^ 32
  | .image g => Config.imageCode g i % 2 ^ 32

/-- Size of X and of Y memory. -/
def coreMemSize : Nat := 65536

/-- Fabric addresses of cluster memory, pool SRAM and Kiln SRAM (R406). -/
def clusterBase : Nat := 0x3600000000
def poolBase : Nat := 0x3400000000
def kilnBase : Nat := 0x3500000000

/-- `n` bytes of a value, or of a register's bytes from `ofs` on. -/
def sliceVal (v ofs n : Nat) : Nat := v / 2 ^ (8 * ofs) % 2 ^ (8 * n)

/-- Put `n` bytes into a register at byte `ofs`. -/
def putSlice (v ofs n x : Nat) : Nat := v - sliceVal v ofs n * 2 ^ (8 * ofs) + x % 2 ^ (8 * n) * 2 ^ (8 * ofs)

/-- Reverse the low `n` bits. -/
def bitRev : Nat → Nat → Nat
  | 0, _ => 0
  | n + 1, x => (x % 2) * 2 ^ n + bitRev n (x / 2)

/-- The index after an access of `w` bytes (R208). A length that the mode's row does not take states no result: the value
`free` (log 108). -/
def AgSetup.next (g : AgSetup) (w free : Nat) : Nat :=
  if g.mode = 1 then
    if 1 ≤ g.length ∧ g.length ≤ 65536 then (((g.index : Int) + g.step) % (g.length : Int)).toNat else free % 2 ^ 32
  else if g.mode = 2 then
    let n := Nat.log2 g.length
    if g.length = 2 ^ n then bitRev n ((bitRev n (g.index / w) + 1) % 2 ^ n) * w else free % 2 ^ 32
  else ofSigned 32 ((g.index : Int) + g.step)

/-- The address of a move, none where it raises the address exception (R208). -/
def Core.moveAddr (k : Core) (m : Move) : Option Nat :=
  let g := k.ag.getD m.ag ⟨0, 0, 0, 1, 0, 0⟩
  let a := (g.base + g.index) % 2 ^ 32
  if a + m.bytes ≤ coreMemSize ∧ (m.bytes < 4 ∨ a % m.bytes = 0) then some a else none

/-- The memory a move's generator names. -/
def Core.moveMem (k : Core) (m : Move) : List Host.Cell := if (k.ag.getD m.ag ⟨0, 0, 0, 1, 0, 0⟩).mem = 0 then k.x else k.y

/-- The value a load brings; 0 for a store or no move. -/
def Core.loaded (k : Core) (m : Option Move) : Nat :=
  match m with
  | none => 0
  | some m => if m.store then 0 else match k.moveAddr m with
    | some a => leNat (memRead (k.moveMem m) a m.bytes)
    | none => 0

/-- Both moves have addresses. -/
def Core.movesOk (k : Core) (m : Moves) : Bool :=
  (m.x.all (fun v => (k.moveAddr v).isSome)) && (m.y.all (fun v => (k.moveAddr v).isSome))

/-- Carry out a move on `k`, with registers and generators as they stood in `k0` before the instruction; `free` is the index
where R208 states none. -/
def Core.doMove (free : Nat) (k0 k : Core) (m : Option Move) : Core :=
  match m with
  | none => k
  | some m =>
    match k0.moveAddr m with
    | none => k
    | some a =>
      let g := k0.ag.getD m.ag ⟨0, 0, 0, 1, 0, 0⟩
      let k := { k with ag := modAt k.ag m.ag (fun h => { h with index := AgSetup.next g m.bytes free }) }
      if m.store then
        let bs := leBytes m.bytes (sliceVal (k0.v.getD m.reg 0) m.ofs m.bytes)
        if g.mem = 0 then { k with x := memWrite k.x a bs } else { k with y := memWrite k.y a bs }
      else { k with v := modAt k.v m.reg (fun v => putSlice v m.ofs m.bytes (k0.loaded (some m))) }

/-! ## The flow of instructions -/

/-- The program counter after an instruction that does not branch: hardware loops return without overhead (R203). -/
def loopStep (pc : Nat) : List CoreLoop → Nat × List CoreLoop
  | [] => ((pc + 1) % 4096, [])
  | l :: t =>
    if l.last = pc then
      if 1 < l.left then (l.first, { l with left := l.left - 1 } :: t) else loopStep pc t
    else ((pc + 1) % 4096, l :: t)

/-- A core past one instruction. -/
def Core.past (k : Core) : Core :=
  let (pc, ls) := loopStep k.pc k.loops
  { k with pc := pc, loops := ls, waitEvent := false, waitDma := none }

/-- A core can execute: it runs and waits for no descriptor. An instruction on a core that waited for an event tells that
the event has come (log 42). -/
def State.coreReady (s : State) (c : Nat) : Bool :=
  let k := s.core c
  s.brewOn && decide (c < 16) && k.running && !k.out && (match k.waitDma with
    | some n => decide (k.dma.length ≤ n)
    | none => true)

/-- The free values an instruction may use, by lane. -/
def State.laneFree (s : State) (i : Nat) : Nat := Config.freeValue (s.free + i)

/-- Past the free values of one instruction. -/
def State.useFree (s : State) : State := { s with free := s.free + 16 }

/-- One instruction: the operation `op` on the core past it, given what the X and Y moves load, answers the core and the
BREW_STAT bits it sets, or none for an exception; then the moves. -/
def State.instr (s : State) (c : Nat) (m : Moves) (op : Core → Nat → Nat → Option (Core × List Nat)) : State :=
  if s.coreReady c then
    let k := s.core c
    if k.movesOk m then
      match op k.past (k.loaded m.x) (k.loaded m.y) with
      | some (k', ev) =>
        ((s.modCore c (fun _ => Core.doMove (s.laneFree 9) k (Core.doMove (s.laneFree 8) k k' m.x) m.y)).raise stBrew ev).useFree
      | none => s.coreException c 0 0
    else s.coreException c 0 0
  else s

/-! ## Vectors (R203, R206, R207) -/

/-- Lane `i` of `w` bits. -/
def laneOf (w v i : Nat) : Nat := v / 2 ^ (w * i) % 2 ^ w

/-- A lane as an integer. -/
def laneInt (w : Nat) (signed : Bool) (n : Nat) : Int := if signed then toSigned w n else n

/-- A vector from lanes of `w` bits, lane 0 lowest. -/
def fromLanes (w : Nat) : List Nat → Nat
  | [] => 0
  | x :: t => x % 2 ^ w + 2 ^ w * fromLanes w t

/-- A vector operand. -/
def Core.vec (k : Core) (x y : Nat) : VSrc → Nat
  | .v n => k.v.getD n 0
  | .x => x
  | .y => y

/-- VECTOR_MULTIPLY_ACCUMULATE (R206): 8 lanes of 16 × 16 bits into 48, wrapping; with `complex` the lane pairs are
(real, imaginary). -/
def execVectorMultiplyAccumulate (c : Nat) (op : MacOp) (complex signedA signedB : Bool) (dst : Nat) (a b : VSrc) (m : Moves)
    (s : State) : Host.Outcome State Fault Refusal :=
  .next (s.instr c m (fun k x y =>
    let la (i : Nat) : Int := laneInt 16 signedA (laneOf 16 (k.vec x y a) i)
    let lb (i : Nat) : Int := laneInt 16 signedB (laneOf 16 (k.vec x y b) i)
    let prod (i : Nat) : Int :=
      if complex then
        let r := i / 2 * 2
        if i % 2 = 0 then la r * lb r - la (r + 1) * lb (r + 1) else la r * lb (r + 1) + la (r + 1) * lb r
      else la i * lb i
    let acc := k.a.getD dst []
    let exact := (upTo 8).map (fun i => match op with
      | .mul => prod i
      | .add => acc.getD i 0 + prod i
      | .sub => acc.getD i 0 - prod i)
    let lanes := exact.map (wrapS 48)
    let ovf := decide (lanes ≠ exact)
    some ({ k with a := setAt k.a dst lanes, accOvf := k.accOvf || ovf }, if ovf then [5] else [])))

/-- The exact result of a vector operation on one lane; none where the operation works on the lane's bits. -/
def aluExact (op : AluOp) (a b : Int) : Option Int :=
  match op with
  | .add => some (a + b)
  | .sub => some (a - b)
  | .abs => some a.natAbs
  | .min => some (min a b)
  | .max => some (max a b)
  | _ => none

/-- One lane of a vector operation: `a`, `b`, `d` are lanes as bits (`d` the third operand of a select). A result that
falls outside the lane's format, and a shift by the lane's width or more, is free. -/
def aluLane (op : AluOp) (w : Nat) (signed : Bool) (free a b d : Nat) : Nat :=
  let ia := laneInt w signed a
  let ib := laneInt w signed b
  let mask (t : Bool) : Nat := if t then 2 ^ w - 1 else 0
  match aluExact op ia ib with
  | some r =>
    let lo : Int := if signed then -((2 ^ (w - 1) : Nat) : Int) else 0
    let hi : Int := if signed then ((2 ^ (w - 1) : Nat) : Int) - 1 else ((2 ^ w : Nat) : Int) - 1
    if lo ≤ r ∧ r ≤ hi then ofSigned w r else free % 2 ^ w
  | none =>
    match op with
    | .cmpEq => mask (a == b)
    | .cmpLt => mask (decide (ia < ib))
    | .cmpLe => mask (decide (ia ≤ ib))
    | .select => (a &&& b) ||| ((2 ^ w - 1 - a) &&& d)
    | .shl => if b < w then a * 2 ^ b % 2 ^ w else free % 2 ^ w
    | .shr => if b < w then a / 2 ^ b else free % 2 ^ w
    | .sar => if b < w then ofSigned w (asr (toSigned w a) b) else free % 2 ^ w
    | .land => a &&& b
    | .lor => a ||| b
    | .lxor => a ^^^ b
    | _ => 2 ^ w - 1 - a

/-- VECTOR_ARITHMETIC_LOGIC (R203, R207): 8 lanes of 16 bits, or with `wide` 4 of 32. -/
def execVectorArithmeticLogic (c : Nat) (op : AluOp) (wide signed : Bool) (dst : Nat) (a b d : VSrc) (m : Moves) (s : State) :
    Host.Outcome State Fault Refusal :=
  let w := if wide then 32 else 16
  .next ((s.instr c m (fun k x y =>
    let lanes := (upTo (128 / w)).map (fun i =>
      aluLane op w signed (s.laneFree i) (laneOf w (k.vec x y a) i) (laneOf w (k.vec x y b) i) (laneOf w (k.vec x y d) i))
    some ({ k with v := setAt k.v dst (fromLanes w lanes) }, []))).useFree)

/-- Narrow a value to `w` bits by wrapping or saturating, and whether it was limited (R207). -/
def narrow (w : Nat) (signed saturate : Bool) (x : Int) : Nat × Bool :=
  if saturate then
    let lo : Int := if signed then -((2 ^ (w - 1) : Nat) : Int) else 0
    let hi : Int := if signed then ((2 ^ (w - 1) : Nat) : Int) - 1 else ((2 ^ w : Nat) : Int) - 1
    (ofSigned w (clampI lo hi x), decide (x < lo) || decide (hi < x))
  else (ofSigned w x, false)

/-- ACCUMULATOR_MOVE (R207): lanes to a vector with a shift of 0 to 47, clear, or the lane sum into lane 0. In 32-bit form
the vector takes lanes 0–3, or with `high` 4–7. -/
def execAccumulatorMove (c src : Nat) (op : AccOp) (m : Moves) (s : State) : Host.Outcome State Fault Refusal :=
  .next (s.instr c m (fun k _ _ =>
    let acc := k.a.getD src []
    match op with
    | .move dst shift wide high saturate signed =>
      let w := if wide then 32 else 16
      let ls := (upTo (128 / w)).map (fun i =>
        narrow w signed saturate (asr (acc.getD (if wide && high then i + 4 else i) 0) (shift % 48)))
      let lim := ls.any (·.2)
      some ({ k with v := setAt k.v dst (fromLanes w (ls.map (·.1))), sat := k.sat || lim }, if lim then [6] else [])
    | .clear => some ({ k with a := setAt k.a src (List.replicate 8 0) }, [])
    | .laneSum =>
      let t := sumI acc
      let ovf := decide (wrapS 48 t ≠ t)
      some ({ k with a := setAt k.a src (setAt acc 0 (wrapS 48 t)), accOvf := k.accOvf || ovf }, if ovf then [5] else [])))

/-! ## Search (R209) -/

/-- SEARCH: the lanes of a vector against the best; lane i has the index S[base] + i. -/
def execSearch (c : Nat) (isMax wide signed : Bool) (src : VSrc) (base : Nat) (m : Moves) (s : State) :
    Host.Outcome State Fault Refusal :=
  let w := if wide then 32 else 16
  .next (s.instr c m (fun k x y =>
    let v := k.vec x y src
    let r := (upTo (128 / w)).foldl (fun (b : Int × Nat) i =>
      let n := laneInt w signed (laneOf w v i)
      let idx := (k.s.getD base 0 + i) % 2 ^ 32
      if (if isMax then decide (b.1 < n) else decide (n < b.1)) || (n == b.1 && decide (idx < b.2)) then (n, idx) else b)
      (k.best, k.bestIdx)
    some ({ k with best := r.1, bestIdx := r.2 }, [])))

/-- SEARCH_RESET: the worst value of its type, index 0xFFFF_FFFF. -/
def execSearchReset (c : Nat) (isMax wide signed : Bool) (m : Moves) (s : State) : Host.Outcome State Fault Refusal :=
  let w := if wide then 32 else 16
  let lo : Int := if signed then -((2 ^ (w - 1) : Nat) : Int) else 0
  let hi : Int := if signed then ((2 ^ (w - 1) : Nat) : Int) - 1 else ((2 ^ w : Nat) : Int) - 1
  .next (s.instr c m (fun k _ _ => some ({ k with best := if isMax then lo else hi, bestIdx := 0xFFFFFFFF }, [])))

/-- SEARCH_READ: best value and index to two scalar registers. -/
def execSearchRead (c dstV dstI : Nat) (m : Moves) (s : State) : Host.Outcome State Fault Refusal :=
  .next (s.instr c m (fun k _ _ =>
    some ({ k with s := setAt (setAt k.s dstV (ofSigned 32 k.best)) dstI k.bestIdx }, [])))

/-! ## Scalars (R207) -/

/-- A scalar operation on 32-bit words: low and high result. Sums and differences outside the format, shifts by 32 or more
and divisions by 0 are free. -/
def scalarResult (op : ScalarOp) (signed : Bool) (f0 f1 a b : Nat) : Nat × Nat :=
  let w := 2 ^ 32
  let ia := laneInt 32 signed a
  let ib := laneInt 32 signed b
  let fit (r : Int) : Nat :=
    let lo : Int := if signed then -2147483648 else 0
    let hi : Int := if signed then 2147483647 else 4294967295
    if lo ≤ r ∧ r ≤ hi then ofSigned 32 r else f0 % w
  match op with
  | .add => (fit (ia + ib), 0)
  | .sub => (fit (ia - ib), 0)
  | .land => (a &&& b, 0)
  | .lor => (a ||| b, 0)
  | .lxor => (a ^^^ b, 0)
  | .lnot => (w - 1 - a % w, 0)
  | .shl => (if b < 32 then a * 2 ^ b % w else f0 % w, 0)
  | .shr => (if b < 32 then a / 2 ^ b else f0 % w, 0)
  | .sar => (if b < 32 then ofSigned 32 (asr (toSigned 32 a) b) else f0 % w, 0)
  | .mul => (ofSigned 64 (ia * ib) % w, ofSigned 64 (ia * ib) / w)
  | .div => if b = 0 then (f0 % w, f1 % w) else (fit (ia.tdiv ib), ofSigned 32 (ia.tmod ib))
  | .clz => (32 - bitLen (a % w), 0)

/-- SCALAR_OPERATION: S[dst], and S[dst2] for a product's high word or a remainder. -/
def execScalarOperation (c : Nat) (op : ScalarOp) (signed : Bool) (dst dst2 a b : Nat) (m : Moves) (s : State) :
    Host.Outcome State Fault Refusal :=
  .next ((s.instr c m (fun k _ _ =>
    let r := scalarResult op signed (s.laneFree 0) (s.laneFree 1) (k.s.getD a 0) (k.s.getD b 0)
    let two := op == .mul || op == .div
    let regs := setAt k.s dst r.1
    some ({ k with s := if two then setAt regs dst2 r.2 else regs }, []))).useFree)

/-! ## Memory, addresses, control -/

/-- The part of cluster memory that work may reach: all of it, or a customer program's own part (R234). -/
def State.clusterOk (s : State) (owner : Option Nat) (a n : Nat) : Bool :=
  match owner with
  | some p =>
    let g := s.brew.progs.getD p {}
    decide (g.memBase ≤ a) && decide (a + n ≤ g.memBase + g.memLen)
  | none => decide (a + n ≤ 0x80000)

/-- MEMORY_MOVE (R205, R210): the X and Y moves alone, or a scalar load or store to cluster memory. -/
def execMemoryMove (c : Nat) (mem : Option ScalarMem) (m : Moves) (s : State) : Host.Outcome State Fault Refusal :=
  match mem with
  | none => .next (s.instr c m (fun k _ _ => some (k, [])))
  | some z =>
    let a := ofSigned 32 (((s.core c).s.getD z.addr 0 : Nat) + z.ofs)
    let ok := s.clusterOk (s.core c).owner a z.bytes && (decide (z.bytes < 4) || a % z.bytes == 0)
    let v := leNat (s.read (clusterBase + a) z.bytes)
    let st := leBytes z.bytes ((s.core c).s.getD z.reg 0)
    let go := s.coreReady c && ok && (s.core c).movesOk m
    let s := s.instr c m (fun k _ _ => if ok then some (if z.store then k else { k with s := setAt k.s z.reg v }, []) else none)
    .next (if go && z.store then s.write (clusterBase + a) st else s)

/-- ADDRESS_GENERATOR_SETUP (R208). -/
def execAddressGeneratorSetup (c n : Nat) (g : AgSetup) (m : Moves) (s : State) : Host.Outcome State Fault Refusal :=
  .next (s.instr c m (fun k _ _ => some ({ k with ag := setAt k.ag n g }, [])))

/-- A branch's condition. -/
def Core.holds (k : Core) : Cond → Bool
  | .always => true
  | .zero r => k.s.getD r 0 == 0
  | .nonzero r => k.s.getD r 0 != 0
  | .negative r => decide (toSigned 32 (k.s.getD r 0) < 0)

/-- BRANCH_CALL_RETURN: the return stack holds 16; one more raises the exception (R223). The target of a return from an
empty stack is free. -/
def execBranchCallReturn (c : Nat) (j : Jump) (cond : Cond) (m : Moves) (s : State) : Host.Outcome State Fault Refusal :=
  .next ((s.instr c m (fun k _ _ =>
    if k.holds cond then
      match j with
      | .branch t => some ({ k with pc := t % 4096 }, [])
      | .call t => if 16 ≤ k.rets.length then none else some ({ k with pc := t % 4096, rets := k.pc :: k.rets }, [])
      | .ret => match k.rets with
        | a :: r => some ({ k with pc := a, rets := r }, [])
        | [] => some ({ k with pc := s.laneFree 0 % 4096 }, [])
    else some (k, []))).useFree)

/-- HARDWARE_LOOP: the instructions from the next to `last`, S[count] times; nesting beyond 4 raises the exception (R223). A count
of 0 skips the loop (DESIGN CHOICE, log 172). -/
def execHardwareLoop (c last count : Nat) (m : Moves) (s : State) : Host.Outcome State Fault Refusal :=
  .next (s.instr c m (fun k _ _ =>
    let n := k.s.getD count 0
    if 4 ≤ k.loops.length then none
    else if n = 0 then some ({ k with pc := (last + 1) % 4096 }, [])
    else some ({ k with loops := ⟨k.pc, last % 4096, n⟩ :: k.loops }, [])))

/-- WAIT_FOR_EVENT: the core waits. -/
def execWaitForEvent (c : Nat) (m : Moves) (s : State) : Host.Outcome State Fault Refusal :=
  .next (s.instr c m (fun k _ _ => some ({ k with waitEvent := true }, [])))

/-- HALT (R221): the core halts, answering an abort or a stop, and waits for its next dispatch. -/
def execHalt (c : Nat) (m : Moves) (s : State) : Host.Outcome State Fault Refusal :=
  let now := s.time.now
  let s := if s.coreReady c then s.chargeCore c now else s
  .next (s.instr c m (fun k _ _ => some (k.ended now, [])))

/-- QUEUE_CORE_DMA: the queue holds four; an instruction that finds it full stalls. -/
def execQueueCoreDma (c : Nat) (desc : DmaDesc) (m : Moves) (s : State) : Host.Outcome State Fault Refusal :=
  if 4 ≤ (s.core c).dma.length then .next s
  else .next (s.instr c m (fun k _ _ => some ({ k with dma := k.dma ++ [(k.owner, desc)] }, [])))

/-- WAIT_DMA_COMPLETION: until at most `left` descriptors remain queued. -/
def execWaitDmaCompletion (c left : Nat) (m : Moves) (s : State) : Host.Outcome State Fault Refusal :=
  .next (s.instr c m (fun k _ _ => some ({ k with waitDma := some left }, [])))

/-- The accumulators as Kiln SRAM holds them (R416; layout: log 43): port × 6 MiB + buffer × 2.5 MiB, A(i, c) with c
running fastest; elsewhere the stored byte. -/
def State.kilnByte (s : State) (o : Nat) : Byte :=
  let q : Port := if o < 0x600000 then .a else .b
  let r := o % 0x600000
  let b := r / 0x280000
  let k := (s.port q).kiln
  let held := if k.acc.any (fun a => a.buf == b) then k.acc else (k.fits.find? (fun f => f.acc.buf == b)).map (·.acc)
  match held with
  | some a =>
    let w := r % 0x280000 / 4
    let ch := kilnCh a.cfg.mode16
    if b < 2 ∧ w / ch < a.cells.length then BitVec.ofNat 8 ((a.cells.getD (w / ch) []).getD (w % ch) 0 / 256 ^ (r % 4))
    else memGet s.mem (kilnBase + o)
  | none => memGet s.mem (kilnBase + o)

/-- Store a byte in Kiln SRAM: an accumulator's where it maps to one, as `kilnByte` reads it. -/
def State.kilnPut1 (s : State) (o : Nat) (v : Byte) : State :=
  let q : Port := if o < 0x600000 then .a else .b
  let r := o % 0x600000
  let b := r / 0x280000
  let w := r % 0x280000 / 4
  let holds (a : KilnAcc) : Bool := a.buf == b && decide (b < 2) && decide (w / kilnCh a.cfg.mode16 < a.cells.length)
  let put (a : KilnAcc) : KilnAcc :=
    let ch := kilnCh a.cfg.mode16
    { a with cells := modAt a.cells (w / ch) (fun row => modAt row (w % ch) (fun x => putSlice x (r % 4) 1 v.toNat)) }
  let k := (s.port q).kiln
  if k.acc.any holds then s.modKiln q (fun k => { k with acc := k.acc.map put })
  else if !k.acc.any (fun a => a.buf == b) && (k.fits.find? (fun f => f.acc.buf == b)).any (fun f => holds f.acc) then
    s.modKiln q (fun k => { k with fits := k.fits.map (fun f => if f.acc.buf = b then { f with acc := put f.acc } else f) })
  else s.write (kilnBase + o) [v]

/-- Store bytes in Kiln SRAM. -/
def State.kilnPut (s : State) (o : Nat) : List Byte → State
  | [] => s
  | v :: t => (s.kilnPut1 o v).kilnPut (o + 1) t

/-- Bytes of a DMA place (R203), none where the work that queued the descriptor may not reach them (R208, R234). -/
def State.dmaRead (s : State) (c : Nat) (owner : Option Nat) (place a n : Nat) : Option (List Byte) :=
  let k := s.core c
  if place = 0 ∧ a + n ≤ coreMemSize then some (memRead k.x a n)
  else if place = 1 ∧ a + n ≤ coreMemSize then some (memRead k.y a n)
  else if place = 2 ∧ s.clusterOk owner a n then some (s.read (clusterBase + a) n)
  else if place = 3 ∧ owner.isNone ∧ a + n ≤ 0xC00000 then some (s.read (poolBase + a) n)
  else if place = 4 ∧ owner.isNone ∧ a + n ≤ 0xC00000 then some ((upTo n).map (fun i => s.kilnByte (a + i)))
  else if place = 5 ∨ place = 6 then
    match owner with
    | some p =>
      let g := s.brew.progs.getD p {}
      let r := ((if place = 5 then g.ringA else g.ringB).headD []).drop a
      if n ≤ r.length then some (r.take n) else none
    | none => none
  else none

/-- Store bytes to a DMA place, none where the work that queued the descriptor may not reach it. -/
def State.dmaWrite (s : State) (c : Nat) (owner : Option Nat) (place a : Nat) (bs : List Byte) : Option State :=
  let n := bs.length
  if place = 0 ∧ a + n ≤ coreMemSize then some (s.modCore c (fun k => { k with x := memWrite k.x a bs }))
  else if place = 1 ∧ a + n ≤ coreMemSize then some (s.modCore c (fun k => { k with y := memWrite k.y a bs }))
  else if place = 2 ∧ s.clusterOk owner a n then some (s.write (clusterBase + a) bs)
  else if place = 3 ∧ owner.isNone ∧ a + n ≤ 0xC00000 then some (s.write (poolBase + a) bs)
  else if place = 4 ∧ owner.isNone ∧ a + n ≤ 0xC00000 then some (s.kilnPut a bs)
  else none

/-- A stream ring gives up its oldest record once its last byte has been moved. -/
def State.ringTake (s : State) (owner : Option Nat) (d : DmaDesc) : State :=
  match owner with
  | some p =>
    let pop (l : List (List Byte)) : List (List Byte) := if (l.headD []).length ≤ d.srcAddr + d.len then l.drop 1 else l
    if d.src = 5 then s.modProg p (fun g => { g with ringA := pop g.ringA })
    else if d.src = 6 then s.modProg p (fun g => { g with ringB := pop g.ringB }) else s
  | none => s

/-- The initiator a core is on the fabric: 5 to 20. -/
def coreInit (c : Nat) : Nat := 5 + c % 16

/-- Fabric address of a DMA place (R406). -/
def dmaAddr (place a : Nat) : Nat := [a, a, clusterBase + a, poolBase + a, kilnBase + a].getD place a

/-- CORE_DMA_COMPLETE (R203): the oldest descriptor's transfer ends; `err` tells of a fabric bus error, which counts as one
(R223, R411). -/
def execCoreDmaComplete (c : Nat) (err : Bool) (s : State) : Host.Outcome State Fault Refusal :=
  if s.brewOn && decide (c < 16) then
    match (s.core c).dma with
    | [] => .next s
    | (p, d) :: rest =>
      let s := s.modCore c (fun k => { k with dma := rest })
      if err then
        let wr := decide (d.src < 2)
        let a := if wr then dmaAddr d.dst d.dstAddr else dmaAddr d.src d.srcAddr
        .next ((s.busError (coreInit c) a wr).coreException c 0 0)
      else
        match s.dmaRead c p d.src d.srcAddr d.len with
        | none => .next (s.coreException c 0 0)
        | some bs =>
          match s.dmaWrite c p d.dst d.dstAddr bs with
          | none => .next (s.coreException c 0 0)
          | some s => .next (s.ringTake p d)
  else .next s

/-- PUBLISH_OUTPUT_RECORD (R227, R234): a customer program's record enters its output queue whole, INCOMPLETE after an abort and
discarded once the core is being stopped (R221); a detection or tracking core's record is the record its end publishes
(DETECTION_CORE_END, TRACK_RECORD). -/
def execPublishOutputRecord (c : Nat) (bytes : List Byte) (m : Moves) (s : State) : Host.Outcome State Fault Refusal :=
  match (s.core c).work with
  | some (.customer p) =>
    let go := s.coreReady c && (s.core c).movesOk m && !(s.core c).stopping
    let k := s.core c
    let s := s.instr c m (fun k _ _ => some (k, []))
    .next (if go then s.modProg p (fun g => { g with outputs := g.outputs ++ [⟨bytes, c, k.due, k.aborting, false⟩] }) else s)
  | _ => .next (s.instr c m (fun k _ _ => some (k, [])))

end Sys2Proof.Machine
end

