-- ==== Sys2Proof/Machine/Fabric.lean ====
section
/-! DEFINITION. The fabric's memories (R406). -/
namespace Sys2Proof.Machine
open Sys2Proof

/-- Base of the PCIe outbound region. -/
def obBase : Nat := 0x8000000000

/-- Host memory's address of a fabric address of the outbound region (R406). -/
def State.hostAddr (s : State) (a : Nat) : Nat :=
  (s.reg 3 4 * 2 ^ 32 + s.reg 3 0 + (a - obBase)) % 2 ^ 64

/-- The regions a fabric range may lie in (R406). -/
inductive Region where
  | dram | pool | kiln | cluster | host
  deriving DecidableEq, Repr

/-- The region that holds `n` bytes from `a` on and answers; none raises a bus error (R406, R409). -/
def State.region (s : State) (a n : Nat) : Option Region :=
  let last := a + n - 1
  if n = 0 then none
  else if a < 0x2000000000 then (if s.dramOk a ∧ s.dramOk last then some .dram else none)
  else if poolBase ≤ a ∧ last < poolBase + 0x1000000 then some .pool
  else if kilnBase ≤ a ∧ last < kilnBase + 0xC00000 then (if s.domain 8 || s.domain 9 then some .kiln else none)
  else if clusterBase ≤ a ∧ last < clusterBase + 0x80000 then (if s.domain 5 then some .cluster else none)
  else if obBase ≤ a ∧ last < 0x10000000000 then (if s.domain 1 && !s.hostSel then some .host else none)
  else none

/-- Free bytes. -/
def State.freeBytes (s : State) (n : Nat) : List Byte × State :=
  ((upTo n).map (fun i => BitVec.ofNat 8 (Config.freeValue (s.free + i))), { s with free := s.free + n })

/-- Read bytes over the fabric: their values, and whether a word of them comes poisoned, `errs` naming the bits that DRAM gives
inverted, by line. Host memory is outside the block: its bytes are free. -/
def State.fabRead (s : State) (a n : Nat) (errs : List (Nat × List Nat) := []) : Option (List Byte × Bool) × State :=
  match s.region a n with
  | none => (none, s)
  | some .dram =>
    let (r, s) := (s.touchLines a n false).readLines errs a n
    (some r, s)
  | some .kiln => (some ((upTo n).map (fun i => s.kilnByte (a - kilnBase + i)), false), s)
  | some .host => let (b, s) := s.freeBytes n; (some (b, false), s)
  | some _ => (some (s.read a n, false), s)

/-- Store bytes in DRAM with a stream tag: the lines they touch (R270). A line covered in part is merged, and stays poisoned where it
was (R271). -/
def State.dramPut (s : State) (a : Nat) (bs : List Byte) (tag : Nat) (errs : List (Nat × List Nat) := []) : State :=
  let ls := (upTo ((a + bs.length + 31) / 32 - a / 32)).map (a / 32 + ·)
  let whole (l : Nat) : Bool := decide (a ≤ 32 * l) && decide (32 * l + 32 ≤ a + bs.length)
  let s := (ls.filter (fun l => !whole l)).foldl (fun s l => s.mergeLine errs l) (s.touchLines a bs.length true)
  ls.foldl (fun s l => s.setInfo l (2 * (tag % 8) + (if whole l then 0 else s.lineInfo l % 2))) (s.write a bs)

/-- Write bytes over the fabric. -/
def State.fabWrite (s : State) (a : Nat) (bs : List Byte) (tag : Nat) (errs : List (Nat × List Nat) := []) : Option State :=
  match s.region a bs.length with
  | none => none
  | some .dram => some (s.dramPut a bs tag errs)
  | some .kiln => some (s.kilnPut (a - kilnBase) bs)
  | some .host => some (s.emit (.hostWrite (s.hostAddr a) bs))
  | some _ => some (s.write a bs)

end Sys2Proof.Machine
end

