-- ==== Sys2Proof/Machine/Inflate.lean ====
section
/-! DEFINITION. DEFLATE data (RFC 1951): decoding, as R301 step 3 asks, and encoding (R294, R295). -/
namespace Sys2Proof.Machine
open Sys2Proof

/-- The bits of bytes, each byte's bit 0 first. -/
def bitsOfBytes : List Byte → List Bool
  | [] => []
  | b :: bs => (upTo 8).map (fun i => b.toNat.testBit i) ++ bitsOfBytes bs

/-- Take `n` bits as a number, the first bit lowest. -/
def takeBits (n : Nat) (bs : List Bool) : Option (Nat × List Bool) :=
  if bs.length < n then none
  else some ((bs.take n).foldr (fun b v => bit b + 2 * v) 0, bs.drop n)

/-- A canonical Huffman code: for each length 1 to 15, its symbols in ascending order. -/
def huffOf (lens : List Nat) : List (List Nat) :=
  (upTo 15).map (fun i => (upTo lens.length).filter (fun k => lens.getD k 0 == i + 1))

/-- Whether no more codes are asked for than there are. -/
def huffFits (h : List (List Nat)) : Bool :=
  (h.foldl (fun (acc : Nat × Bool) l => let room := 2 * acc.1; (room - l.length, acc.2 && decide (l.length ≤ room))) (1, true)).2

/-- Decode one symbol: the code so far, and the first code of the present length. -/
def huffGet : List (List Nat) → Nat → Nat → List Bool → Option (Nat × List Bool)
  | [], _, _, _ => none
  | _, _, _, [] => none
  | l :: rest, code, first, b :: bs =>
    let c := 2 * code + bit b
    let f := 2 * first
    if c < f + l.length then (l[c - f]?).map (fun s => (s, bs)) else huffGet rest c (f + l.length) bs

/-- Base and extra bits of length symbols 257 on. -/
def lenTable : List (Nat × Nat) := [
  (3, 0), (4, 0), (5, 0), (6, 0), (7, 0), (8, 0), (9, 0), (10, 0), (11, 1), (13, 1), (15, 1), (17, 1), (19, 2), (23, 2),
  (27, 2), (31, 2), (35, 3), (43, 3), (51, 3), (59, 3), (67, 4), (83, 4), (99, 4), (115, 4), (131, 5), (163, 5), (195, 5),
  (227, 5), (258, 0)]

/-- Base and extra bits of distance symbols. -/
def distTable : List (Nat × Nat) := (upTo 30).map (fun i =>
  if i < 4 then (i + 1, 0) else let e := (i - 2) / 2; ((2 + i % 2) * 2 ^ e + 1, e))

/-- Copy `n` bytes from distance `d` onto the output, held newest first. -/
def copyBack (d : Nat) : Nat → List Byte → List Byte
  | 0, out => out
  | n + 1, out => copyBack d n (out.getD (d - 1) 0 :: out)

/-- The symbols of a compressed block. -/
def inflateSyms (lit dist : List (List Nat)) : Nat → List Bool → List Byte → Option (List Bool × List Byte)
  | 0, _, _ => none
  | fuel + 1, bs, out => do
    let (s, bs) ← huffGet lit 0 0 bs
    if s < 256 then inflateSyms lit dist fuel bs (BitVec.ofNat 8 s :: out)
    else if s = 256 then some (bs, out)
    else do
      let (base, e) ← lenTable[s - 257]?
      let (x, bs) ← takeBits e bs
      let (k, bs) ← huffGet dist 0 0 bs
      let (db, de) ← distTable[k]?
      let (dx, bs) ← takeBits de bs
      if out.length < db + dx then none else inflateSyms lit dist fuel bs (copyBack (db + dx) (base + x) out)

/-- The code lengths of a dynamic block's two codes, newest first. -/
def codeLens (h : List (List Nat)) (total : Nat) : Nat → List Bool → List Nat → Option (List Bool × List Nat)
  | 0, _, _ => none
  | fuel + 1, bs, acc =>
    if acc.length = total then some (bs, acc)
    else if total < acc.length then none
    else do
      let (s, bs) ← huffGet h 0 0 bs
      if s < 16 then codeLens h total fuel bs (s :: acc)
      else if s = 16 then do
        let (n, bs) ← takeBits 2 bs
        let l ← acc.head?
        codeLens h total fuel bs (List.replicate (3 + n) l ++ acc)
      else if s = 17 then do
        let (n, bs) ← takeBits 3 bs
        codeLens h total fuel bs (List.replicate (3 + n) 0 ++ acc)
      else do
        let (n, bs) ← takeBits 7 bs
        codeLens h total fuel bs (List.replicate (11 + n) 0 ++ acc)

/-- The order in which a dynamic block gives the lengths of its code-length code. -/
def clOrder : List Nat := [16, 17, 18, 0, 8, 7, 9, 6, 10, 5, 11, 4, 12, 3, 13, 2, 14, 1, 15]

/-- `n` three-bit lengths. -/
def takeLens : Nat → List Bool → Option (List Nat × List Bool)
  | 0, bs => some ([], bs)
  | n + 1, bs => do
    let (v, bs) ← takeBits 3 bs
    let (l, bs) ← takeLens n bs
    some (v :: l, bs)

/-- The two codes of a dynamic block. -/
def dynCodes (bs : List Bool) : Option (List (List Nat) × List (List Nat) × List Bool) := do
  let (hl, bs) ← takeBits 5 bs
  let (hd, bs) ← takeBits 5 bs
  let (hc, bs) ← takeBits 4 bs
  if 29 < hl ∨ 29 < hd then none
  else do
    let (cl, bs) ← takeLens (hc + 4) bs
    let lens := (upTo 19).map (fun k => match clOrder.idxOf? k with
      | some i => cl.getD i 0
      | none => 0)
    let h := huffOf lens
    if huffFits h then do
      let total := hl + 257 + hd + 1
      let (bs, acc) ← codeLens h total (total + 1) bs []
      let l := acc.reverse
      let lit := huffOf (l.take (hl + 257))
      let dist := huffOf (l.drop (hl + 257))
      if huffFits lit && huffFits dist then some (lit, dist, bs) else none
    else none

/-- The fixed literal code. -/
def fixedLit : List (List Nat) :=
  huffOf ((upTo 288).map (fun k => if k < 144 then 8 else if k < 256 then 9 else if k < 280 then 7 else 8))

/-- The fixed distance code. -/
def fixedDist : List (List Nat) := huffOf (List.replicate 32 5)

/-- Whole bytes from bits. -/
def bytesOfBits : Nat → List Bool → List Byte
  | 0, _ => []
  | n + 1, bs => BitVec.ofNat 8 ((bs.take 8).foldr (fun b v => bit b + 2 * v) 0) :: bytesOfBits n (bs.drop 8)

/-- The blocks of a stream. The stream being whole bytes, a stored block is aligned by what is left of it. With `strict` no block
may be stored or give more than 64 KiB, as the compression engines keep to (R295). -/
def inflateBlocks (strict : Bool) : Nat → List Bool → List Byte → Option (List Byte)
  | 0, _, _ => none
  | fuel + 1, bs, out => do
    let (fin, bs) ← takeBits 1 bs
    let (kind, bs) ← takeBits 2 bs
    let r : Option (List Bool × List Byte) := match kind with
      | 0 =>
        let bs := bs.drop (bs.length % 8)
        if strict then none else match takeBits 16 bs with
        | none => none
        | some (n, bs) => match takeBits 16 bs with
          | none => none
          | some (m, bs) =>
            if n + m ≠ 0xFFFF ∨ bs.length < 8 * n then none
            else some (bs.drop (8 * n), (bytesOfBits n bs).reverse ++ out)
      | 1 => inflateSyms fixedLit fixedDist (bs.length + 1) bs out
      | 2 => match dynCodes bs with
        | none => none
        | some (lit, dist, bs) => inflateSyms lit dist (bs.length + 1) bs out
      | _ => none
    let (bs, got) ← r
    if strict ∧ out.length + 65536 < got.length then none
    else if fin = 1 then some got.reverse else inflateBlocks strict fuel bs got

/-- The original bytes of a DEFLATE stream; none where it is malformed. -/
def inflate (p : List Byte) : Option (List Byte) :=
  let bs := bitsOfBytes p
  inflateBlocks false (bs.length + 1) bs []

/-- The same of a stream such as the compression engines make (R295). -/
def inflateStrict (p : List Byte) : Option (List Byte) :=
  let bs := bitsOfBytes p
  inflateBlocks true (bs.length + 1) bs []

/-! ## Encoding (R294, R295) -/

/-- A number's `n` bits, the highest first, as Huffman codes go out. -/
def codeBits (n v : Nat) : List Bool := (upTo n).map (fun i => v.testBit (n - 1 - i))

/-- Blocks of literals in the fixed code, 64 KiB each. -/
def literalBlocks : Nat → List Byte → List Bool
  | 0, _ => []
  | fuel + 1, x =>
    let rest := x.drop 65536
    [rest.isEmpty, true, false]
      ++ (x.take 65536).flatMap (fun b => if b.toNat < 144 then codeBits 8 (0x30 + b.toNat) else codeBits 9 (0x190 + b.toNat - 144))
      ++ List.replicate 7 false ++ (if rest.isEmpty then [] else literalBlocks fuel rest)

/-- A symbol of a compressed block: a literal, or a copy of a length from a distance. -/
inductive Tok where
  | lit
  | copy (len dist : Nat)
  deriving DecidableEq, Repr

/-- The symbols of a compressed block, newest first. -/
def blockToks (lit dist : List (List Nat)) : Nat → List Bool → List Tok → Option (List Bool × List Tok)
  | 0, _, _ => none
  | fuel + 1, bs, out => do
    let (s, bs) ← huffGet lit 0 0 bs
    if s < 256 then blockToks lit dist fuel bs (.lit :: out)
    else if s = 256 then some (bs, out)
    else do
      let (base, e) ← lenTable[s - 257]?
      let (x, bs) ← takeBits e bs
      let (k, bs) ← huffGet dist 0 0 bs
      let (db, de) ← distTable[k]?
      let (dx, bs) ← takeBits de bs
      blockToks lit dist fuel bs (.copy (base + x) (db + dx) :: out)

/-- The blocks of a stream without stored ones: of each whether its code is dynamic, the bits its symbols take, and its symbols. -/
def streamToks : Nat → List Bool → Option (List (Bool × Nat × List Tok))
  | 0, _ => none
  | fuel + 1, bs => do
    let (fin, bs) ← takeBits 1 bs
    let (kind, bs) ← takeBits 2 bs
    let (lit, dist, body) ← if kind = 1 then some (fixedLit, fixedDist, bs) else if kind = 2 then dynCodes bs else none
    let (rest, ts) ← blockToks lit dist (body.length + 1) body []
    let b := (decide (kind = 2), bs.length - rest.length, ts.reverse)
    if fin = 1 then some [b] else (streamToks fuel rest).map (b :: ·)

/-- The table of R295: chain depth, lazy matching, the match length that ends the search. -/
def levelRow (level : Nat) : Nat × Bool × Nat :=
  [(4, false, 16), (8, false, 32), (16, false, 64), (32, true, 64), (64, true, 128), (128, true, 128), (256, true, 258),
    (1024, true, 258), (4096, true, 258)].getD (level - 1) (4, false, 16)

/-- How many bytes from `p` and from `q` on agree, at most `n`. -/
def agree (a : Array Byte) (q p : Nat) : Nat → Nat
  | 0 => 0
  | n + 1 => if p < a.size ∧ a.getD q 0 = a.getD p 0 then agree a (q + 1) (p + 1) n + 1 else 0

/-- What the search at `p` looks at (R295): the distances of the chain within the window, nearest first, to the depth of the level or
to the first match long enough, each with its match. -/
def searchAt (a : Array Byte) (row : Nat × Bool × Nat) (p : Nat) : List (Nat × Nat) :=
  let chain := ((upTo (min p 32768)).map (fun i => (i + 1, agree a (p - (i + 1)) p 258))).filter (fun c => 3 ≤ c.2)
  let l := chain.take row.1
  match l.findIdx? (fun c => decide (row.2.2 ≤ c.2)) with
  | some i => l.take (i + 1)
  | none => l

/-- The longest match the search at `p` finds; 0 where there is none. -/
def bestAt (a : Array Byte) (row : Nat × Bool × Nat) (p : Nat) : Nat := (searchAt a row p).foldl (fun m c => max m c.2) 0

/-- Symbols keep to R295 from position `p` on: a copy is the longest match found; a literal stands where none is found or, with lazy
matching, where the next position gives a longer one. -/
def toksOk (a : Array Byte) (row : Nat × Bool × Nat) : Nat → List Tok → Bool
  | _, [] => true
  | p, .lit :: ts => (bestAt a row p == 0 || (row.2.1 && decide (bestAt a row p < bestAt a row (p + 1)))) && toksOk a row (p + 1) ts
  | p, .copy n d :: ts => n == bestAt a row p && (searchAt a row p).contains (d, n) && toksOk a row (p + n) ts

/-- Bits of a symbol in the fixed code at the position `p`. -/
def fixedBits (a : Array Byte) (p : Nat) : Tok → Nat
  | .lit => if (a.getD p 0).toNat < 144 then 8 else 9
  | .copy n d =>
    let i := (lenTable.filter (fun e => decide (e.1 ≤ n))).length - 1
    let k := (distTable.filter (fun e => decide (e.1 ≤ d))).length - 1
    (if i < 23 then 7 else 8) + (lenTable.getD i (0, 0)).2 + 5 + (distTable.getD k (0, 0)).2

/-- Bits of a block's symbols in the fixed code, its end included, from a position on, and the position behind them. -/
def fixedSize (a : Array Byte) (p : Nat) (ts : List Tok) : Nat × Nat :=
  let r := ts.foldl (fun (x : Nat × Nat) t => (x.1 + fixedBits a x.2 t, x.2 + (match t with
    | .lit => 1
    | .copy n _ => n))) (0, p)
  (r.1 + 7, r.2)

/-- A stream keeps to R295 for its input at a level: its matches are those of the search, and no dynamic block is longer than the
fixed code would make it. How a dynamic code is built is not given, so neither is the length a fixed block must beat (log 10). -/
def deflateOk (x : List Byte) (level : Nat) (p : List Byte) : Bool :=
  let a := x.toArray
  let bs := bitsOfBytes p
  match streamToks (bs.length + 1) bs with
  | none => false
  | some bl =>
    toksOk a (levelRow level) 0 (bl.flatMap (fun b => b.2.2))
      && (bl.foldl (fun (m : Bool × Nat) b =>
        let f := fixedSize a m.2 b.2.2
        (m.1 && (!b.1 || decide (b.2.1 ≤ f.1)), f.2)) (true, 0)).1

/-- The DEFLATE payload of bytes at a level (R295). What R295 leaves to the engine is free: any stream that decodes to the bytes and
keeps to the rule may come (log 10); where Config.deflate is none, literals stand for it. -/
def deflateOf (x : List Byte) (level : Nat) : List Byte :=
  let p := Config.deflate x level
  if inflateStrict p = some x ∧ deflateOk x level p then p
  else let bs := literalBlocks (x.length + 1) x
    bytesOfBits ((bs.length + 7) / 8) bs

end Sys2Proof.Machine
end

