-- ==== Sys2Proof/Machine/Cask.lean ====
section
/-! DEFINITION. The compression and decompression engines (spec/11_cask_compression.md). -/
namespace Sys2Proof.Machine
open Sys2Proof

/-! ## Containers (R296–R300) -/

/-- The delta pre-filter (R296): 16-bit words by their differences; an odd last byte passes. -/
def deltaFilter : Nat → List Byte → List Byte
  | prev, lo :: hi :: rest =>
    let x := lo.toNat + 256 * hi.toNat
    leBytes 2 ((x + 65536 - prev) % 65536) ++ deltaFilter x rest
  | _, l => l

/-- The filter's inverse (R301 step 5). -/
def deltaInverse : Nat → List Byte → List Byte
  | prev, lo :: hi :: rest =>
    let x := (lo.toNat + 256 * hi.toNat + prev) % 65536
    leBytes 2 x ++ deltaInverse x rest
  | _, l => l

/-- A container (R299): header, payload, zero bytes to a multiple of 32. -/
def container (raw delta final poisoned : Bool) (level log2 : Nat) (orig payload : List Byte) (seq : Nat) : List Byte :=
  let h := beBytes 4 0x4341534B
    ++ [1, BitVec.ofNat 8 (bit raw + 2 * bit delta + 4 * bit final + 8 * bit poisoned), BitVec.ofNat 8 level, BitVec.ofNat 8 log2]
    ++ beBytes 4 orig.length ++ beBytes 4 (crc32c orig) ++ beBytes 4 payload.length ++ beBytes 4 seq ++ zeros 4
  padTo 32 (h ++ beBytes 4 (crc32c h) ++ payload)

/-- The container of a chunk (R294–R298), and whether it is raw-stored. -/
def makeContainer (level log2 : Nat) (delta final poisoned : Bool) (seq : Nat) (chunk : List Byte) : List Byte × Bool :=
  let p := deflateOf (if delta then deltaFilter 0 chunk else chunk) level
  if p.length < chunk.length then (container false delta final poisoned level log2 chunk p seq, false)
  else (container true false final poisoned level log2 chunk chunk seq, true)

/-! ## Jobs (R290–R293, R303, R304) -/

def State.modEng (s : State) (e : Nat) (f : CaskEng → CaskEng) : State :=
  { s with cask := { s.cask with engs := modAt s.cask.engs e f } }

/-- An engine. -/
def State.eng (s : State) (e : Nat) : CaskEng := s.cask.engs.getD e {}

/-- Engine `e` runs as initiator 27 + e in window 0x30 + e (R290). -/
def caskInit (e : Nat) : Nat := 27 + e

/-- The engine is powered and enabled (R306). -/
def State.caskOn (s : State) (e : Nat) : Bool := s.domain 1 && decide (e < 3) && bitOf (s.reg (0x30 + e) 0) 0

/-- CASK_SUBMIT_LO is written (R290). -/
def State.caskSubmit (s : State) (e v : Nat) : State :=
  if 16 ≤ (s.eng e).queue.length then s.raise (stCask e) [4]
  else s.modEng e (fun g => { g with queue := g.queue ++ [s.reg (0x30 + e) 0xC % 256 * 2 ^ 32 + v / 64 % 2 ^ 26 * 64] })

/-- Write a descriptor's result: status, info and the counts (R291, R293). -/
def State.caskWriteBack (s : State) (e addr status info seq consumed produced : Nat) (errs : List (Nat × List Nat) := []) : State :=
  let b := [BitVec.ofNat 8 status, BitVec.ofNat 8 info] ++ zeros 2 ++ leBytes 4 seq ++ leBytes 8 consumed ++ leBytes 8 produced
  match s.fabWrite (addr + 40) b 0 errs with
  | some s => s
  | none => s.busError (caskInit e) (addr + 40) true

/-- A descriptor as read (R293); without the resume flag, or with zero counts, a fresh start (R304). -/
def caskParse (addr : Nat) (d : List Byte) : CaskJob :=
  let f (o n : Nat) : Nat := leNat ((d.drop o).take n)
  let resume := bitOf (f 34 1) 1
  { addr := addr, src := f 0 8, len := f 8 8, dst := f 16 8, cap := f 24 8, op := f 32 1, level := f 33 1, flags := f 34 1
    log2 := f 35 1, seq := if resume then f 44 4 else 0, consumed := if resume then f 48 8 else 0
    produced := if resume ∧ (f 44 4 ≠ 0 ∨ f 48 8 ≠ 0) then f 56 8 else 0 }

/-- CASK_JOB_START: the engine takes the head of its queue (R291). A descriptor it cannot read ends the job there. -/
def execCaskJobStart (e : Nat) (s : State) : Host.Outcome State Fault Refusal :=
  match (s.eng e).queue with
  | [] => .next s
  | a :: rest =>
    if s.caskOn e ∧ (s.eng e).job.isNone then
      let s := s.modEng e (fun g => { g with queue := rest })
      match s.fabRead a 64 with
      | (none, s) => .next (s.busError (caskInit e) a false)
      | (some (d, _), s) =>
        let s := s.modEng e (fun g => { g with job := some (caskParse a d) })
        .next (match s.fabWrite (a + 40) [0xFE] 0 with
          | some s => s
          | none => s.busError (caskInit e) (a + 40) true)
    else .next s

/-- Progress of a job: containers written in this run, input and output bytes of this run, Info bits, and the bytes already
put at the destination. -/
structure CaskRun where
  n : Nat := 0
  inp : Nat := 0
  outp : Nat := 0
  poison : Bool := false
  raw : Bool := false
  rawN : Nat := 0
  deriving DecidableEq, Repr

/-- The job's descriptor is bad (R293); the decompression engine does nothing but decompress and the others nothing but
compress (log 51). -/
def CaskJob.bad (j : CaskJob) (e : Nat) : Bool :=
  j.op != (if e = 2 then 1 else 0) || j.dst % 32 != 0
    || (j.op == 0 && (j.level < 1 || 9 < j.level || j.log2 < 16 || 24 < j.log2))

/-- Compression from a job's present position (R294–R298, R303), up to `fuel` containers: the state, the progress, and the
status it stopped with. `errs`: the bits that DRAM gives inverted, by line (R298). -/
def State.caskCompress (e : Nat) (j : CaskJob) (errs : List (Nat × List Nat)) : Nat → State → CaskRun → State × CaskRun × Nat
  | 0, s, r => (s, r, 2)
  | fuel + 1, s, r =>
    let pos := j.consumed + r.inp
    if j.len ≤ pos then (s, r, 0)
    else
      let n := min (2 ^ j.log2) (j.len - pos)
      if j.cap < r.outp + 32 + ceilTo 32 n then (s, r, 1)
      else match s.fabRead (j.src + pos) n errs with
      | (none, s) => (s.busError (caskInit e) (j.src + pos) false, r, 3)
      | (some (chunk, poison), s) =>
        let fin := bitOf j.flags 3 && decide (j.len ≤ pos + n)
        let (c, raw) := makeContainer j.level j.log2 (bitOf j.flags 0) fin poison (j.seq + r.n) chunk
        match s.fabWrite (j.dst + r.outp) c 0 with
        | none => (s.busError (caskInit e) (j.dst + r.outp) true, { r with poison := r.poison || poison }, 4)
        | some s =>
          State.caskCompress e j errs fuel s
            { n := r.n + 1, inp := r.inp + n, outp := r.outp + c.length, poison := r.poison || poison
              raw := r.raw || raw, rawN := r.rawN + bit raw }

/-- What a container decodes to (R301 steps 3 to 6), or the status it stops with. -/
def caskDecode (hdr payload : List Byte) : Except Nat (List Byte) :=
  let fl := (hdr.getD 5 0).toNat
  let orig := beNat ((hdr.drop 8).take 4)
  match (if bitOf fl 0 then some payload else inflate payload) with
  | none => .error 0x12
  | some d =>
    if d.length ≠ orig then .error 0x13
    else
      let d := if bitOf fl 1 then deltaInverse 0 d else d
      if crc32c d ≠ beNat ((hdr.drop 12).take 4) then .error 0x14 else .ok d

/-- Decompression from a job's present position (R301–R303), up to `fuel` containers. After a stop at steps 3 to 6 the
destination beyond what is counted holds free bytes (R302). -/
def State.caskDecompress (e : Nat) (j : CaskJob) (errs : List (Nat × List Nat)) : Nat → State → CaskRun → State × CaskRun × Nat
  | 0, s, r => (s, r, 2)
  | fuel + 1, s, r =>
    let pos := j.consumed + r.inp
    if j.len ≤ pos then (s, r, 0)
    else if j.len < pos + 32 then (s, r, 0x10)
    else match s.fabRead (j.src + pos) 32 errs with
    | (none, s) => (s.busError (caskInit e) (j.src + pos) false, r, 3)
    | (some (h, poison), s) =>
      let r := { r with poison := r.poison || poison }
      let fl := (h.getD 5 0).toNat
      let orig := beNat ((h.drop 8).take 4)
      let clen := beNat ((h.drop 16).take 4)
      if beNat (h.take 4) ≠ 0x4341534B ∨ (h.getD 4 0).toNat ≠ 1 ∨ fl / 16 ≠ 0 ∨ beNat ((h.drop 24).take 4) ≠ 0 then (s, r, 0x10)
      else if crc32c (h.take 28) ≠ beNat (h.drop 28) then (s, r, 0x11)
      else if j.cap < r.outp + orig then (s, r, 1)
      else if j.len < pos + 32 + clen then (s, r, 0x12)
      else match (if clen = 0 then (some ([], false), s) else s.fabRead (j.src + pos + 32) clen errs) with
      | (none, s) => (s.busError (caskInit e) (j.src + pos + 32) false, r, 3)
      | (some (p, poison), s) =>
        let r := { r with poison := r.poison || poison || bitOf fl 3 }
        match caskDecode h p with
        | .error c =>
          let (b, s) := s.freeBytes orig
          ((s.fabWrite (j.dst + r.outp) b 0).getD s, r, c)
        | .ok d =>
          match (if orig = 0 then some s else s.fabWrite (j.dst + r.outp) d 0) with
          | none => (s.busError (caskInit e) (j.dst + r.outp) true, r, 4)
          | some s =>
            let r := { r with n := r.n + 1, inp := r.inp + ceilTo 32 (32 + clen), outp := r.outp + orig
                              raw := r.raw || bitOf fl 0, rawN := r.rawN }
            if bitOf fl 2 then (s, r, 0) else State.caskDecompress e j errs fuel s r

/-- Run a job over at most `fuel` containers. -/
def State.caskRun (s : State) (e fuel : Nat) (errs : List (Nat × List Nat)) (j : CaskJob) : State × CaskRun × Nat :=
  if j.bad e then (s, {}, 5)
  else if e = 2 then State.caskDecompress e j errs fuel s {} else State.caskCompress e j errs fuel s {}

/-- Containers a job can hold at most. -/
def CaskJob.fuel (j : CaskJob) : Nat := j.len / (if j.op = 0 then 2 ^ 16 else 32) + 2

/-- The STAT bit of a status (R306). -/
def caskStatBit (st : Nat) : Nat := if st ≤ 2 then st else 3

/-! ## Firmware's export jobs in the engines (R255, R257, R292, R298) -/

def State.cap (s : State) (d : Nat) : Capture := s.caps.getD d {}

def State.modCap (s : State) (d : Nat) (f : Capture → Capture) : State := { s with caps := modAt s.caps d f }

/-- Firmware's work area for exports, in the 4 GiB that R238 reserves for it: the part below or above the Cellar region,
whichever holds it (DESIGN CHOICE, log 56). -/
def State.exportArea (s : State) : Nat :=
  let base := Config.cellarBase % 4097
  (if 2048 ≤ base then 0 else base + s.cellarMib) * 2 ^ 20

/-- Descriptor `n` of 32 in the work area, and the 32 MiB its containers go to. -/
def State.exportDesc (s : State) (n : Nat) : Nat := s.exportArea + 64 * n
def State.exportBuf (s : State) (n : Nat) : Nat := s.exportArea + (n + 1) * 2 ^ 25

/-- Bytes 0 to 39 of an export job's descriptor (R293): the segment's entries to the job's buffer. -/
def State.exportFields (s : State) (x : ExportJob) (n : Nat) : List Byte :=
  let k := s.cap x.d
  let r := (s.port x.q).cel.rings.getD x.c {}
  let es := ((lookup x.seg r.segs).getD {}).entries
  leBytes 8 (r.base + x.seg * r.segBytes) ++ leBytes 8 ((es.getLast?.map (fun e => e.ofs + e.size)).getD 0)
    ++ leBytes 8 (s.exportBuf n) ++ leBytes 8 (2 ^ 25)
    ++ [0, BitVec.ofNat 8 k.level, BitVec.ofNat 8 (bit k.delta + 2 * bit x.slot.isSome + 8), BitVec.ofNat 8 k.log2] ++ zeros 4

/-- Change firmware's job `i`. -/
def State.modExport (s : State) (i : Nat) (f : ExportJob → ExportJob) : State :=
  { s with cask := { s.cask with jobs := modAt s.cask.jobs i f } }

/-- Firmware submits its job `i`, new or to be resumed (R304), to the compression engine with fewer queued jobs, engine 0 on a
tie (R292), where that has room and a descriptor is free. It enables the engine (DESIGN CHOICE, log 56). -/
def State.exportSubmit (s : State) (i : Nat) : State :=
  match s.cask.jobs[i]? with
  | none => s
  | some x =>
    let e := if (s.eng 1).queue.length < (s.eng 0).queue.length then 1 else 0
    let used := s.cask.jobs.filterMap (·.slot)
    match x.slot.or ((upTo 32).find? (fun n => !used.contains n)) with
    | some n =>
      if x.eng.isSome ∨ 16 ≤ (s.eng e).queue.length then s
      else
        let a := s.exportDesc n
        let b := s.exportFields x n
        match (if x.slot.isSome then s.fabWrite (a + 16) (b.drop 16) 0 else s.fabWrite a (b ++ zeros 24) 0) with
        | some s =>
          let s := (s.modExport i (fun x => { x with eng := some e, slot := some n })).setRegBit (0x30 + e) 0 0 true
          (s.setReg (0x30 + e) 0xC (a / 2 ^ 32)).caskSubmit e (a % 2 ^ 32)
        | none => (s.busError 0 a true).modCap x.d (fun k => { k with failed := true })
    | none => s

/-- Firmware submits what it can. -/
def State.exportPump (s : State) : State := (upTo s.cask.jobs.length).foldl State.exportSubmit s

/-- Deliver an item of an export: to PCIe through the export DMA, or to the trunk as class 4 traffic (R255). -/
def State.exportSend (s : State) (job : Nat) (q : Port) (type time launch : Nat) (b : List Byte) : State :=
  if job = 3 then
    if s.chain.iAct ∨ s.chain.acting = 0 then s
    else ((pieces 1484 (b.length + 1) b).foldl
      (fun (a : Nat × State) p => (a.1 + 1, a.2.originate 4 0x41 s.chain.acting [Port.num q, a.1] p)) (0, s)).2
  else s.toExport ⟨6, q, type, time, launch, b, job == 1⟩

/-- The containers in a run of bytes (R299), up to `fuel` of them. -/
def containersOf : Nat → List Byte → List (List Byte)
  | 0, _ => []
  | fuel + 1, b =>
    if b.isEmpty then [] else
      let n := ceilTo 32 (32 + beNat ((b.drop 16).take 4))
      b.take n :: containersOf fuel (b.drop n)

/-- Firmware takes up the end of a job of its own: the containers go where the export sends them, those that carry the poisoned
flag into its completion report by ring, segment and Sequence; a job that ran out of space is resumed, its buffer being
free again, one that did not end well ends the export's submissions (R255, R292, R298, R304). -/
def State.exportCollect (s : State) (e : Nat) (j : CaskJob) (outp st : Nat) : State :=
  match s.cask.jobs.findIdx? (fun x => x.eng == some e && (x.slot.map s.exportDesc) == some j.addr) with
  | none => s
  | some i =>
    match s.cask.jobs[i]? with
    | none => s
    | some x =>
      let k := s.cap x.d
      let r := (s.port x.q).cel.rings.getD x.c {}
      let e0 := ((lookup x.seg r.segs).getD {}).entries.head?
      let cs := containersOf (outp / 32) (s.read j.dst outp)
      let s := cs.foldl (fun s b =>
        s.exportSend k.job x.q 0x41 ((e0.map (·.time)).getD 0) ((e0.map (·.launch)).getD 0) b) s
      let bad := (cs.filter (fun b => bitOf (b.getD 5 0).toNat 3)).map (fun b =>
        (x.c + 128 * Port.num x.q, x.seg, beNat ((b.drop 20).take 4)))
      let s := s.modCap x.d (fun k => { k with report := k.report ++ bad, failed := k.failed || (st != 0 && st != 1) })
      let keep (y : ExportJob) : Bool := y.d != x.d || y.eng.isSome || st == 0 || st == 1
      let jobs := if st = 1 then modAt s.cask.jobs i (fun x => { x with eng := none }) else s.cask.jobs.eraseIdx i
      ({ s with cask := { s.cask with jobs := jobs.filter keep } }).exportPump

/-! ## The end of a job -/

/-- A job ends with its status (R291): the counts go back into the descriptor, then the bit, then the interrupt if asked, which stays
asserted while the bit is set (R306; log 176); where it is firmware's, firmware takes it up. -/
def State.caskEnd (s : State) (e : Nat) (j : CaskJob) (r : CaskRun) (st : Nat) (errs : List (Nat × List Nat)) : State :=
  let s := s.modEng e (fun g => { g with job := none })
  let s := s.caskWriteBack e j.addr st (bit r.poison + 2 * bit r.raw) (j.seq + r.n) (j.consumed + r.inp) (j.produced + r.outp) errs
  let k := s.cask
  let s := { s with cask := { k with
    written := if e = 2 then k.written else (k.written + r.n) % 2 ^ 64
    raw := satAdd 0xFFFFFFFF k.raw r.rawN
    noSpace := if st = 1 then satAdd 0xFFFFFFFF k.noSpace 1 else k.noSpace
    decErrors := if 0x10 ≤ st ∧ st ≤ 0x14 then satAdd 0xFFFFFFFF k.decErrors 1 else k.decErrors } }
  let old := s
  let b := caskStatBit st
  let s := s.modEng e (fun g => { g with asked := (g.asked &&& (old.stat (stCask e)).mask) ||| (bit (bitOf j.flags 2) * 2 ^ b) })
  let s := (s.setStat (stCask e) ((s.stat (stCask e)).raise [b])).afterRise old
  s.exportCollect e j r.outp st

/-- CASK_JOB_END: the running job ends of itself (R291, R293). `errs`: the bits that DRAM gave inverted in its reads, by line
(R298). -/
def execCaskJobEnd (e : Nat) (errs : List (Nat × List Nat)) (s : State) : Host.Outcome State Fault Refusal :=
  match (s.eng e).job with
  | none => .next s
  | some j =>
    if s.caskOn e then
      let (s, r, st) := s.caskRun e j.fuel errs j
      .next (s.caskEnd e j r st errs)
    else .next s

/-- The running job stops with status 0x02, after a free number of whole containers (R292); what its reads met is free (log 174). -/
def State.caskAbort (s : State) (e : Nat) : State :=
  match (s.eng e).job with
  | none => s
  | some j =>
    let (f, s) := s.takeFree
    let errs := Config.readErrs s.free
    let (s, r, _) := s.caskRun e (f % j.fuel) errs j
    s.caskEnd e j r 2 errs

/-- Queued jobs leave their queue, written back with status 0x02 and zero counts (R292). -/
def State.caskDequeue (s : State) (e : Nat) (f : Nat → Bool) : State :=
  let q := (s.eng e).queue.filter f
  let s := s.modEng e (fun g => { g with queue := g.queue.filter (fun a => !f a) })
  (q.foldl (fun s a => s.caskWriteBack e a 2 0 0 0 0) s).raiseIf (!q.isEmpty) (stCask e) 2

/-- Clearing ENABLE aborts the running job and flushes the queue (R292); an export whose jobs are flushed has failed. -/
def State.caskFlush (s : State) (e : Nat) : State :=
  let s := (s.caskAbort e).caskDequeue e (fun _ => true)
  let gone := (s.cask.jobs.filter (fun x => x.eng == some e)).map (·.d)
  let s : State := { s with cask := { s.cask with jobs := s.cask.jobs.filter (fun x => !gone.contains x.d || (x.eng.isSome && x.eng != some e)) } }
  (gone.foldl (fun s d => s.modCap d (fun k => { k with failed := true })) s).setRegBit (0x30 + e) 0 0 false

/-- Firmware aborts the jobs of an export (R292). -/
def State.exportAbort (s : State) (d : Nat) : State :=
  let s : State := { s with cask := { s.cask with jobs := s.cask.jobs.filter (fun x => x.d != d || x.eng.isSome) } }
  let mine (s : State) (e : Nat) : List Nat := (s.cask.jobs.filter (fun x => x.d == d && x.eng == some e)).filterMap (fun x => x.slot.map s.exportDesc)
  let s := [0, 1].foldl (fun s e => s.caskDequeue e (fun a => (mine s e).contains a)) s
  let s := [0, 1].foldl (fun s e =>
    if ((s.eng e).job.map (fun j => (mine s e).contains j.addr)).getD false then s.caskAbort e else s) s
  ({ s with cask := { s.cask with jobs := s.cask.jobs.filter (fun x => x.d != d) } }).exportPump

end Sys2Proof.Machine
end

