-- ==== Sys2Proof/Machine/Cellar.lean ====
section
/-! DEFINITION. The Cellar: rings, plan check, triggers, captures, exports (spec/09_cellar_capture.md). -/
namespace Sys2Proof.Machine
open Sys2Proof

/-! ## The write budget and the Cellar check (R241, R242) -/

/-- A rate as a fraction. -/
structure Frac where
  n : Nat
  d : Nat
  deriving DecidableEq, Repr

/-- Sum of fractions. -/
def Frac.add (a b : Frac) : Frac := ⟨a.n * b.d + b.n * a.d, a.d * b.d⟩

/-- A kind of record of a ring: records per second, and the record's bytes. -/
structure RecKind where
  rate : Frac
  bytes : Nat
  deriving DecidableEq, Repr

/-- Bytes of a ring entry (R239). -/
def entrySize (bytes : Nat) : Nat := 32 + ceilTo 32 bytes

/-- The records each ring of a port receives under a view of the plan (R237, R241). -/
def ringKinds (get : Nat → Nat → Nat) (q : Port) (c : Nat) : List RecKind :=
  let v := planOf get q
  let sw (i : Nat) : Nat := get (portIndex q 0x3100) i
  let op (i : Nat) : Nat := get (portIndex q 0x2100) i
  let kn (i : Nat) : Nat := get (portIndex q 0x4010) i
  let launches : Frac := ⟨1000 * v.m, max 1 v.p⟩
  let tides : Frac := ⟨1000, max 1 v.p⟩
  let slots := (slotsOf v.mask).length
  match c with
  | 0 =>
    let dec (ch : Nat) : List RecKind :=
      let d (i : Nat) : Nat := get (decIndex q ch) i
      if d 1 = 1 ∧ bitOf (d 6) 0 then [⟨⟨1000 * v.m, max 1 v.p * presetD (d 2)⟩, 32 + 4 * d 5⟩] else []
    if v.n = 0 then [] else
      [⟨launches, 32 + ceilTo 4 (2 * v.n)⟩, ⟨tides, 32 + 4 * v.n⟩]
        ++ (if sw 0x11 = 1 then [⟨launches, 32 + ceilTo 4 (ceilDiv v.n 2)⟩] else []) ++ dec 0 ++ dec 1
  | 1 =>
    let l (i : Nat) : Nat := get (portIndex q 0x3130) i
    if l 1 = 1 ∧ bitOf (l 6) 0 then [⟨tides, 32 + ceilTo 4 (ceilDiv v.n (max 1 (l 3)) * (2 + 2 * ones8 (l 2)))⟩] else []
  | 2 =>
    let m16 := kn 5 == 16
    let shot : Frac := ⟨1000 * v.m, max 1 v.p * max 1 slots * 2 ^ kn 6⟩
    let bins := kilnBins m16 v.w
    if kn 1 = 1 then
      (if bitOf (kn 0xC) 0 then [⟨shot, 48 + 12 * bins⟩] else [])
        ++ (if bitOf (kn 0xC) 1 then [⟨shot, 48 + 4 * bins * kilnCh m16 + 4 * kilnCh m16⟩] else [])
    else []
  | 3 =>
    let on := ((slotsOf v.mask).filter (fun k => bitOf (op 0x68) k)).length
    if op 0x67 = 1 then [⟨⟨1000 * v.m * on, max 1 v.p * max 1 slots⟩, 32 + 8 * (v.w + v.c - v.b)⟩] else []
  | _ =>
    (if get (portIndex q 0x6010) 1 = 1 then [⟨tides, 16416⟩] else [])
      ++ (if get (portIndex q 0x6030) 1 = 1 then [⟨tides, 16416⟩] else [])

/-- Largest entry a ring can receive (R241): of its records, or a marker, of at most 32 bytes (R240, R243, R250). -/
def ringMax (ks : List RecKind) : Nat := ks.foldl (fun m k => max m (entrySize k.bytes)) (entrySize 32)

/-- RingSize and SegmentSize of ring `c`, MiB. -/
def ringSize (get : Nat → Nat → Nat) (q : Port) (c : Nat) : Nat := get (portIndex q 0x5010) (2 * c + 1)
def segSize (get : Nat → Nat → Nat) (q : Port) (c : Nat) : Nat := get (portIndex q 0x5010) (2 * c + 2)

/-- The write rate of a ring, bytes/s (R241). -/
def ringRate (get : Nat → Nat → Nat) (q : Port) (c : Nat) : Frac :=
  let ks := ringKinds get q c
  let base := ks.foldl (fun (a : Frac) k => a.add ⟨k.rate.n * entrySize k.bytes, k.rate.d⟩) ⟨if c = 4 then 1000000 else 0, 1⟩
  let seg := max 1 (segSize get q c) * 2 ^ 20
  ⟨base.n * (seg + ringMax ks), base.d * seg⟩

/-- The write rate of a port's rings; 0 where the port takes no part. -/
def portRate (get : Nat → Nat → Nat) (q : Port) : Frac :=
  (upTo 5).foldl (fun (a : Frac) c => if c = 4 ∧ ringSize get q 4 = 0 then a else a.add (ringRate get q c)) ⟨0, 1⟩

/-- A rate in whole bytes/s, rounded up. -/
def Frac.ceil (a : Frac) : Nat := ceilDiv a.n (max 1 a.d)

/-- The ports a descriptor names (R249): 0 A, 1 B, 2 both. -/
def capturePorts (v : Nat) : List Port := if v = 0 then [.a] else if v = 1 then [.b] else [.a, .b]

/-- Object index of a descriptor. -/
def capIndex (d : Nat) : Nat := 0x5100 + d

/-- Segments the window of a descriptor could need in a ring (R242 code 5): its launches over the launch rate of port `p`,
times the ring's rate. -/
def windowSegs (get : Nat → Nat → Nat) (p q : Port) (c launches : Nat) : Nat :=
  let v := planOf get p
  let r := ringRate get q c
  let seg := max 1 (segSize get q c) * 2 ^ 20
  -- launches / (1000 M / P) × rate
  ceilDiv (launches * max 1 v.p * r.n) (max 1 (1000 * v.m * r.d * seg)) + 1

/-- A port of the plan check: its PORTEN strap is high. -/
def State.portsOn (s : State) : List Port := bothPorts.filter (fun q => s.portEn q)

/-- CellarPlanResult for a port under a view (R242). -/
def State.cellarCode (s : State) (get : Nat → Nat → Nat) (q : Port) : Nat :=
  let seg (r : Port) (c : Nat) : Nat := segSize get r c
  let size (r : Port) (c : Nat) : Nat := ringSize get r c
  let triggers := (upTo 16).filter (fun d => get (capIndex d) 2 != 0)
  let needs (c : Nat) : Bool := !(ringKinds get q c).isEmpty
    || (c == 4 && triggers.any (fun d => (capturePorts (get (capIndex d) 3)).contains q))
  let bad2 (c : Nat) : Bool :=
    let n := size q c
    let k := seg q c
    n != 0 && (2 ^ Nat.log2 k != k || n % k != 0 || n / k < 8 || k * 2 ^ 20 < 2 * ringMax (ringKinds get q c))
  let total := sumN (bothPorts.flatMap (fun r => (upTo 5).map (size r)))
  let rate := s.portsOn.foldl (fun (a : Frac) r => a.add (portRate get r)) ⟨0, 1⟩
  let bad5 (d c : Nat) : Bool :=
    let at5 := get (capIndex d)
    let p : Port := if at5 3 = 1 ∨ (at5 3 = 2 ∧ at5 2 = 2) then .b else .a
    bitOf (at5 4) c && (capturePorts (at5 3)).contains q && size q c != 0
      && decide (size q c / max 1 (seg q c) < 2 * windowSegs get p q c (at5 5 + at5 6))
  let held (c : Nat) : Bool := ((s.port q).cel.rings.getD c {}).segs.any (fun e => !e.2.held.isEmpty)
  let resized (c : Nat) : Bool := size q c != ringSize s.nat q c || seg q c != segSize s.nat q c
  if (upTo 5).any (fun c => needs c && size q c == 0) then 1
  else if (upTo 5).any bad2 then 2
  else if s.cellarMib < total then 3
  else if s.rtBudget * rate.d < rate.n then 4
  else if triggers.any (fun d => (upTo 5).any (bad5 d)) then 5
  else if (upTo 5).any (fun c => resized c && held c) then 6
  else 0

/-- RealTimeCommitted (R258): the rates of the active plans. -/
def State.committedRate (s : State) : Nat :=
  (bothPorts.foldl (fun (a : Frac) q => if (s.port q).hasPlan then a.add (portRate s.nat q) else a) ⟨0, 1⟩).ceil

/-! ## Rings: geometry (R238, R260) -/

def State.modCel (s : State) (q : Port) (f : Cellar → Cellar) : State := s.modPort q (fun ps => { ps with cel := f ps.cel })

def State.ring (s : State) (q : Port) (c : Nat) : Ring := (s.port q).cel.rings.getD c {}

def State.modRing (s : State) (q : Port) (c : Nat) (f : Ring → Ring) : State :=
  s.modCel q (fun k => { k with rings := modAt k.rings c f })

/-- Ring `c` as the registers of its block give it (R260): base, segment bytes, segment count. -/
def State.ringGeom (s : State) (q : Port) (c : Nat) : Nat × Nat × Nat :=
  let b := s.reg (winCel q) (0x40 + 8 * c)
  let g := s.reg (winCel q) (0x44 + 8 * c)
  (b % 2 ^ 20 * 2 ^ 20, 2 ^ min 10 (bitsOf g 20 17) * 2 ^ 20, min 65536 (bitsOf g 16 0))

/-- A ring whose geometry changed starts empty (R238). -/
def State.ringFit (s : State) (q : Port) (c : Nat) : State :=
  let (b, k, n) := s.ringGeom q c
  s.modRing q c (fun r => if r.base = b ∧ r.segBytes = k ∧ r.n = n then r else { base := b, segBytes := k, n := n })

/-- Firmware allocates the rings of both ports, in ring-code order, port A first (R238), and loads the registers. -/
def State.ringAlloc (s : State) : State :=
  let one (acc : Nat × State) (x : Port × Nat) : Nat × State :=
    let (base, s) := acc
    let size := ringSize s.nat x.1 x.2
    let seg := segSize s.nat x.1 x.2
    let s := s.setReg (winCel x.1) (0x40 + 8 * x.2) (if size = 0 then 0 else base % 2 ^ 20)
    let s := s.setReg (winCel x.1) (0x44 + 8 * x.2) (Nat.log2 seg * 2 ^ 17 + size / max 1 seg)
    (base + size, s.ringFit x.1 x.2)
  ((bothPorts.flatMap (fun q => (upTo 5).map (fun c => (q, c)))).foldl one (Config.cellarBase % 4097, s)).2

/-- Segments withdrawn from rotation (R251). -/
def Ring.withdrawn (r : Ring) : Nat := (r.segs.filter (fun e => !e.2.held.isEmpty)).length

/-- A segment. -/
def Ring.seg (r : Ring) (i : Nat) : Segment := (lookup i r.segs).getD {}

/-- The next segment of the rotation, withdrawn ones skipped (R250). -/
def Ring.nextSeg (r : Ring) : Nat :=
  ((upTo r.n).find? (fun k => (r.seg ((r.cur + 1 + k) % r.n)).held.isEmpty)).map (fun k => (r.cur + 1 + k) % r.n) |>.getD r.cur

/-- Entries of a ring in order of Sequence, pads left out. -/
def Ring.entries (r : Ring) : List (Nat × RingEntry) :=
  let later := r.segs.flatMap (fun e => e.2.entries.map (fun x => (e.1, x)))
  later.foldl (fun l x => insertSorted x l) []
where
  /-- Insert by Sequence. -/
  insertSorted (x : Nat × RingEntry) : List (Nat × RingEntry) → List (Nat × RingEntry)
    | [] => [x]
    | y :: ys => if x.2.seq < y.2.seq then x :: y :: ys else y :: insertSorted x ys

/-! ## Launches by order and by time (R240, R244) -/

/-- Launch time of ℓ in a run. -/
def PlanRun.time (r : PlanRun) (ell : Nat) : Nat :=
  let n := ell / max 1 r.m
  ((r.start : Int) + ((n : Int) - r.tide) * (r.p * 1000000 : Nat)).toNat + 8 * (floorX r.p (max 1 r.m) (ell % max 1 r.m) + r.phi)

/-- Ordinal of ℓ in a run. -/
def PlanRun.ordOf (r : PlanRun) (ell : Nat) : Int := r.ord + ((ell : Int) - r.ell)

/-- ℓ of an ordinal in a run. -/
def PlanRun.ellOf (r : PlanRun) (o : Int) : Nat := ((r.ell : Int) + (o - r.ord)).toNat

/-- The first ℓ of a run made at `x` or later. -/
def PlanRun.firstFrom (r : PlanRun) (x : Nat) : Nat :=
  if x ≤ r.start then r.ell
  else
    let n := r.tide + (x - r.start) / max 1 (r.p * 1000000)
    match (upTo r.m).find? (fun j => decide (x ≤ r.time (n * r.m + j))) with
    | some j => n * r.m + j
    | none => (n + 1) * r.m

/-- The run under which a record of this time was made. -/
def runAt : List PlanRun → Nat → Option PlanRun
  | [], _ => none
  | [r], _ => some r
  | r :: rest, t => if r.start ≤ t then some r else runAt rest t

/-- The run of an ordinal. -/
def runOfOrd : List PlanRun → Int → Option PlanRun
  | [], _ => none
  | [r], _ => some r
  | r :: rest, o => if r.ord ≤ o then some r else runOfOrd rest o

/-- The first launch at `x` or later, under whichever plan made it: its run and ℓ. -/
def launchFrom (upper : Option PlanRun) : List PlanRun → Nat → Option (PlanRun × Nat)
  | [], _ => none
  | r :: rest, x =>
    if r.start ≤ x ∨ rest.isEmpty then
      let e := r.firstFrom x
      match upper with
      | some u => if u.start ≤ r.time e then some (u, u.ell) else some (r, e)
      | none => some (r, e)
    else launchFrom (some r) rest x

/-- The latest launch a port has made. -/
def State.lastMade (s : State) (q : Port) : Option Nat :=
  match (s.port q).flight.getLast? with
  | some l => some l.ell
  | none => (s.port q).sw.lastLaunch.map (·.ell)

/-- A new run of launches begins at the present Tide edge, `bump` with a change of P or M. Launches are counted by ℓ within one
plan and in the order made across a change of P or M (R240, R249). -/
def State.newRun (s : State) (q : Port) (bump : Bool) : State :=
  let v := s.plan q
  let runs := (s.port q).cel.runs
  let ell := s.tide.num * v.m
  let ord : Int := match runs.head? with
    | none => 0
    | some r =>
      if ¬ bump then r.ordOf ell
      else match s.lastMade q with
        | some e => match (runs.filter (fun x => x.plan == r.plan)).find? (fun x => decide (x.ell ≤ e)) with
          | some x => x.ordOf e + 1
          | none => r.ord
        | none => r.ord
  let plan := (runs.head?.map (·.plan)).getD 0 + bit bump
  s.modCel q (fun k => { k with runs := ⟨s.tide.edge, s.tide.num, v.p, v.m, v.phi, ell, ord, plan⟩ :: k.runs })

/-- A Tide whose edge does not lie one period after the edge before it, to the ns, begins a run of its own (R24): so the launch
times of a run are exact. -/
def State.tideRun (s : State) (q : Port) : State :=
  match (s.port q).cel.runs.head? with
  | some r =>
    if (s.tide.edge : Int) = (r.start : Int) + ((s.tide.num : Int) - r.tide) * (r.p * 1000000 : Nat) ∧ r.tide ≤ s.tide.num then s
    else s.modCel q (fun k => { k with runs :=
      { r with start := s.tide.edge, tide := s.tide.num, ell := s.tide.num * r.m, ord := r.ordOf (s.tide.num * r.m) } :: k.runs })
  | none => s

/-- A commit or a takeover has changed P or M: a new run begins, and a plan marker goes to every ring of the port (R240). -/
def State.planMarker (s : State) (q : Port) : State :=
  let v := s.plan q
  let first := s.tide.num * v.m
  let b := leBytes 2 s.tide.epoch ++ leBytes 1 v.p ++ zeros 1 ++ leBytes 2 v.m ++ zeros 2 ++ leBytes 8 s.tide.num
    ++ leBytes 8 first ++ leBytes 8 ((s.lastMade q).getD 0)
  (upTo 5).foldl (fun s c => s.toRing q ⟨c, 0xD, s.tide.edge, first, b, s.tide.edge, 0⟩) (s.newRun q true)

/-! ## Captures: windows and withdrawal (R249–R251) -/

/-- Whether a capture takes a ring of a port. -/
def Capture.takes (k : Capture) (q : Port) (c : Nat) : Bool := bitOf k.mask c && (k.both || k.port == q)

/-- Whether an entry lies in a capture's window (R249). -/
def Capture.inWindow (k : Capture) (q : Port) (c : Nat) (e : RingEntry) : Bool :=
  if c = 2 ∧ (e.type = 6 ∨ e.type = 7) then decide ((if q = .a then k.kilnA else k.kilnB) ≤ e.seq)
  else if q = k.port then decide (k.first ≤ e.ord ∧ e.ord ≤ k.last)
  else decide (k.tFirst ≤ e.lt) && (match k.tLast with
    | some t => decide (e.lt ≤ t)
    | none => true)

/-- The time of a capture's last window launch, once it has been made (R249). -/
def State.windowEnd (s : State) (k : Capture) : Option Nat :=
  match (runOfOrd (s.port k.port).cel.runs k.last).map (fun r => r.time (r.ellOf k.last)) with
  | some t => if t ≤ s.time.now then some t else none
  | none => none

/-- Set flag bits of a capture. -/
def Capture.flag (k : Capture) (b : Nat) : Capture := { k with flags := k.flags ||| 2 ^ b }

/-- Hold a segment for a capture. -/
def State.hold (s : State) (q : Port) (c d i : Nat) : State :=
  s.modRing q c (fun r => { r with segs := insertKey i (let g := r.seg i; { g with held := if g.held.contains d then g.held else g.held ++ [d] }) r.segs })

/-- A filling capture sees an entry just written to segment `i` (R250, R251): the segment is withdrawn, or the frozen limit
ends filling. -/
def State.fillStep (s : State) (q : Port) (c i : Nat) (e : RingEntry) (d : Nat) : State :=
  let k := s.cap d
  if k.state = 2 ∧ ¬ k.full ∧ k.takes q c ∧ k.inWindow q c e then
    let r := s.ring q c
    if (r.seg i).held.contains d then s
    else if ¬ (r.seg i).held.isEmpty ∨ r.withdrawn < r.n / 2 then s.hold q c d i
    else (s.modCap d (fun k => { k.flag 1 with full := true })).raise (stCel q) [3]
  else s

/-- The last window launch of a capture of both ports has been made: its time is known (R249). -/
def State.fillEnd (s : State) (d : Nat) : State :=
  let k := s.cap d
  if k.state = 2 ∧ k.both ∧ k.tLast.isNone then s.modCap d (fun k => { k with tLast := s.windowEnd k }) else s

/-! ## Writing entries (R239, R243) -/

/-- The tag of an entry (R239). -/
def ringTag (len type : Nat) (gap : Bool) (q : Port) (seq time launch : Nat) : List Byte :=
  leBytes 4 len ++ leBytes 1 type ++ leBytes 1 (bit gap) ++ leBytes 1 (Port.num q) ++ zeros 1
    ++ leBytes 8 seq ++ leBytes 8 time ++ leBytes 8 launch

/-- The rings of a port can be written: block enabled, DRAM in reach (R243, R260). -/
def State.celOn (s : State) (q : Port) : Bool := s.domain 2 && bitOf (s.reg (winCel q) 0) 0

/-- The entry that a record makes, but for its place and Sequence: its launch's ordinal and time are those of the plan it was made
under (R240). -/
def State.entryOf (s : State) (q : Port) (x : RingRec) : RingEntry :=
  let kiln : Bool := x.ring == 2 && (x.type == 6 || x.type == 7)
  let run := runAt (s.port q).cel.runs x.lt
  { ofs := 0, size := entrySize x.bytes.length, type := x.type, seq := (s.ring q x.ring).count, time := x.time, launch := x.launch
    gap := (s.ring q x.ring).gapNext, ch := x.ch
    ord := match run with
      | some r => r.ordOf x.launch
      | none => x.launch
    lt := match run with
      | some r => if kiln then x.lt else r.time x.launch
      | none => x.lt }

/-- The later of two entries by ordinal. -/
def RingEntry.later (a : Option RingEntry) (e : RingEntry) : Option RingEntry :=
  match a with
  | some x => if x.ord < e.ord then some e else some x
  | none => some e

/-- Write one entry; none where it cannot be placed. -/
def State.ringAppend (s : State) (q : Port) (x : RingRec) : Option State :=
  let c := x.ring
  let r := s.ring q c
  let total := entrySize x.bytes.length
  if ¬ s.celOn q ∨ r.n = 0 ∨ r.segBytes < total ∨ ¬ s.dramOk r.base ∨ ¬ s.dramOk (r.base + r.n * r.segBytes - 1) then none
  else
    let tagv := if c = 3 then 2 else 1
    let fits := decide (r.fill + total ≤ r.segBytes)
    -- a pad tag closes the segment
    let s := if fits ∨ r.segBytes < r.fill + 32 then s
      else s.dramPut (r.base + r.cur * r.segBytes + r.fill) (ringTag (r.segBytes - r.fill - 32) 0 false q r.count 0 0) tagv
    let cur := if fits then r.cur else r.nextSeg
    let ofs := if fits then r.fill else 0
    let s := s.dramPut (r.base + cur * r.segBytes + ofs)
      (ringTag x.bytes.length x.type r.gapNext q r.count x.time x.launch ++ padTo 32 x.bytes) tagv
    let e : RingEntry := { s.entryOf q x with ofs := ofs }
    let s := s.modRing q c (fun r =>
      let g := if fits then r.seg cur else { r.seg cur with entries := [] }
      let gone := if fits then r.gone else (r.seg cur).entries.foldl RingEntry.later r.gone
      { r with segs := insertKey cur { g with entries := g.entries ++ [e] } r.segs, cur := cur, fill := ofs + total
               count := (r.count + 1) % 2 ^ 64, gapNext := false, gone := gone })
    let s := (upTo 16).foldl State.fillEnd s
    some ((upTo 16).foldl (fun s d => s.fillStep q c cur e d) s)

/-- A gap marker: count of dropped records, Time of the first (R243; layout: log 53). -/
def State.gapMarker (s : State) (q : Port) (c : Nat) : State :=
  let r := s.ring q c
  if r.dropN = 0 then s
  else match s.ringAppend q ⟨c, 0xC, r.dropTime, r.dropLaunch, leBytes 8 r.dropN ++ leBytes 8 r.dropTime, r.dropLt, 0⟩ with
    | none => s
    | some s => (s.modRing q c (fun r => { r with dropN := 0, gapNext := true })).raise (stCel q) [6]

/-- A record is dropped whole (R243): the first of a gap raises the contained fault. -/
def State.ringDrop (s : State) (q : Port) (x : RingRec) : State :=
  let r := s.ring q x.ring
  let s := s.modRing q x.ring (fun r =>
    if r.dropN = 0 then { r with dropN := 1, dropTime := x.time, dropLaunch := x.launch, dropLt := x.lt } else { r with dropN := r.dropN + 1 })
  if r.dropN = 0 then s.contained (winCel q) 0 1 else s

/-- A record goes to its ring behind the marker of a gap that it ends; it is dropped whole where either cannot be placed (R243), or
where `ok` is false. A ring that does not exist, or a block that is not enabled, takes nothing. -/
def State.ringWrite (s : State) (q : Port) (x : RingRec) (ok : Bool) : State :=
  if ¬ s.celOn q ∨ (s.ring q x.ring).n = 0 then s
  else if ok then
    let s := s.gapMarker q x.ring
    if (s.ring q x.ring).dropN ≠ 0 then s.ringDrop q x else (s.ringAppend q x).getD (s.ringDrop q x)
  else s.ringDrop q x

/-- RING_ENTRY_WRITE: the oldest waiting record goes to its ring, or is dropped where the write cannot be placed (`ok`
false, or no DRAM). -/
def execRingEntryWrite (q : Port) (ok : Bool) (s : State) : Host.Outcome State Fault Refusal :=
  match (s.port q).celIn with
  | [] => .next s
  | x :: rest =>
    .next ((s.modPort q (fun ps => { ps with celIn := rest })).ringWrite q x ok)

/-- GAP_MARKER_WRITE: writing resumes (R243). -/
def execGapMarkerWrite (q : Port) (c : Nat) (s : State) : Host.Outcome State Fault Refusal := .next (s.gapMarker q c)

/-! ## Triggers (R244–R248) -/

/-- A trigger is dropped or refused (R245). -/
def State.refuseTrigger (s : State) (q : Port) (d : Nat) : State :=
  (s.modCap d (fun k => { k with miss := satAdd 0xFFFFFFFF k.miss 1 })).raise (stCel q) [2]

/-- Queue a resolved trigger, or refuse it: the queue is full, or the launch lies more than 1 s ahead (R245). -/
def State.queueTrigger (s : State) (t : Trigger) : State :=
  let k := (s.port t.port).cel
  let lt := (runOfOrd k.runs t.ord).map (fun r => r.time t.ell) |>.getD 0
  if 32 ≤ k.queue.length ∨ s.time.now + 1000000000 < lt then s.refuseTrigger t.port t.d
  else s.modCel t.port (fun k => { k with queue := k.queue ++ [t] })

/-- The port whose launches a timed trigger of a descriptor counts (log 54). -/
def State.timedPort (s : State) (d : Nat) : Port := if s.nat (capIndex d) 3 = 1 then .b else .a

/-- The launch that a time resolves to on a port for a range sample (R244): its run and ℓ. -/
def State.resolve (s : State) (q : Port) (rd t : Nat) : Option (PlanRun × Nat) :=
  launchFrom none (s.port q).cel.runs (t - 4 * rd)

/-- A trigger at time `t` for a descriptor (R244): resolved to the first launch whose return from r_d leaves the point after
`t`; refused where no plan or no Tide runs. -/
def State.timedTrigger (s : State) (d source t : Nat) (trunk : Bool) : State :=
  let q := s.timedPort d
  let rd := s.nat (capIndex d) 7
  if ¬ bitOf (s.reg (winCel q) 0) 0 then s
  else if ¬ (s.port q).hasPlan ∨ ¬ s.tide.running then s.refuseTrigger q d
  else match s.resolve q rd t with
    | none => s.refuseTrigger q d
    | some (r, e) => s.queueTrigger ⟨d, source, q, r.ordOf e, e, rd, r.time e + 4 * rd, trunk, some t⟩

/-- Descriptors of a source. -/
def State.capsOf (s : State) (source : Nat) : List Nat := (upTo 16).filter (fun d => s.nat (capIndex d) 2 == source)

/-- TRIGGER_EVT_INPUT: the trigger logic takes the oldest event of EVT_IN `n` (R322); none is taken from a stuck input (R248). -/
def execTriggerEvtInput (n : Nat) (s : State) : Host.Outcome State Fault Refusal :=
  match (s.tiu (2 + n)).events with
  | [] => .next s
  | t :: _ =>
    let s := s.takeEvent (2 + n)
    if s.up ∧ n < 2 ∧ ¬ (s.tiu (2 + n)).stuck then
      .next ((s.capsOf (3 + n)).foldl (fun s d => s.timedTrigger d (3 + n) (ceilDiv t 1000) false) s)
    else .next s

/-- TRIGGER_TRUNK_MESSAGE (R247): delivered to every armed descriptor of source 6. -/
def execTriggerTrunkMessage (inp : LinkPort) (f : Frame) (s : State) : Host.Outcome State Fault Refusal :=
  if s.up && s.carries inp then
    let (pass, s) := s.ingress inp f
    if pass && s.chnOn && s.takes f then
      let on := (s.capsOf 6).filter (fun d => (s.cap d).state == 1 || (s.cap d).state == 2)
      .next (on.foldl (fun s d => s.timedTrigger d 6 (f.fields.getD 0 0) true) s)
    else .next s
  else .next s

/-- Twice q_c of a peak group (R228): first plus last point of the group. -/
def groupCentre2 (r : DetRec) (pk : Nat) : Nat := pk * r.group + min ((pk + 1) * r.group - 1) (r.cfg.n - 1)

/-- The entry of a detection record that triggers a descriptor (R244): the qualifying one of the lowest peak group. -/
def State.qualifies (s : State) (d : Nat) (r : DetRec) : Option DetEntry :=
  let ok (e : DetEntry) : Bool := e.state == 0 && ((s.real (capIndex d) 8).scale 8).le (Num.ofNat e.excess)
    && (e.bands &&& s.nat (capIndex d) 9) != 0
  (r.entries.filter ok).foldl (fun m e => match m with
    | none => some e
    | some x => if e.peak < x.peak then some e else some x) none

/-- TRIGGER_DETECTION: the port's latest detection record reaches the Cellar (R244). A descriptor that names the other
port alone counts that port's launches (log 54). -/
def execTriggerDetection (q : Port) (s : State) : Host.Outcome State Fault Refusal :=
  match (s.port q).det.trig with
  | none => .next s
  | some r =>
    let s := s.modDet q (fun d => { d with trig := none })
    .next ((s.capsOf (1 + Port.num q)).foldl (fun s d =>
      match s.qualifies d r with
      | none => s
      | some e =>
        let cp := s.nat (capIndex d) 3
        let p : Port := if cp = 0 then .a else if cp = 1 then .b else q
        if ¬ bitOf (s.reg (winCel p) 0) 0 then s
        else if ¬ (s.port p).hasPlan ∨ ¬ s.tide.running then s.refuseTrigger p d
        else
          let rs := r.cfg.r0 + groupCentre2 r e.peak * r.cfg.pitch / 2 + r.cfg.g / 2
          match runAt (s.port p).cel.runs r.time with
          | none => s.refuseTrigger p d
          | some x =>
            let ell := r.tide * x.m
            s.queueTrigger ⟨d, 1 + Port.num q, p, x.ordOf ell, ell, rs, x.time ell + 4 * rs, false, none⟩) s)

/-- TriggerTime is written (R244 source 5): 0 means now; none where TriggerSource is not 5 (R259). -/
def State.triggerTime (s : State) (d t : Nat) : Option State :=
  if s.nat (capIndex d) 2 = 5 then some (s.timedTrigger d 5 (if t = 0 then s.time.now else t) false) else none

/-- The order in which triggers are served (R245). -/
def Trigger.before (a b : Trigger) : Bool :=
  decide (a.ord < b.ord) || (a.ord == b.ord && (decide (a.r < b.r) || (a.r == b.r && decide (a.d < b.d))))

/-- A trigger is accepted (R247): forwarded to the neighbours of ForwardMask, unless it came over a trunk. -/
def State.forwardTrigger (s : State) (t : Trigger) : State :=
  let m := s.nat (capIndex t.d) 0xE
  let one (s : State) (b : Nat) (d : Side) : State :=
    if bitOf m b && (s.link d).up && s.originates then s.toNeighbour d 2 0x31 [t.time, s.node, t.d] [] else s
  if t.trunk then s else one (one s 0 .w) 1 .e

/-- Segments of a ring that hold window entries, newest first. -/
def Ring.windowSegs (r : Ring) (k : Capture) (q : Port) (c : Nat) : List Nat :=
  let l := r.entries.filter (fun x => k.inWindow q c x.2)
  l.foldl (fun acc x => if acc.head? = some x.1 then acc else if acc.contains x.1 then acc else x.1 :: acc) []

/-- Ordinal of the newest launch in the phase-rate ring of a port. -/
def State.newestOrd (s : State) (q : Port) : Option Int :=
  (((s.ring q 0).entries.filter (fun x => x.2.type == 1)).getLast?).map (fun x => x.2.ord)

/-- A capture withdraws what its window already has in a ring (R250, R251): the estimate of the rest, from the launches of the
trigger's port still to come, is granted first, then the segments at hand, newest first. -/
def State.withdraw (s : State) (q : Port) (c d : Nat) : State :=
  let k := s.cap d
  let r := s.ring q c
  let have_ := r.windowSegs k q c
  let new := have_.filter (fun i => (r.seg i).held.isEmpty)
  let post := windowSegs s.nat k.port q c (k.last - max ((s.newestOrd k.port).getD k.trig) k.trig).toNat
  let left := r.n / 2 - r.withdrawn
  let grant := if new.length + post ≤ left then new.length else left - min post left
  let keep := new.take grant
  let s := (have_.filter (fun i => keep.contains i || !(r.seg i).held.isEmpty)).foldl (fun s i => s.hold q c d i) s
  if new.length ≤ grant then s
  else (s.modCap d (fun k => k.flag 0)).raise (stCel q) [3]

/-- Sequence of the last Kiln profile completed before a time; 0 where there is none (R249). -/
def Ring.lastProfile (r : Ring) (t : Nat) : Nat :=
  let l := r.entries.filter (fun x => (x.2.type == 6 || x.2.type == 7) && decide (x.2.lt ≤ t))
  match l.getLast? with
  | some x => ((l.find? (fun y => y.2.lt == x.2.lt)).map (fun y => y.2.seq)).getD x.2.seq
  | none => 0

/-- The ports of a capture. -/
def Capture.ports (k : Capture) : List Port := if k.both then [.a, .b] else [k.port]

/-- The named rings of a capture. -/
def Capture.rings (k : Capture) : List (Port × Nat) :=
  k.ports.flatMap (fun q => ((upTo 5).filter (bitOf k.mask)).map (fun c => (q, c)))

/-- Part of a capture's span before its trigger has been overwritten in a named ring (R246): overwriting has reached its window, or
the Kiln profile before the trigger is gone. -/
def State.overwritten (s : State) (d : Nat) (t : Nat) : Bool :=
  let k := s.cap d
  k.rings.any (fun (q, c) =>
    let r := s.ring q c
    match r.gone with
    | some g =>
      if c = 2 then !(r.entries.any (fun x => (x.2.type == 6 || x.2.type == 7) && decide (x.2.lt ≤ t)))
      else if q = k.port then decide (k.first ≤ g.ord) else decide (k.tFirst ≤ g.lt)
    | none => false)

/-- An armed descriptor accepts a trigger (R250). -/
def State.acceptTrigger (s : State) (t : Trigger) : State :=
  let o := capIndex t.d
  let both := s.nat o 3 == 2
  let first := t.ord - s.nat o 5
  let runs := (s.port t.port).cel.runs
  let plan (x : Int) : Option Nat := (runOfOrd runs x).map (·.plan)
  let k : Capture :=
    { s.cap t.d with
      state := 2, port := t.port, both := both, mask := s.nat o 4, ell := t.ell, r := t.r, time := t.time, first := first
      last := t.ord + s.nat o 6 - 1, trig := t.ord, tLast := none, secondary := 0, seconds := [], lastAcc := some t.time
      tFirst := (runOfOrd runs first).map (fun r => r.time (r.ellOf first)) |>.getD 0
      full := false, manifest := [], flags := if plan first != plan t.ord then 32 else 0
      kilnA := (s.ring .a 2).lastProfile t.time, kilnB := (s.ring .b 2).lastProfile t.time }
  let s := (s.modCap t.d (fun _ => { k with tLast := s.windowEnd k }))
  let marker := leBytes 1 t.d ++ leBytes 1 t.source ++ zeros 2 ++ leBytes 4 t.r ++ leBytes 8 t.ell ++ leBytes 8 t.time
  let s := k.ports.foldl (fun s q =>
    -- the launch that the other port's marker names (log 54)
    let x := match s.resolve q t.r t.time with
      | some (r, e) => (if q = t.port then t.ell else e, r.time (if q = t.port then t.ell else e))
      | none => (t.ell, t.time)
    s.ringWrite q ⟨4, 0xB, t.time, x.1, marker, x.2, 0⟩ true) s
  let s := if s.overwritten t.d t.time then s.modCap t.d (fun k => k.flag 0) else s
  let s := k.rings.foldl (fun s x => s.withdraw x.1 x.2 t.d) s
  (k.ports.foldl (fun s q => s.raise (stCel q) [0]) s).forwardTrigger t

/-- A trigger meets a filling descriptor past its hold-off (R252). Where it extends the window, segments that already hold entries of
the part added are withdrawn; what R251 has refused stays refused. -/
def State.secondTrigger (s : State) (t : Trigger) : State :=
  let o := capIndex t.d
  let k := s.cap t.d
  let last := t.ord + s.nat o 6 - 1
  if s.nat o 0xB = 1 ∧ t.port = k.port ∧ max last k.last - k.first + 1 ≤ s.nat o 0xC ∧ ¬ k.full then
    let s := s.modCap t.d (fun k =>
      let k := { k.flag 2 with last := max last k.last, lastAcc := some t.time }
      { k with tLast := s.windowEnd k })
    let s := k.rings.foldl (fun s (q, c) =>
      ((s.ring q c).entries.filter (fun x => !k.inWindow q c x.2)).foldl (fun s x => s.fillStep q c x.1 x.2 t.d) s) s
    (k.ports.foldl (fun s q => s.raise (stCel q) [0]) s).forwardTrigger t
  else
    s.modCap t.d (fun k =>
      { k with secondary := satAdd 0xFFFFFFFF k.secondary 1
               seconds := if k.seconds.length < 15 then k.seconds ++ [clampI (-32768) 32767 (t.ord - k.trig)] else k.seconds })

/-- The resolved launch is older than the phase-rate ring reaches (R246): its entry is not there, and later ones have been
overwritten or it came before the ring's first. -/
def State.tooLate (s : State) (t : Trigger) : Bool :=
  let r := s.ring t.port 0
  let es := r.entries
  let first := match es.head? with
    | some x => decide (t.ord < x.2.ord)
    | none => true
  let gone := match r.gone with
    | some g => decide (t.ord ≤ g.ord)
    | none => false
  (first || gone) && !(es.any (fun x => x.2.type == 1 && x.2.ord == t.ord))

/-- Serve one trigger (R246, R248, R250, R252): one within TrigHoldoff of the last accepted counts as missed in every state; held
off for an update, it only counts (R484). -/
def State.serveTrigger (s : State) (t : Trigger) : State :=
  let k := s.cap t.d
  let missed (s : State) : State := s.modCap t.d (fun k => { k with miss := satAdd 0xFFFFFFFF k.miss 1 })
  let near := match k.lastAcc with
    | some a => decide (a ≤ t.time) && decide (t.time < a + s.nat (capIndex t.d) 0xA * 1000000)
    | none => false
  if near then missed s
  else if k.state ≠ 1 ∧ k.state ≠ 2 then s
  else if s.ident.holdOff then missed s
  else if k.state = 2 then s.secondTrigger t
  else if s.tooLate t then (missed s).modCap t.d (fun k => k.flag 3)
  else s.acceptTrigger t

/-- A timed trigger resolves anew as the launches have been made (R244, R245); one resolved from a detection stands. -/
def State.resolved (s : State) (t : Trigger) : Trigger :=
  match t.due with
  | none => t
  | some x => match s.resolve t.port t.r x with
    | some (r, e) => { t with ord := r.ordOf e, ell := e, time := r.time e + 4 * t.r }
    | none => t

/-- TRIGGER_QUEUE_SERVE: the first trigger in the order of R245, once its launch has been written. -/
def execTriggerQueueServe (q : Port) (s : State) : Host.Outcome State Fault Refusal :=
  match (s.port q).cel.queue.map s.resolved with
  | [] => .next s
  | t0 :: rest =>
    let t := rest.foldl (fun m x => if x.before m then x else m) t0
    let written : Bool := match s.newestOrd q with
      | some x => decide (t.ord ≤ x)
      | none => false
    if s.celOn q ∧ written then
      let s := s.modCel q (fun k => { k with queue := (t0 :: rest).erase t })
      .next (s.serveTrigger t)
    else .next s

/-! ## Freezing, manifest, release (R250, R253, R254, R256) -/

/-- The entries of a capture's window that it holds in a ring: segment and entry. -/
def State.heldEntries (s : State) (q : Port) (c d : Nat) : List (Nat × RingEntry) :=
  let k := s.cap d
  (s.ring q c).entries.filter (fun x => ((s.ring q c).seg x.1).held.contains d && k.inWindow q c x.2)

/-- The held segments of a capture, in the manifest's order, which is by ring code (port A first), then by first Sequence: port, ring,
segment, bytes of window entries, offset of the first (R254). -/
def State.heldSegs (s : State) (d : Nat) : List (Port × Nat × Nat × Nat × Nat) :=
  (upTo 5).flatMap (fun c => bothPorts.flatMap (fun q =>
    let r := s.ring q c
    let l := s.heldEntries q c d
    -- in order of Sequence, those without an entry last
    let used := r.entries.foldl (fun (acc : List Nat) x => if acc.contains x.1 then acc else acc ++ [x.1]) []
    let segs := used ++ (r.segs.map (·.1)).filter (fun i => !used.contains i)
    (segs.filter (fun i => (r.seg i).held.contains d)).map (fun i =>
      let es := l.filter (fun x => x.1 == i)
      (q, c, i, sumN (es.map (fun x => x.2.size)), (es.head?.map (fun x => x.2.ofs)).getD 0))))

/-- The manifest (R254), its first window launch being the first held where the window was truncated before. -/
def State.manifestOf (s : State) (d : Nat) : List Byte :=
  let k := s.cap d
  let runs := (s.port k.port).cel.runs
  let c0 := ((upTo 5).find? (fun c => bitOf k.mask c)).getD 0
  let first := if bitOf k.flags 0 then
      (((s.heldEntries k.port c0 d).head?).map (fun x => max k.first x.2.ord)).getD k.first else k.first
  let last := if bitOf k.flags 1 then
      (((s.heldEntries k.port c0 d).getLast?).map (fun x => min k.last x.2.ord)).getD k.last else k.last
  let firstEll := (runOfOrd runs first).map (fun r => r.ellOf first) |>.getD 0
  let segs := s.heldSegs d
  leBytes 8 k.ell ++ leBytes 8 k.time ++ leBytes 4 k.r ++ leBytes 4 firstEll ++ leBytes 4 (last - first + 1).toNat
    ++ leBytes 1 k.flags ++ leBytes 1 d ++ leBytes 2 segs.length
    ++ (upTo 16).flatMap (fun i => leBytes 2 (match k.seconds[i]? with
        | some x => ofSigned 16 x
        | none => 0x7FFF))
    ++ segs.flatMap (fun (q, c, i, n, o) => leBytes 1 (c + 128 * Port.num q) ++ zeros 3 ++ leBytes 4 i ++ leBytes 4 n ++ leBytes 4 o)

/-- The capture freezes (R250): the manifest is made, CaptureArm clears. -/
def State.freeze (s : State) (d : Nat) : State :=
  let k := s.cap d
  let gap := k.ports.any (fun q => (upTo 5).any (fun c => (s.heldEntries q c d).any (fun x => x.2.gap)))
  let s := if gap then s.modCap d (fun k => k.flag 4) else s
  let m := s.manifestOf d
  let s := (s.modCap d (fun k => { k with state := 3, manifest := m })).setObj (capIndex d) 1 [0]
  k.ports.foldl (fun s q => s.raise (stCel q) [1]) s

/-- Filling ends before the window does (R253). -/
def State.cutFill (s : State) (d : Nat) : State :=
  if (s.cap d).state = 2 then (s.modCap d (fun k => { k.flag 1 with full := true })).freeze d else s

/-- Ordinal of a port's last launch in a capture's window (R249); none while the end is not known. -/
def State.lastIn (s : State) (k : Capture) (q : Port) : Option Int :=
  if q = k.port then some k.last
  else match k.tLast with
    | some t => (s.resolve q 0 (t + 1)).map (fun x => x.1.ordOf x.2 - 1)
    | none => none

/-- The entries that a capture waits for in a ring whose last window launch has ordinal `last` (R250; log 55): type, channel,
ordinal. Records of a Tide carry its first launch, decimated ones their boundary launch, wort ones a launch of a wort slot. -/
def State.awaited (s : State) (q : Port) (c : Nat) (last : Int) : List (Nat × Nat × Int) :=
  let run := runOfOrd (s.port q).cel.runs last
  let ell := (run.map (fun r => r.ellOf last)).getD 0
  let tideOrd := match run with
    | some r => r.ordOf (ell / max 1 r.m * max 1 r.m)
    | none => last
  let v := s.plan q
  match c with
  | 0 => [(1, 0, last), (3, 0, tideOrd)] ++ (if s.pn q 0x3100 0x11 = 1 then [(2, 0, last)] else [])
      ++ ([0, 1].filter (fun ch => s.nat (decIndex q ch) 1 == 1 && bitOf (s.nat (decIndex q ch) 6) 0)).map (fun ch =>
        (4, ch, last - (ell % presetD (s.nat (decIndex q ch) 2) : Nat)))
  | 1 => if (ringKinds s.nat q 1).isEmpty then [] else [(5, 0, tideOrd)]
  | 3 =>
    if s.pn q 0x2100 0x67 = 1 then
      match (upTo 8).find? (fun i => bitOf (s.pn q 0x2100 0x68) (slotAt v.mask v.m ((ell - i) / max 1 v.m) ((ell - i) % max 1 v.m))) with
      | some i => [(8, 0, last - i)]
      | none => []
    else []
  | 4 => (if s.pn q 0x6010 1 = 1 then [(9, 0, tideOrd)] else []) ++ (if s.pn q 0x6030 1 = 1 then [(10, 0, tideOrd)] else [])
  | _ => []

/-- The last entry of the window has been written in every named ring (R250; which entry that is in a ring: log 55), and no
record of the window waits. -/
def State.windowDone (s : State) (d : Nat) : Bool :=
  let k := s.cap d
  k.rings.all (fun (q, c) =>
    let es := (s.ring q c).entries
    match s.lastIn k q with
    | none => false
    | some last =>
      let from_ : Int := if q = k.port then k.first else ((s.resolve q 0 k.tFirst).map (fun x => x.1.ordOf x.2)).getD last
      (s.awaited q c last).all (fun (type, ch, o) => decide (o < from_)
        || es.any (fun x => x.2.type == type && x.2.ch == ch && decide (o ≤ x.2.ord)))
        && !((s.port q).celIn.any (fun x => x.ring == c && k.inWindow q c (s.entryOf q x))))

/-- CAPTURE_FREEZE: the window is complete, or the frozen limit has been reached (R250, R251). -/
def execCaptureFreeze (d : Nat) (s : State) : Host.Outcome State Fault Refusal :=
  if (s.cap d).state = 2 ∧ ((s.cap d).full ∨ s.windowDone d) then .next (s.freeze d) else .next s

/-- A write to CaptureArm (R250, R253, R256); none where it is refused with the state error. -/
def State.captureArm (s : State) (d : Nat) (on : Bool) : Option State :=
  let k := s.cap d
  if on then
    if 2 ≤ k.state then none
    else some ((s.modCap d (fun k => { k with state := 1 })).setObj (capIndex d) 1 [1])
  else if k.state = 2 then some (s.cutFill d)
  else if k.state = 1 then some ((s.modCap d (fun k => { k with state := 0 })).setObj (capIndex d) 1 [0])
  else some (s.setObj (capIndex d) 1 [0])

/-- Give a capture's segments back to the rotation (R253). -/
def State.giveBack (s : State) (d : Nat) : State :=
  s.modBoth (fun _ ps => { ps with cel := { ps.cel with rings := ps.cel.rings.map (fun r =>
    { r with segs := r.segs.map (fun e => (e.1, { e.2 with held := e.2.held.filter (· != d) })) }) } })

/-- A write of 1 to CaptureRelease (R256); none where it is refused with the state error. -/
def State.captureRelease (s : State) (d : Nat) : Option State :=
  let k := s.cap d
  if k.state = 2 ∨ k.state = 4 then none
  else some (((s.giveBack d).modCap d (fun k => { k with state := 0 })).setObj (capIndex d) 1 [0])

/-! ## Export (R255, R257, R292, R305) -/

/-- An entry as the export reads it: bit 7 of the Port byte set where a word of it is poisoned or uncorrectable (R257); and
whether so. -/
def State.exportEntry (s : State) (q : Port) (c i : Nat) (e : RingEntry) (errs : List (Nat × List Nat)) : Option (List Byte × Bool) × State :=
  let r := s.ring q c
  let (x, s) := s.fabRead (r.base + i * r.segBytes + e.ofs) e.size errs
  (x.map (fun (b, bad) => (if bad then setAt b 6 ((b.getD 6 0) ||| 0x80) else b, bad)), s)

/-- A part of a raw export (R255, R257): every entry of the frozen segments, or the first `n`; those with a word that is poisoned,
or uncorrectable by the bits that `errs` names as inverted, by line, are marked and listed by ring, segment and Sequence. -/
def State.exportRaw (s : State) (d n : Nat) (errs : List (Nat × List Nat)) : State :=
  let items := (s.heldSegs d).flatMap (fun (q, c, i, _, _) => ((s.ring q c).seg i).entries.map (fun e => (q, c, i, e)))
  (items.take n).foldl (fun s (q, c, i, e) =>
    match s.exportEntry q c i e errs with
    | (none, s) => s.busError 30 ((s.ring q c).base + i * (s.ring q c).segBytes + e.ofs) false
    | (some (b, bad), s) =>
      (s.exportSend 1 q e.type e.time e.launch b).modCap d (fun k =>
        { k with report := if bad then k.report ++ [(c + 128 * Port.num q, i, e.seq)] else k.report })) s

/-- How many entries a raw export has. -/
def State.exportSize (s : State) (d : Nat) : Nat :=
  sumN ((s.heldSegs d).map (fun (q, c, i, _, _) => ((s.ring q c).seg i).entries.length))

/-- An export job is over: the state is frozen again, and its completion report is made (R255, R257, R298). -/
def State.exportOver (s : State) (d : Nat) : State :=
  let l := (s.cap d).report
  let s := if l.isEmpty then s else s.emit (.exportReport d l)
  s.modCap d (fun k => { k with state := 3, report := [], failed := false })

/-- A job that does not end well has delivered a free number of its entries, or what its engines had written whole. -/
def State.exportCut (s : State) (d : Nat) (errs : List (Nat × List Nat)) : State :=
  if (s.cap d).job = 1 then
    let (f, s) := s.takeFree
    (s.exportRaw d (f % (s.exportSize d + 1)) errs).exportOver d
  else (s.exportAbort d).exportOver d

/-- A write to ExportJob (R255); none where it is refused with the state error. A compressed export is one job of the compression
engines for each manifest entry (R292; log 56). -/
def State.exportJob (s : State) (d job : Nat) : Option State :=
  let k := s.cap d
  if job = 0 then some (if k.state = 4 then s.exportCut d (Config.readErrs s.free) else s)
  else if k.state = 3 then
    let s := s.modCap d (fun k => { k with state := 4, job := job, level := s.nat 0x5040 1, delta := s.nat 0x5040 2 == 1
                                           log2 := s.nat 0x5040 3, failed := false, report := [] })
    if job = 1 then some s
    else
      let new := (s.heldSegs d).map (fun (q, c, i, _, _) => ({ d := d, q := q, c := c, seg := i } : ExportJob))
      some ({ s with cask := { s.cask with jobs := s.cask.jobs ++ new } }).exportPump
  else none

/-- EXPORT_JOB_END: the job ends, well or not; a capture may release itself (R255, R256). A compressed export ends well once its
engine jobs have ended, all of them well. `errs`: the bits that DRAM gave inverted in a raw export's reads, by line (R257). -/
def execExportJobEnd (d : Nat) (ok : Bool) (errs : List (Nat × List Nat)) (s : State) : Host.Outcome State Fault Refusal :=
  let k := s.cap d
  let busy := s.cask.jobs.any (fun x => x.d == d)
  if k.state = 4 then
    if ¬ ok then .next (s.exportCut d errs)
    else if k.job ≠ 1 ∧ busy then .next s
    else
      let s := (if k.job = 1 then s.exportRaw d (s.exportSize d) errs else s).exportOver d
      .next (if ¬ k.failed ∧ s.nat (capIndex d) 0xD = 1 then (s.captureRelease d).getD s else s)
  else .next s

end Sys2Proof.Machine
end

