-- ==== Sys2Proof/Machine/Regs.lean ====
section
/-! DEFINITION. The registers that firmware keeps equal to the objects in force (R112, R144, R202, R236, R289, R375,
R464, R465, R519) and the enables it sets (log 64). -/
namespace Sys2Proof.Machine
open Sys2Proof

/-- BREW_POOL_LO and BREW_POOL_HI from CorePool (R236). -/
def State.syncPools (s : State) : State :=
  let part (o : Nat) : Nat := sumN ((upTo 8).map (fun i => s.nat 0x9000 (o + i + 1) % 8 * 8 ^ i))
  (s.setReg 0x20 0x14 (part 0)).setReg 0x20 0x18 (part 8)

/-- A core that enters a pool leaves its work and takes the pool's program; a customer core takes its own when a program starts,
and no program keeps a core that has left its pool (R215, R216, R233). -/
def State.poolEnter (s : State) (c : Nat) : State :=
  let p := s.poolOf c
  let s : State := { s with brew := { s.brew with progs := s.brew.progs.map (fun g => { g with cores := g.cores.filter (· != c) }) } }
  s.modCore c (fun k => { k.idle with prog := if 1 ≤ p ∧ p ≤ 4 then .library p else k.prog })

/-- The cores whose pool differs from that in `old` enter theirs. -/
def State.poolChange (s old : State) : State :=
  (upTo 16).foldl (fun s c => if s.poolOf c ≠ old.poolOf c then s.poolEnter c else s) s

/-- ISEL of an excitation current in µA (R465). -/
def iselOf (ua : Nat) : Nat := if ua = 50 then 0 else if ua = 100 then 1 else if ua = 250 then 2 else if ua = 500 then 3 else 4

/-- BR_CFG of a bridge channel and its enables (R464, R465). -/
def State.syncBridge (s : State) (n : Nat) : State :=
  let o (i : Nat) : Nat := s.nat (0x8010 + n) i
  let s := s.setReg 0x40 (0x200 + 0x10 * n)
    (o 7 % 256 * 2 ^ 24 + o 6 % 1024 * 2 ^ 14 + Nat.log2 (max 1 (o 5)) % 8 * 2 ^ 11 + iselOf (o 3) * 2 ^ 8
      + bit (o 4 == 2500) * 2 + bit (o 2 == 1))
  (s.setRegBit 0x40 0 (3 + n) (o 1 == 1)).setRegBit 0x40 0 (5 + n) (o 0xE == 1)

/-- DDRC_CFG as the stored memory configuration gives it (R289, R497). -/
def State.syncDdrc (s : State) : State :=
  let o (i : Nat) : Nat := s.nat 0x5080 i
  let rate := if o 5 = 2400 then 0 else if o 5 = 2666 then 1 else if o 5 = 2933 then 2 else 3
  let den := if o 4 = 4 then 0 else if o 4 = 8 then 1 else 2
  let ch := if o 1 = 1 then 0 else if o 1 = 2 then 1 else 2
  s.setReg 0x2A 4 (o 8 % 16 * 2 ^ 16 + bit (o 7 == 1) * 2 ^ 12 + o 6 % 16 * 2 ^ 8 + rate * 2 ^ 6 + den * 2 ^ 4
    + bit (o 3 == 1) * 8 + bit (o 2 == 2) * 4 + ch)

/-- A 0-to-1 change of HK_CTRL.ENABLE (R442, R447, R465): the reference settles anew and a self-calibration starts; a
reference on VDDA18 is ready at once. -/
def State.hkEnable (s : State) (on : Bool) : State :=
  if on && !bitOf (s.reg 0x40 0) 0 then
    (s.setRegBit 0x40 0 0 true).modHk (fun h => { h with
      ready := false, again := false, run := .self, selfState := 3, refLost := false, refRdy := s.hkRef == 2 })
  else if !on && bitOf (s.reg 0x40 0) 0 then
    (s.setRegBit 0x40 0 0 false).modHk (fun h => { h with refRdy := false, run := .none, pass := none, inj := none })
  else s

/-- The enables firmware sets once a domain is on (log 64): link agent, cluster, Swash engine, decimation and Lauter bank. RX and
KILN blocks are enabled at their foreground calibration, TX blocks as a port leaves state 0. -/
def State.enableDomain (s : State) (d : Nat) : State :=
  match d with
  | 4 => (s.setReg 0x39 4 (s.node * 2 ^ 16 + s.nat 0x1100 4)).setRegBit 0x39 0 0 true
  | 5 => ((upTo 16).foldl State.poolEnter s.syncPools).setRegBit 0x20 0 0 true
  | 6 => (((s.swashConfig .a).setRegBit 0x12 0x200 0 true).setRegBit 0x12 0x300 0 true).setRegBit 0x12 0x310 0 true
  | 7 => (((s.swashConfig .b).setRegBit 0x13 0x200 0 true).setRegBit 0x13 0x300 0 true).setRegBit 0x13 0x310 0 true
  | _ => s

end Sys2Proof.Machine
end

