-- ==== Sys2Proof/Machine/Epoch.lean ====
section
/-! DEFINITION. The plan check, launch alignment, epochs and the switch of a plan (R25, R36–R43, R348–R353, R357–R370). -/
namespace Sys2Proof.Machine
open Sys2Proof

/-! ## Launch alignment (R361, R362) -/

/-- Twice D̂ of a port in 100 ps: DelayIn + DelayOut, where both are known (R360). -/
def Pair.delays (p : Pair) : Option Nat :=
  match p.delayIn, p.delayOut with
  | some a, some b => some (a + b).toNat
  | _, _ => none

/-- Quantities of R362 as numerators over 320 M range samples: the denominator, D and X. -/
def alignDen (m : Nat) : Nat := 320 * m
def alignD (m delays : Nat) : Nat := 2 * delays * m
def alignX (p : Nat) : Nat := 40000000 * p

/-- ρ = 2 D mod X, over `alignDen`. -/
def alignRho (p m delays : Nat) : Nat := 2 * alignD m delays % alignX p

/-- The alignment passes: ρ lies in 16 to 2 (B − C − 8) (R362). -/
def alignOk (p m c b delays : Nat) : Bool :=
  let r := alignRho p m delays
  decide (16 * alignDen m ≤ r) && decide (r ≤ 2 * (b - c - 8) * alignDen m)

/-- LaunchOffset of the east end (R362); the west end's is 0. -/
def alignPhi (p m delays : Nat) : Nat :=
  let den := alignDen m
  let x := ((((alignRho p m delays / 2 : Nat) : Int) - alignD m delays) % (alignX p : Nat)).toNat
  let r := (2 * x + den) / (2 * den)
  let fx := alignX p / den
  if fx ≤ r then r - fx else r

/-- The range sample at which the far pulse begins in a near launch, over `alignDen` (R362). -/
def alignA (p m delays near far : Nat) : Nat :=
  ((((far * alignDen m : Nat) : Int) + (alignD m delays : Nat) - (near * alignDen m : Nat)) % (alignX p : Nat)).toNat

/-- AlignSuggest: the largest M not above the pending one for which the alignment passes, 0 if none (R362). -/
def alignSuggest (p m c b delays : Nat) : Nat :=
  (((upTo m).reverse.map (· + 1)).find? (fun k => alignOk p k c b delays)).getD 0

/-- The trunk on a port's side: the west neighbour for port A, the east one for port B (R357). -/
def portSide : Port → Side
  | .a => .w
  | .b => .e

/-! ## The pilot's frame (R58) -/

/-- The `n` bits of a number, most significant first. -/
def msbBits (n v : Nat) : List Bool := (upTo n).map (fun i => v.testBit (n - 1 - i))

/-- The number that bits spell, most significant first. -/
def bitsNat (l : List Bool) : Nat := l.foldl (fun n b => 2 * n + bit b) 0

/-- One bit into a CRC-16 of polynomial 0x1021. -/
def crc16Bit (c : Nat) (b : Bool) : Nat :=
  let top := c.testBit 15 != b
  let c := 2 * c % 65536
  if top then c ^^^ 0x1021 else c

/-- CRC-16 over symbols: polynomial 0x1021, initial value 0xFFFF, no final inversion. -/
def crc16 (l : List Bool) : Nat := l.foldl crc16Bit 0xFFFF

/-- DelayIn as objects, registers and the pilot carry it (R360). -/
def Pair.delayInWord (p : Pair) : Nat := match p.delayIn with
  | some d => ofSigned 32 d
  | none => 0xFFFFFFFF

/-- The 168 symbols of a port's pilot frame of the present Tide (R58). -/
def State.pilotFrame (s : State) (q : Port) : List Bool :=
  let pr := (s.port q).pair
  let flags := bit s.timeFree + 2 * bit (pr.state == 4) + 4 * bit (s.pn q 0x2100 7 == 1)
  let body := msbBits 16 (Port.num q * 2 ^ 15 + s.node) ++ msbBits 48 s.tide.num ++ msbBits 16 s.tide.epoch
    ++ msbBits 32 pr.delayInWord ++ msbBits 8 flags
  msbBits 32 0xE25A9D36 ++ body ++ msbBits 16 (crc16 body)

/-- Something takes effect for a port at the present edge: an epoch, a takeover, a yield. -/
def State.edgeDue (s : State) (q : Port) : Bool :=
  let due (t : Option Nat) : Bool := t.elim false (fun t => decide (t ≤ s.tide.num))
  let pr := (s.port q).pair
  due (s.chain.pend.map (·.tide)) || due pr.takeAt || due pr.yieldAt

/-- A port's frame of this Tide goes out once nothing more takes effect at its edge, while the DACs carry the pilot (R57,
R58). -/
def State.pilotDue (s : State) (q : Port) : State :=
  if (s.port q).pair.pilotOwed && !s.edgeDue q then
    let s := s.modPort q (fun ps => { ps with pair := { ps.pair with pilotOwed := false } })
    if s.pilotSent q then
      let f := s.pilotFrame q
      (s.modPort q (fun ps => { ps with pair := { ps.pair with pilotSyms := f } })).emit (.pilot q f)
    else s
  else s

/-- The same of both ports. -/
def State.pilotsDue (s : State) : State := (s.pilotDue .a).pilotDue .b

/-- A Tide edge at a port's pilot: its frame is owed. -/
def State.pilotEdge (s : State) (q : Port) : State :=
  (s.modPort q (fun ps => { ps with pair := { ps.pair with pilotOwed := true, pilotSyms := [] } })).pilotDue q

/-! ## The plan check (R36, R116, R145, R242, R365) -/

/-- Codes 1 to 9 with what R116 and R145 add to code 9. -/
def planCode9 (get : Nat → Nat → Nat) (q : Port) (v : PlanV) : Nat :=
  let c := planCode v
  let far (ch : Nat) : Bool :=
    let d (i : Nat) : Nat := get (decIndex q ch) i
    d 1 == 1 && decide (v.n - 1 < d 3 + (d 5 - 1) * d 4)
  if c ≠ 0 then c else if v.w - 1 < v.refStart + v.refLen - 1 + v.g ∨ far 0 ∨ far 1 then 9 else 0

/-- The first failing code of a port's takeover plan (R365). -/
def takeoverCode (get : Nat → Nat → Nat) (q : Port) : Nat := planCode9 get q (takeoverOf get q (planOf get q))

/-- A pilot offset in kHz lies within 20 MHz of the alias of a Kiln tone (R59). -/
def nearAlias (khz : Nat) (ofs : Int) : Bool :=
  let alias_ : Int := (khz : Int) - (if khz < 1875000 then 1250000 else 2500000)
  decide ((alias_ - ofs).natAbs ≤ 20000)

/-- PairPlanResult of a port (R365). -/
def State.pairCode (s : State) (get : Nat → Nat → Nat) (q : Port) : Nat :=
  let o (i : Nat) : Nat := get (portIndex q 0x7010) i
  let pr := (s.port q).pair
  let v := planOf get q
  if o 1 = 0 then 0 else
    match pr.partner with
    | none => 1
    | some f =>
      let ofs := toSigned 32 (get (portIndex q 0x2100) 0x16)
      let tone := get (portIndex q 0x4010) 2
      if o 2 = 0 ∨ (s.link (portSide q)).peer ≠ o 2 ∨ f.names ≠ s.node ∨ f.mode ≠ o 1 then 1
      else if f.p ≠ v.p ∨ f.m ≠ v.m ∨ f.mask ≠ v.mask ∨ f.c ≠ v.c ∨ f.b ≠ v.b then 2
      else if o 1 = 2 ∧ ¬ (pr.delays.isSome ∧ s.farPresent q ∧ pr.partnerPilot) then 3
      else if v.b < v.c + 16 then 4
      else if o 1 = 2 ∧ ¬ alignOk v.p v.m v.c v.b (pr.delays.getD 0) then 5
      else if 124000 < v.w + v.c ∨ 124000 < f.w + f.c then 6
      else if takeoverCode get q ≠ 0 ∨ f.takeCode ≠ 0 then 7
      else if decide (0 < ofs) = decide (0 < f.ofs) ∨ (get (portIndex q 0x4010) 1 = 1 ∧ (nearAlias tone ofs ∨ nearAlias tone f.ofs)) then 8
      else 0

/-- A view in which a paired port whose takeover plan writes at the larger rate has that plan (R365). -/
def largerView (get : Nat → Nat → Nat) (idx sub : Nat) : Nat :=
  let over_ (q : Port) : Nat → Nat → Nat := fun i k =>
    if i = portIndex q 0x2010 ∧ k = 1 then get (portIndex q 0x7010) 6
    else if i = portIndex q 0x2010 ∧ k = 3 then get (portIndex q 0x7010) 7
    else if i = portIndex q 0x3100 ∧ k = 3 then get (portIndex q 0x7010) 8
    else get i k
  let larger (q : Port) : Bool :=
    let a := portRate get q
    let b := portRate (over_ q) q
    get (portIndex q 0x7010) 1 != 0 && decide (a.n * b.d < b.n * a.d)
  let q : Port := if idx = 0x2010 ∨ idx = 0x3100 then .a else .b
  if [0x2010, 0x3100, 0x2020, 0x3200].contains idx && larger q then over_ q idx sub else get idx sub

/-- Code 11 (R242): the Cellar check, with the larger rate of the split plan and the takeover plan (R365). -/
def State.cellarVerdict (s : State) (get : Nat → Nat → Nat) (q : Port) : Nat :=
  let c := s.cellarCode get q
  if c ≠ 0 then c
  else if bothPorts.any (fun r => get (portIndex r 0x7010) 1 != 0) && s.cellarCode (largerView get) q == 4 then 4 else 0

/-- The plan check of R36 over a view, in the order of its codes: its results are shown, and its code answered. The check
that a prepare runs shows its results in PlanResult and PortRate as PlanCheck does (DESIGN CHOICE, log 109). -/
def State.checkPlan (s : State) (get : Nat → Nat → Nat) (q : Port) : Nat × State :=
  let v := planOf get q
  let s := s.modPort q (fun ps => { ps with portRate := (portRate get q).ceil })
  let done (s : State) (c : Nat) : Nat × State := (c, s.modPort q (fun ps => { ps with planResult := c }))
  let c9 := planCode9 get q v
  if c9 ≠ 0 then done s c9 else
    let k := kilnCode get q
    let s := s.modPort q (fun ps => { ps with kilnResult := k })
    if k ≠ 0 then done s 10 else
      let c := s.cellarVerdict get q
      let s := s.modPort q (fun ps => { ps with cellarResult := c })
      if c ≠ 0 then done s 11 else
        let p := s.pairCode get q
        let suggest (x : Pair) : Nat := match x.delays with
          | some d => if get (portIndex q 0x7010) 1 = 2 then alignSuggest v.p v.m v.c v.b d else x.suggest
          | none => x.suggest
        let s := s.modPort q (fun ps => { ps with pairResult := p, pair := { ps.pair with suggest := suggest ps.pair } })
        if p ≠ 0 then done s 12 else done s (if s.portEn q then 0 else 13)

/-- PlanCheck (R36, R39): the pending plan is checked, and the interval, tail, rates are computed from it. LaunchInterval
is P / M rounded to the nearest picosecond, half up (DESIGN CHOICE, log 110: the rule gives no rounding). A tail below 0 has
no value in the spec: free. -/
def State.runPlanCheck (s : State) (q : Port) : State :=
  let get := s.pnat
  let v := planOf get q
  let (f, s) := s.takeFree
  let (_, s) := s.checkPlan get q
  let need := v.w + v.c
  s.modPort q (fun ps => { ps with
    chkInterval := (2 * v.p * 1000000000 + v.m) / (2 * max 1 v.m)
    chkTail := if need ≤ reuse v then reuse v - need else f % 2 ^ 32
    chkRate := Num.ofRatio (1000 * v.m) (max 1 v.p) })

/-- Class 3 rate that a plan sends to the trunks, kbit/s: decimated records and Kiln profiles with the trunk as a
destination (R162, R197, R353). -/
def trunkRate (get : Nat → Nat → Nat) : Nat :=
  sumN (bothPorts.map (fun q =>
    let v := planOf get q
    let dec (ch : Nat) : Nat :=
      let d (i : Nat) : Nat := get (decIndex q ch) i
      if d 1 = 1 ∧ bitOf (d 6) 2 then ceilDiv (8 * v.m * (32 + 4 * d 5)) (max 1 v.p * presetD (d 2)) else 0
    let kn (i : Nat) : Nat := get (portIndex q 0x4010) i
    let kiln := if kn 1 = 1 ∧ bitOf (kn 0xC) 3 then
      ceilDiv (8 * v.m * (48 + 12 * kilnBins (kn 5 == 16) v.w)) (max 1 v.p * max 1 (slotsOf v.mask).length * 2 ^ kn 6) else 0
    dec 0 + dec 1 + kiln))

/-- A pool that serves an enabled function has no core (R215). -/
def poolShort (get : Nat → Nat → Nat) : Bool :=
  let has (p : Nat) : Bool := (upTo 16).any (fun c => get 0x9000 (c + 1) == p)
  (get 0x6010 1 == 1 && !has 1) || (get 0x6020 1 == 1 && !has 2)
    || ((get 0x6030 1 == 1 || get 0x6040 1 == 1) && !has 3) || ((get 0x4010 1 == 1 || get 0x4020 1 == 1) && !has 4)

/-- A view carries a plan for a port: always where its PORTEN strap is high; where it is low, once an object of its plan, GroupIndex
among them, differs from the one in force in more than the Tide period (R349, log 60). -/
def State.carriesPlan (s : State) (get : Nat → Nat → Nat) (q : Port) : Bool :=
  let idx := portIndex q 0x2010
  s.portEn q || { planOf get q with p := 0 } != { planOf s.nat q with p := 0 } || get idx 8 != s.nat idx 8

/-- A node's checks of a prepare (R349): code and port of the first failure, over the ports for which it carries a plan. -/
def State.nodeCheck (s : State) (get : Nat → Nat → Nat) : (Nat × Nat) × State :=
  let r := bothPorts.foldl (fun (a : (Nat × Nat) × State) q =>
    if a.1.1 ≠ 0 ∨ ¬ a.2.carriesPlan get q then a else
      let (c, s) := a.2.checkPlan get q
      ((c, if c = 0 then 0 else Port.num q), s)) ((0, 0), s)
  if r.1.1 ≠ 0 then r else if poolShort get then ((36, 0), r.2) else ((0, 0), r.2)

/-! ## The switch of a plan (R42, R43, R135, R156, R184, R213, R226, R240, R253, R459) -/

/-- What a change of a port's plan in force brings about at the edge of T, `old` being the state before it. -/
def State.planSwitch (s old : State) (q : Port) : State :=
  let v := s.plan q
  let w := old.plan q
  let s := (s.restartAll q .full).clearHistories q
  let s := ((s.lauterCoefs q).detSize q).detChange q s.tide.edges true
  let s := ((s.kilnCommit q true (old.kilnOn q)).swashConfig q).rxConfig q
  let s := if (old.port q).hasPlan ∧ (v.p ≠ w.p ∨ v.m ≠ w.m) then s.planMarker q else s.newRun q false
  let s := (upTo 16).foldl (fun s d =>
    let k := s.cap d
    if k.both ∨ k.port = q then s.cutFill d else s) s
  s.modPort q (fun ps => { ps with
    rx := { ps.rx with cal := { ps.rx.cal with prev := none }, kCal := { ps.rx.kCal with prev := none }
                       windows := List.replicate 8 0, kWindows := 0, prev := List.replicate 8 none }
    -- a run that spans the Tide in which R42 suppressed launches is abandoned too (R460)
    trim := { ps.trim.test (dacWindow v) with prev := none }, gaps := 0 })

/-- A port drops from states 4 to 6 to Ready (R77): its launches end. -/
def State.dropReady (s : State) (q : Port) : State :=
  let o := (s.port q).opt
  if 4 ≤ o.state ∧ o.state ≤ 6 then s.modOpt q (fun o => { o with state := 3, pump := 0, atSet := false }) else s

/-- The keys at which the values in force of epoch-applied objects differ between two states. -/
def changedKeys (old new : State) : List Nat :=
  ((old.activeSnap.map (·.1)) ++ (new.activeSnap.map (·.1))).eraseDups.filter (fun k =>
    old.obj (k / 256) (k % 256) != new.obj (k / 256) (k % 256))

/-- LaserFollow of a port (R358): the port faces the acting manager; in a ring with separate lasers the east end of the
span whose ends both face away follows too. -/
def State.wouldFollow (s : State) (q : Port) : Bool :=
  let toward (d : Side) : Bool := s.chain.acting != s.node && s.chain.acting != 0
    && s.chain.dirs.any (fun e => e.1 == s.chain.acting && e.2 == sidePort d)
  toward (portSide q) || (s.inRing && !s.laserShare && q == .a && !toward .w
    && ((s.port q).pair.partner.map (fun f => !f.faces)).getD false && (s.chain.acting != s.node || s.chain.acting == 0))

/-- The port's side faces the acting manager. -/
def State.faces (s : State) (q : Port) : Bool :=
  s.chain.acting != s.node && s.chain.dirs.any (fun e => e.1 == s.chain.acting && e.2 == sidePort (portSide q))

/-- A commit at a port's pairing (R357, R358, R369, R370). -/
def State.commitPair (s : State) (e : EpochPend) (q : Port) : State :=
  let mode := s.pn q 0x7010 1
  let restored := e.restore.contains (s.node, Port.num q)
  let s := s.modPair q (fun p =>
    let st := if mode = 0 then 0 else if mode = 1 then 1 else if p.state < 2 ∨ restored then 2 else p.state
    { p with state := st, takeAt := if mode = 2 ∧ ¬ restored then p.takeAt else none
             yieldAt := if mode = 2 ∧ ¬ restored then p.yieldAt else none })
  -- without pairing there is no far pilot, and nothing is measured of one (R359, R360, R375)
  let s := if mode = 0 then s.modPair q (fun p => { p with
    present := false, goodRun := 0, arrivals := [], cold := [], delayOut := none, skewRaised := false, farTaken := false
    farFollows := false }) else s
  let flag (b : Bool) : List Byte := [BitVec.ofNat 8 (bit b)]
  ((s.setObj (portIndex q 0x2100) 7 (flag (mode != 0 && s.wouldFollow q))).setObj (portIndex q 0x2100) 0x17 (flag (mode != 0))).endSweep q

/-- A channel whose preset changed takes the default bank as both banks, bank A active (R153); outputs of launches before the edge
finish on what was there. -/
def State.freshBanks (s : State) (q : Port) (c : Nat) : State :=
  ((s.modDec q c (fun d => { d with
    past := some (s.tide.edge, d.asPast), bankA := [], bankB := [], active := 0, want := none, swapLog := [] })).setObj
    (decIndex q c) 8 [0]).setRegBit (winRx q) 0x300 (8 + c) false

/-- A commit at one port: `old` is the state before it, `ck` the keys that changed. -/
def State.commitPort (old : State) (e : EpochPend) (ck : List Nat) (s : State) (q : Port) : State :=
  let s := s.commitPair e q
  if s.portEn q then
    let first := !(s.port q).hasPlan
    let s := s.modPort q (fun ps => { ps with hasPlan := true })
    let idx (i : Nat) : Bool := ck.any (fun k => k / 256 == portIndex q i)
    let sub (i : Nat) (l : List Nat) : Bool := l.any (fun j => ck.contains (objKey (portIndex q i) j))
    let chg := first || planKey old.nat (old.tookOver q) q != planKey s.nat (s.tookOver q) q
    let s := if chg then s.planSwitch old q else s
    let s := if sub 0x3100 [1, 2, 3, 4, 5, 0xB] then (s.restartAll q .full).swashConfig q else s
    let s := if sub 0x2100 [0x60, 0x69] then s.rxConfig q else s
    -- decimation channels (R153, R156)
    let dec (s : State) (c : Nat) : State :=
      let has (l : List Nat) : Bool := l.any (fun j => ck.contains (objKey (decIndex q c) j))
      let s := if has [1, 2, 3, 4, 5] then s.modPort q (fun ps => { ps with clr :=
        if c = 0 then { ps.clr with dec0 := true } else { ps.clr with dec1 := true } }) else s
      if has [2] then s.freshBanks q c else s
    let s := dec (dec s 0) 1
    -- the Lauter bank (R163, R164, R167)
    let was := old.pn q 0x3130 2
    let is := s.pn q 0x3130 2
    let bands := (upTo 8).filter (fun b => bitOf is b && (!bitOf was b || sub 0x3131 [2 * b + 1, 2 * b + 2]))
    let laut := idx 0x3130 || idx 0x3131
    let s := if laut then s.lauterCoefs q else s
    let s := s.modPort q (fun ps => { ps with clr := { ps.clr with bands := bands.foldl (fun n b => n ||| 2 ^ b) ps.clr.bands } })
    -- detection and tracking (R213, R226, R230)
    let s := if laut ∨ idx 0x6010 then (s.detSize q).detChange q s.tide.edges true
      else if sub 0x3100 [3] then (s.detSize q).detChange q s.tide.edges false else s
    let s := s.trkDrop q (old.trkOn q)
    -- the Kiln engine (R184, R187); its zones count as its objects
    let zone := ck.any (fun k => k / 256 / 64 == (match q with | .a => 0x4100 / 64 | .b => 0x4200 / 64))
    let s := if chg then s else s.kilnCommit q (idx 0x4010 || zone) (old.kilnOn q)
    -- the calibration windows (R459)
    let s := s.modPort q (fun ps => { ps with trim := ps.trim.test (dacWindow (s.plan q)) })
    (if s.pn q 0x7010 1 = 1 then s.dropReady q else s).tryRamp q
  else s

/-! ## Epochs (R348–R353) -/

/-- This node rules its epochs: the acting manager, or a standalone Y9 (R335, R348). -/
def State.rules (s : State) : Bool := s.chain.iAct || s.role == 0

/-- Take a snapshot's values into force. -/
def State.takeSnap (s : State) (snap : List (Nat × List Byte)) : State :=
  let rest := s.od.act.filter (fun e => !epochKey e.1)
  let act := snap.foldl (fun l e => insertKey e.1 e.2 l) rest
  { s with od := { s.od with act := act } }

/-- The Tide number goes on under a new period from T × P_old / P_new (R25). -/
def State.renumber (s old : State) : State :=
  let p := s.nat 0x2000 1
  let w := old.nat 0x2000 1
  if p = w then s else { s with tide := { s.tide with num := s.tide.num * w / max 1 p } }

/-- The pending epoch applies (R350, R351). -/
def State.applyEpoch (s : State) (e : EpochPend) : State :=
  let old := s
  let s := s.takeSnap e.snap
  let s := s.renumber old
  let s : State := { s with tide := { s.tide with epoch := e.num } }
  let s := s.modChain (fun c => { c with pend := none, result := if old.rules then 0 else c.result, awaiting := [], carried := {}
                                         images := c.accepted.foldl (fun l x => insertKey x.1 x.2 l) c.images, accepted := [] })
  let ck := changedKeys old s
  let rings := ck.any (fun k => k / 256 == 0x5010 || k / 256 == 0x5020)
    || bothPorts.any (fun q => s.portEn q && !(s.port q).hasPlan)
  let s := if rings then s.ringAlloc else s
  let s := if ck.any (fun k => k / 256 == 0x9000) then s.syncPools.poolChange old else s
  let s := bothPorts.foldl (State.commitPort old e ck) s
  let s := if e.handBack = 0 then s
    else if e.handBack = s.node then s.becomeManager
    else if s.chain.iAct then s.leaveManager e.handBack else s
  s.raise stTide [3]

/-- EPOCH_APPLY: the edge of T has come, or a slip has passed it (R28, R350). The pilots' frames that waited for it
go out (R58). -/
def execEpochApply (s : State) : Host.Outcome State Fault Refusal :=
  match s.chain.pend with
  | some e => if s.up && s.tide.running && decide (e.tide ≤ s.tide.num) then .next (s.applyEpoch e).pilotsDue else .next s
  | none => .next s

/-- What a prepare carries (R349, R352, R386, R347, R369), with the manager's EpochGuard, a worker's own having no effect (R373). -/
structure Prep where
  num : Nat
  tide : Nat
  period : Nat
  change : Bool
  handBack : Nat
  restore : List (Nat × Nat)
  guard : Nat
  images : List (Nat × List (Nat × List Byte))

/-- A prepare as a frame's fields carry it (log 13). -/
def Prep.fields (p : Prep) : List Nat :=
  [p.num, p.tide, p.period, bit p.change, p.handBack, p.restore.length, p.guard] ++ p.restore.flatMap (fun e => [e.1, e.2])
    ++ p.images.flatMap (fun e => let f := snapFields e.2; [e.1, f.length] ++ f)

/-- The images that fields spell, at most `fuel`. -/
def fieldsImages : Nat → List Nat → List (Nat × List (Nat × List Byte))
  | fuel + 1, node :: n :: rest => (node, fieldsSnap n (rest.take n)) :: fieldsImages fuel (rest.drop n)
  | _, _ => []

/-- Pairs that fields spell. -/
def fieldsPairs : List Nat → List (Nat × Nat)
  | a :: b :: rest => (a, b) :: fieldsPairs rest
  | _ => []

/-- The prepare that fields spell. -/
def fieldsPrep (f : List Nat) : Prep :=
  let n := f.getD 5 0
  let rest := f.drop 7
  { num := f.getD 0 0, tide := f.getD 1 0, period := f.getD 2 0, change := f.getD 3 0 == 1, handBack := f.getD 4 0
    restore := fieldsPairs (rest.take (2 * n)), guard := f.getD 6 0, images := fieldsImages rest.length (rest.drop (2 * n)) }

/-- A full image replaces the pending values (R352, R393). -/
def State.takeImage (s : State) (img : List (Nat × List Byte)) : State :=
  let old := ((s.activeSnap ++ s.od.pend.filter (fun e => epochKey e.1)).map (·.1)).eraseDups.filter (fun k =>
    !img.any (fun e => e.1 == k))
  let pend := s.od.pend.filter (fun e => !epochKey e.1)
  let dflt := old.map (fun k => (k, objDefault s.power.straps s.nodeHigh (k / 256) (k % 256)))
  let pend := (img ++ dflt).foldl (fun l e => insertKey e.1 e.2 l) pend
  { s with od := { s.od with pend := pend } }

/-- The start of Tide `t` under the period in force is a whole multiple of a new period (R25). -/
def State.commonEdge (s : State) (t pNew : Nat) : Bool := pNew == s.period || t * s.period % max 1 pNew == 0

/-- A node takes a prepare (R349): its snapshot or image, with the carried period in place of its own (R386), becomes its pending
epoch, and its checks answer. -/
def State.takePrepare (s : State) (p : Prep) : (Nat × Nat) × State :=
  let carried := insertKey (objKey 0x2000 1) (leBytes 1 p.period)
  let img := (lookup s.node p.images).map carried
  let s := match img with
    | some i => s.takeImage i
    | none => s
  let snap := img.getD (carried (if p.change then s.pendSnap else s.activeSnap))
  let (c, s) := s.nodeCheck (s.snapView snap)
  if c.1 ≠ 0 then (c, s)
  -- a period whose edge is not common is refused (R25); the code is the period's own, 1 (DESIGN CHOICE, log 111)
  else if ¬ s.commonEdge p.tide p.period then ((1, 0), s)
  else (c, s.modChain (fun x => { x with pend := some ⟨p.num, p.tide, snap, img.isSome, p.period, p.handBack, p.restore⟩ }))

/-- What the pending epoch carries is to be carried by the next (R347, R352, R363, R369). -/
def Chain.recall (c : Chain) : Chain :=
  let k := c.carried
  { c with
    resync := k.resync ++ c.resync.filter (fun n => !k.resync.contains n)
    realign := k.realign ++ c.realign.filter (fun q => !k.realign.contains q)
    spans := k.spans ++ c.spans.filter (fun x => !k.spans.any (fun y => y.west == x.west && y.east == x.east))
    ahead := if c.ahead.isSome then c.ahead else k.ahead
    restore := k.restore ++ c.restore.filter (fun e => !k.restore.contains e)
    giveBack := if c.giveBack = 0 then k.giveBack else c.giveBack, carried := {} }

/-- The manager cancels the pending epoch (R350); what it was to bring about stays to be done. -/
def State.cancelEpoch (s : State) (num result refuser : Nat) : State :=
  ((s.originate 0 0x12 0 [num] []).modChain (fun c => { c.recall with
    pend := none, awaiting := [], accepted := [], result := result, refuser := refuser })).raise stChn [3]

/-- A dictionary write of a LaunchOffset to a node (R362, R387): service 0x02 in a frame of type 0x50. -/
def State.writeOffset (s : State) (node : Nat) (q : Port) (phi : Nat) : State :=
  if node = s.node then (s.invalidate (portIndex q 0x2010) 7).setPend (portIndex q 0x2010) 7 (leBytes 4 phi)
  else
    let b := leBytes 1 2 ++ zeros 1 ++ leBytes 2 s.od.fwdCount ++ leBytes 2 (portIndex q 0x2010) ++ leBytes 1 7 ++ zeros 1
      ++ zeros 4 ++ leBytes 2 4 ++ leBytes 2 node ++ leBytes 4 phi
    let s : State := { s with od := { s.od with fwdCount := (s.od.fwdCount + 1) % 65536 } }
    s.originate 0 0x50 node [] b

/-- The manager aligns a pair at a prepare that sets PairMode 2 (R362): φ_w = 0 at port B of the west end, φ_e at port A of
the east end. A pair whose alignment fails is left to the check. -/
def State.alignSpan (s : State) (x : SpanInfo) : State :=
  if 0 < x.m ∧ 0 < x.p ∧ alignOk x.p x.m x.c x.b x.delays then
    (s.writeOffset x.west .b 0).writeOffset x.east .a (alignPhi x.p x.m x.delays)
  else s

/-- A prepare aligns a port's pair (R362, R363, R369): it sets PairMode 2, changes P, M, C or B, or the pair is to be realigned
or restored. -/
def State.alignDue (s : State) (q : Port) : Bool :=
  let v := planOf s.nat q
  let n := planOf s.pnat q
  s.nat (portIndex q 0x7010) 1 != 2 || n.p != v.p || n.m != v.m || n.c != v.c || n.b != v.b
    || s.chain.realign.contains q || s.chain.restore.contains (s.node, Port.num q)

/-- The manager's own paired ports that a prepare aligns, as spans. -/
def State.ownSpans (s : State) : List SpanInfo :=
  bothPorts.filterMap (fun q =>
    let v := planOf s.pnat q
    let far := s.pnat (portIndex q 0x7010) 2
    match (s.port q).pair.delays with
    | some d =>
      if s.pnat (portIndex q 0x7010) 1 = 2 ∧ s.role ≠ 0 ∧ s.alignDue q then
        some (match q with
          | .a => ⟨far, s.node, v.p, v.m, v.c, v.b, d⟩
          | .b => ⟨s.node, far, v.p, v.m, v.c, v.b, d⟩)
      else none
    | none => none)

/-- The manager starts an epoch (R348, R349, R352): alignment, the prepare to every present node, its own checks. `change`
is false for an epoch that only resynchronises; it too carries the pending period (R386). -/
def State.startEpoch (s : State) (lead : Nat) (change : Bool) (spans : List SpanInfo) : State :=
  let own := s.ownSpans
  let far := (spans ++ s.chain.spans).filter (fun x => !own.any (fun y => y.west == x.west && y.east == x.east))
  let s := if change then (own ++ far).foldl State.alignSpan s else s
  let c := s.chain
  let p : Prep :=
    { num := (c.ahead.getD s.tide.epoch + 1) % 65536, tide := s.tide.num + lead
      period := s.pnat 0x2000 1, change := change, handBack := c.giveBack
      restore := c.restore, guard := s.nat 0x7000 6, images := c.images.filter (fun e => c.resync.contains e.1) }
  let s := s.originate 0 0x10 0 p.fields []
  let s := s.modChain (fun c => { c with
    carried := ⟨c.resync, c.realign, spans ++ c.spans, c.ahead, c.restore, c.giveBack⟩
    resync := [], restore := [], realign := [], spans := [], ahead := none, giveBack := 0, accepted := []
    awaiting := c.nodes.map (·.node), loadW := 0, loadE := 0 })
  let (r, s) := s.takePrepare p
  if r.1 ≠ 0 then s.cancelEpoch p.num r.1 (r.2 * 2 ^ 15 + s.node) else s

/-- A write to EpochRequest (R348): status of R394, and the state. A request while no Tide runs is refused with the state
error (log 61). -/
def State.epochRequest (s : State) (lead : Nat) (spans : List SpanInfo) : Nat × State :=
  let lead := if lead = 0 then s.nat 0x7000 5 else lead
  let guard := s.nat 0x7000 6
  let t := s.tide.num + lead
  let pNew := s.pnat 0x2000 1
  if ¬ s.rules ∨ ¬ s.tide.running ∨ s.chain.pend.isSome ∨ lead < guard + 2
      ∨ guard * s.period * 1000 < 2 * s.chain.latency + 1000 then (8, s)
  else if ¬ s.commonEdge t pNew then (7, s)
  else (0, s.startEpoch lead true spans)

/-- A prepare arrives at a present node (R349, R350). -/
def execPrepare (inp : LinkPort) (f : Frame) (s : State) : Host.Outcome State Fault Refusal :=
  if s.up && s.carries inp then
    let (pass, s) := s.ingress inp f
    if pass then
      let s := s.forward inp f
      if s.originates && s.takes f && !s.chain.iAct && s.chain.state == 2 then
        let p := fieldsPrep f.fields
        let answer (s : State) (ok : Bool) (c : Nat × Nat) (rate : Nat) (snap : List (Nat × List Byte)) : State :=
          s.originate 0 0x11 f.src ([p.num, bit ok, c.2, c.1, rate] ++ snapFields snap) []
        if f.src ≠ s.chain.acting then .next (answer s false (32, 0) 0 [])
        else if p.tide ≤ s.tide.num + p.guard then .next (answer s false (33, 0) 0 [])
        else
          let (c, s) := s.takePrepare p
          let snap := (s.chain.pend.map (·.snap)).getD []
          .next (answer s (c.1 = 0) c (if c.1 = 0 then trunkRate (s.snapView snap) else 0) (if c.1 = 0 then snap else []))
      else .next s
    else .next s
  else .next s

/-- An acknowledgement arrives (R350, R353): a refusal cancels at once; accepted rates are totalled along the trunk they
reach the manager by (log 59). -/
def execAcknowledgement (inp : LinkPort) (f : Frame) (s : State) : Host.Outcome State Fault Refusal :=
  if s.up && s.carries inp then
    let (pass, s) := s.ingress inp f
    if pass then
      let s := s.forward inp f
      let e := f.fields.getD 0 0
      let mine := s.chnOn && s.takes f && s.chain.iAct && s.chain.awaiting.contains f.src
        && (s.chain.pend.map (·.num)) == some e
      if mine then
        if f.fields.getD 1 0 = 1 then
          let rate := f.fields.getD 4 0
          let s := s.modChain (fun c => { c with
            awaiting := c.awaiting.filter (· != f.src)
            accepted := insertKey f.src (fieldsSnap f.fields.length (f.fields.drop 5)) c.accepted
            loadW := if inp = .w then c.loadW + rate else c.loadW
            loadE := if inp = .e then c.loadE + rate else c.loadE })
          let lim := 1000 * s.nat 0x7000 0xE
          .next (if lim < s.chain.loadW ∨ lim < s.chain.loadE then s.cancelEpoch e 34 s.chain.refuser else s)
        else .next (s.cancelEpoch e (f.fields.getD 3 0) (f.fields.getD 2 0 * 2 ^ 15 + f.src))
      else .next s
    else .next s
  else .next s

/-- A cancel arrives (R350): for the pending epoch it ends it; for any other it is ignored. -/
def execCancel (inp : LinkPort) (f : Frame) (s : State) : Host.Outcome State Fault Refusal :=
  if s.up && s.carries inp then
    let (pass, s) := s.ingress inp f
    if pass then
      let s := s.forward inp f
      -- a cancel counts where it comes before the edge of T (R350, R351)
      if s.chnOn && s.takes f && s.chain.pend.any (fun e => e.num == f.fields.getD 0 0 && decide (s.tide.num < e.tide)) then
        .next ((s.modChain (fun c => { c with pend := none })).raise stChn [3])
      else .next s
    else .next s
  else .next s

/-- The edge of T − EpochGuard passes without every answer (R350). -/
def execEpochAnswerDeadline (s : State) : Host.Outcome State Fault Refusal :=
  match s.chain.pend with
  | some e =>
    if s.up && s.chain.iAct && !s.chain.awaiting.isEmpty && decide (e.tide ≤ s.tide.num + s.nat 0x7000 6)
        && decide (s.tide.num < e.tide) then
      .next (s.cancelEpoch e.num 35 s.chain.refuser)
    else .next s
  | none => .next s

/-- An epoch that the manager starts of its own, with the default lead: where a new period is pending it waits for a Tide
whose target is a common multiple (R25, log 111). -/
def State.ownEpoch (s : State) (change : Bool) (spans : List SpanInfo) : State :=
  let lead := s.nat 0x7000 5
  if s.commonEdge (s.tide.num + lead) (s.pnat 0x2000 1) then s.startEpoch lead change spans else s

/-- The manager starts an epoch of its own (R352, R363, R347): for nodes to be resynchronised, a pair to be realigned, or
the role to be handed back; after a meeting of two managers once a status request has been answered (log 181). `spans` are those of
other nodes that have left their alignment, beside those that they have said so of. -/
def execResynchronise (spans : List SpanInfo) (s : State) : Host.Outcome State Fault Refusal :=
  let c := s.chain
  let change := !c.realign.isEmpty || !c.restore.isEmpty || !spans.isEmpty || !c.spans.isEmpty
  if s.up && c.iAct && s.tide.running && c.pend.isNone && (c.ahead.isNone || c.meet == 0)
      && (change || !c.resync.isEmpty || c.giveBack != 0) then
    .next (s.ownEpoch change spans)
  else .next s

end Sys2Proof.Machine
end

