-- ==== Sys2Proof/Machine/Mailbox.lean ====
section
/-! DEFINITION. Mailboxes and semaphores (R432–R436, R438). -/
namespace Sys2Proof.Machine
open Sys2Proof

/-- Change the mailboxes. -/
def State.modMbox (s : State) (f : Mbox → Mbox) : State := { s with mbox := f s.mbox }

/-- The initiator of an endpoint (R432); that of the cluster controller port has no number in the spec (log 67). -/
def mbInit (e : Nat) : Nat := [0, 1, 2, 3, 4, 26, 21, 22, 23].getD e 32

/-- A private channel and an endpoint. -/
def State.chan (s : State) (src dst : Nat) : Chan := s.mbox.chans.getD (9 * src + dst) {}
def State.modChan (s : State) (src dst : Nat) (f : Chan → Chan) : State :=
  s.modMbox (fun m => { m with chans := modAt m.chans (9 * src + dst) f })
def State.endPt (s : State) (e : Nat) : EndPt := s.mbox.ends.getD e {}
def State.modEnd (s : State) (e : Nat) (f : EndPt → EndPt) : State :=
  s.modMbox (fun m => { m with ends := modAt m.ends e f })

/-- PEND AND MASK (R435). -/
def EndPt.irq (e : EndPt) : Bool := (e.bells.mask &&& e.mask) != 0

/-- The doorbell interrupt of PCIEH rose: vector 9 (R422, R435; log 68). -/
def State.bellIrq (s old : State) : State :=
  if !(old.endPt 6).irq && (s.endPt 6).irq && !s.hostSel then s.emit (.vector 9) else s

/-- Ring doorbell bits of an endpoint (R435). -/
def State.ring_ (s : State) (e : Nat) (bits : List Nat) : State :=
  (s.modEnd e (fun p => { p with bells := p.bells.raise bits })).bellIrq s

/-- Write a word of a message; refused while the channel is full (R433). -/
def State.mbData (s : State) (src dst i v : Nat) : State :=
  if (s.chan src dst).full then s.raise (stMb src) [0]
  else s.modChan src dst (fun c => { c with data := setAt c.data i (v % 2 ^ 32) })

/-- Post a message of `len` words (R433, R434): FULL, the stamp, and the arrival doorbell. -/
def State.mbPost (s : State) (src dst len : Nat) : State :=
  if (s.chan src dst).full then s.raise (stMb src) [0]
  else (s.modChan src dst (fun c => { c with
    full := true, len := min 8 (len % 16), epoch := (s.endPt src).epoch, serial := c.next, next := (c.next + 1) % 256 })).ring_ dst [src]

/-- Send a whole message. -/
def State.mbSend (s : State) (src dst : Nat) (ws : List Nat) : State :=
  if (s.chan src dst).full then s.raise (stMb src) [0]
  else
    let s := s.modChan src dst (fun c => { c with data := (ws ++ c.data.drop ws.length).take 8 })
    s.mbPost src dst ws.length

/-- The header word of a waiting message (R434). -/
def Chan.header (c : Chan) (src : Nat) : Nat :=
  2 ^ 31 + src % 16 * 2 ^ 27 + c.len % 16 * 2 ^ 23 + c.epoch % 256 * 2 ^ 8 + c.serial % 256

/-- A read of MB_RXs_HDR by the receiver moves a waiting message (R433). -/
def State.mbTake (s : State) (dst src : Nat) : Nat × State :=
  let c := s.chan src dst
  if c.full then
    (c.header src, (s.modChan src dst (fun c => { c with full := false })).modEnd dst
      (fun p => { p with hold := setAt p.hold src c.data }))
  else (0, s)

/-- A read of MB_DB_PEND latches the sequence (R435). -/
def State.dbPend (s : State) (e : Nat) : Nat × State :=
  let b := (s.endPt e).bells
  (b.mask, s.modEnd e (fun p => { p with latch := b.num }))

/-- MB_DB_CLR clears the named bits set at or before the latched sequence, compared as R412 does (R435). -/
def EndPt.clear (e : EndPt) (mask : Nat) : EndPt :=
  if seqBehind e.bells.num e.latch < 128 then
    { e with bells := { e.bells with set := e.bells.set.filter (fun b => !(bitOf mask b.1 && decide (seqBehind e.latch b.2 < 128))) } }
  else e

/-- MB_DB_RING: bits 10 to 31 of another endpoint; a destination of 9 to 15, or the sender itself, is ignored (R435). -/
def State.dbRing (s : State) (e v : Nat) : State :=
  let d := bitsOf v 31 28
  if 9 ≤ d ∨ d = e then s
  else s.ring_ d (((upTo 22).filter (fun i => bitOf v i)).map (· + 10))

/-- Semaphores held by an initiator are released with its endpoint (R438). -/
def State.releaseSems (s : State) (init : Nat) : State :=
  if s.mbox.sems.any (· == some init) then
    (s.modMbox (fun m => { m with sems := m.sems.map (fun o => if o = some init then none else o) })).raise stSem [1]
  else s

/-- Endpoint `e` resets (R436, R438): PCIEH, SPIH and LINK can. -/
def State.endpointReset (s : State) (e : Nat) : State :=
  if 6 ≤ e ∧ e ≤ 8 then
    let s := (upTo 9).foldl (fun s src =>
      if src = e then s else
        let s := if (s.chan src e).full then
          s.modChan src e (fun c => { c with full := false, discards := satAdd 0xFFFF c.discards 1 }) else s
        s.ring_ src [9]) s
    let s := s.modEnd e (fun p => { p with
      hold := List.replicate 9 (List.replicate 8 0), mask := 0, bells := { p.bells with set := [] }, epoch := (p.epoch + 1) % 256 })
    let s := (upTo 9).foldl (fun s dst =>
      if (s.chan e dst).full then s else s.modChan e dst (fun c => { c with data := List.replicate 8 0 })) s
    s.releaseSems (mbInit e)
  else s

/-- A read of a semaphore (R438): 0 grants it. -/
def State.semRead (s : State) (init n : Nat) : Nat × State :=
  match s.mbox.sems.getD n none with
  | none => (0, s.modMbox (fun m => { m with sems := setAt m.sems n (some init) }))
  | some o => ((o + 1) % 64, s)

/-- A write of a semaphore (R438): the owner releases it. -/
def State.semWrite (s : State) (init n : Nat) : State :=
  if s.mbox.sems.getD n none = some init then s.modMbox (fun m => { m with sems := setAt m.sems n none })
  else
    let s := if (s.stat stSem).has 0 then s else s.modMbox (fun m => { m with nonInit := init, nonSem := n })
    s.raise stSem [0]

/-- HOSTIRQ_N is asserted (R431): an enabled SPIH doorbell, or with HOSTSEL high the host summary. -/
def State.hostIrq (s : State) : Bool := (s.endPt 7).irq || (s.hostSel && s.hostSum)

end Sys2Proof.Machine
end

