-- ==== Sys2Proof/Machine/Pair.lean ====
section
/-! DEFINITION. Paired spans: the pilot's frame, pair status, pilot loss, takeover, yield, restoration (R57, R58, R357–R370). -/
namespace Sys2Proof.Machine
open Sys2Proof

/-! ## The far pilot (R359, R360) -/

/-- A far frame is good: a correct Check, a Source that names the partner's node and port, and the expected Tide (R359). -/
def State.pilotGood (s : State) (q : Port) (l : List Bool) : Bool :=
  let f (o n : Nat) : Nat := bitsNat ((l.drop o).take n)
  l.length == 168 && f 0 32 == 0xE25A9D36 && f 152 16 == crc16 ((l.drop 32).take 120)
    && f 32 16 == Port.num (Port.other q) * 2 ^ 15 + s.pn q 0x7010 2 && f 48 48 == s.tide.num

/-- The run of consecutive good frames with the one that comes in this Tide: one frame a Tide (R58, R359). -/
def State.goodNext (s : State) (q : Port) : Nat :=
  let p := (s.port q).pair
  if 0 < p.goodRun ∧ s.tide.num ≤ p.lastGood + 1 then p.goodRun + 1 else 1

/-- Port A or the following end yields where both ends are in takeover (R369). -/
def State.yields (s : State) (q : Port) : Bool :=
  let me := s.pn q 0x2100 7 == 1
  me || (!(s.port q).pair.farFollows && q == .a)

/-- PILOT_FRAME_RECEIVE: the far frame's first symbol arrived `arr` units of 100 ps after the own Tide edge (R359, R360,
R368, R369). -/
def execPilotFrameReceive (q : Port) (syms : List Bool) (arr : Nat) (s : State) : Host.Outcome State Fault Refusal :=
  let s := s.advance (s.tide.edge + arr / 10)
  if s.rxOn q false && s.pilotActive q then
    if s.pilotGood q syms then
      let f (o n : Nat) : Nat := bitsNat ((syms.drop o).take n)
      let was := (s.port q).pair
      let flags := f 144 8
      let far := f 112 32
      let run := s.goodNext q
      let s := s.modPair q (fun p => { p with
        goodRun := run, lastGood := s.tide.num, present := p.present || decide (8 ≤ run)
        arrivals := ((arr : Int) :: p.arrivals).take 16, cold := ((!s.time.warm) :: p.cold).take 16
        delayOut := if far = 0xFFFFFFFF then none else some (toSigned 32 far)
        farTaken := bitOf flags 1, farFollows := bitOf flags 2 })
      let pr := (s.port q).pair
      let skew : Int := match pr.delayIn, pr.delayOut with
        | some a, some b => 50 * (a - b)
        | _, _ => 0
      let big := decide (50000 < skew.natAbs)
      let s := if big && !was.skewRaised then s.contained 0x39 (Port.num q) 5 else s
      -- the far pilot is present again: a span break ends (R368)
      let s := if pr.present then s.modOpt q (fun o => { o with absent := false }) else s
      let back := pr.state == 3 && pr.present
      let takes := (pr.state == 2 || pr.state == 3 || (pr.state == 4 && s.yields q)) && pr.farTaken
      .next (s.modPair q (fun p => { p with
        skewRaised := big, state := if back then 2 else p.state
        yieldAt := if takes && p.yieldAt.isNone then some (s.tide.num + 1) else p.yieldAt
        takeAt := if takes then none else p.takeAt }))
    else .next (s.modPair q (fun p => { p with goodRun := 0 }))
  else .next s

/-- ClockSkew in ps (R360); 0 while a delay is not known. -/
def Pair.skew (p : Pair) : Int := match p.delayIn, p.delayOut with
  | some a, some b => 50 * (a - b)
  | _, _ => 0

/-! ## Takeover (R366, R367, R370) -/

/-- The first Tide edge at least (W + C) × 8 ns after now (R367). -/
def State.takeTide (s : State) (q : Port) : Nat :=
  let v := s.plan q
  let due := s.time.now + (v.w + v.c) * 8
  s.tide.num + max 1 (ceilDiv (due - s.tide.edge) (max 1 s.period * 1000000))

/-- A port decides to take over. -/
def State.decideTakeover (s : State) (q : Port) : State :=
  s.modPair q (fun p => { p with takeAt := some (p.takeAt.getD (s.takeTide q)) })

/-- The partner is unreachable: its trunk is lost, or no pair status has come for 2 whole Tides, the third edge since the last having
passed (R367). -/
def State.partnerGone (s : State) (q : Port) : Bool :=
  !(s.link (portSide q)).isUp || decide (3 ≤ (s.port q).pair.quiet)

/-- PILOT_LOSS: the drops below the previous Tide's mean power of the four latest blocks of 8.192 µs, in 0.01 dB (R359);
what follows is R367. -/
def execPilotLoss (q : Port) (drops : List Nat) (at_ : Nat) (s : State) : Host.Outcome State Fault Refusal :=
  let s := s.advance at_
  let lost := decide (drops.length = 4) && drops.all (fun d => decide (100 * s.pn q 0x7010 0x10 < d))
  if s.rxOn q false && s.pilotActive q && s.farPresent q && lost then
    let s := s.modPair q (fun p => { p with present := false, goodRun := 0, farTaken := false })
    let s := (s.raise (stPair q) [0]).contained 0x39 (Port.num q) 4
    let pr := (s.port q).pair
    if pr.state = 2 then
      if s.partnerGone q ∨ pr.unreachable ∨ pr.partnerOptics ≠ 6 then .next (s.decideTakeover q)
      else .next ((s.modPair q (fun p => { p with state := 3 })).raise (stPair q) [3])
    else .next s
  else .next s

/-- PARTNER_UNREACHABLE: two Tides without a pair status (R367). -/
def execPartnerUnreachable (q : Port) (s : State) : Host.Outcome State Fault Refusal :=
  if s.up && s.partnerGone q then .next (s.modPair q (fun p => { p with unreachable := true })) else .next s

/-- A write of 1 to ForceTakeover: accepted in PairState 2 and 3 (R367; log 62). -/
def State.forceTakeover (s : State) (q : Port) : Option State :=
  let st := (s.port q).pair.state
  if st = 2 ∨ st = 3 then some (s.decideTakeover q) else none

/-- TAKEOVER_APPLY: the edge of the takeover's Tide; an epoch due at the same edge applies first (R370). -/
def execTakeoverApply (q : Port) (s : State) : Host.Outcome State Fault Refusal :=
  let s := match s.chain.pend with
    | some e => if s.up && s.tide.running && decide (e.tide ≤ s.tide.num) then s.applyEpoch e else s
    | none => s
  match (s.port q).pair.takeAt with
  | some t =>
    if s.up && s.tide.running && decide (t ≤ s.tide.num) then
      let old := s
      let s := s.modPair q (fun p => { p with state := 4, takeAt := none, takeovers := satAdd 0xFFFFFFFF p.takeovers 1 })
      .next (((s.planSwitch old q).endSweep q).raise (stPair q) [1]).pilotsDue
    else .next s
  | none => .next s

/-- BREAK_POSITION_REPORT: one second after PairState 3 was entered (R368): the distance of the farthest output point with
at least half its words valid over the last Tide. -/
def execBreakPositionReport (q : Port) (s : State) : Host.Outcome State Fault Refusal :=
  let pr := (s.port q).pair
  if s.up && pr.state == 3 then
    let w := (s.port q).sw
    let (n, l) := if w.vTide < s.tide.num then (w.vN, w.vCur) else (w.lN, w.lCur)
    let good := (upTo l.length).filter (fun i => decide (0 < n) && decide (n ≤ 2 * l.getD i 0))
    match good.getLast? with
    | some i => .next (s.modPair q (fun p => { p with breakPos := (s.distance q (s.cfg q) (2 * i)).nearest }))
    | none => .next s
  else .next s

/-! ## Yield and restoration (R369) -/

/-- PAIR_YIELD: from the Tide edge after the far takeover flag was seen. -/
def execPairYield (q : Port) (s : State) : Host.Outcome State Fault Refusal :=
  match (s.port q).pair.yieldAt with
  | some t =>
    if s.up && s.tide.running && decide (t ≤ s.tide.num) then
      let old := s
      let s := (s.modPair q (fun p => { p with state := 5, yieldAt := none, takeAt := none })).darken q
      let s := if old.tookOver q then (s.planSwitch old q) else s
      .next (s.raise (stPair q) [2]).pilotsDue
    else .next s
  | none => .next s

/-- PAIR_RESTORE_HOLD: both ends of a span have reported the far pilot present for PairRestoreHold seconds. The manager
realigns the pair and returns both ends to PairState 2; a hold of 0 leaves that to the operator. -/
def execPairRestoreHold (x : SpanInfo) (s : State) : Host.Outcome State Fault Refusal :=
  if s.up && s.chain.iAct && s.tide.running && s.nat 0x7000 0xF != 0 then
    let ends := [(x.west, 1), (x.east, 0)]
    let s := s.modChain (fun c => { c with
      restore := c.restore.filter (fun e => !ends.contains e) ++ ends
      spans := c.spans.filter (fun y => !(y.west == x.west && y.east == x.east)) ++ [x] })
    .next (if s.chain.pend.isSome then s else s.ownEpoch true [])
  else .next s

/-! ## Pair status (R367) -/

/-- The measured delay carries the warm-up flag (R309): one of its arrivals was timed while the oscillator was not warm. -/
def Pair.delayCold (p : Pair) : Bool := p.cold.any id

/-- The far pulse begins outside range samples 4 to B − C − 4 in a launch of either end of a span in PairState 2 (R362, R363). -/
def State.alignLeft (s : State) (q : Port) : Bool :=
  let pr := (s.port q).pair
  match pr.delays, pr.partner with
  | some d, some f =>
    let v := s.plan q
    let ok (near far : Nat) : Bool :=
      let a := alignA v.p v.m d near far
      decide (4 * alignDen v.m ≤ a) && decide (a ≤ (v.b - v.c - 4) * alignDen v.m)
    pr.state == 2 && decide (0 < v.m) && !(ok v.phi f.phi && ok f.phi v.phi)
  | _, _ => false

/-- What this node says of a port in its pair status: OpticsState, PairState, pilot state (R367), and what the partner
needs for R358, R361, R365 and the manager for R363 (log 58). -/
def State.pairFields (s : State) (q : Port) : List Nat :=
  let v := planOf s.pnat q
  let pr := (s.port q).pair
  [Port.num q, (s.port q).opt.state, pr.state, bit (s.farPresent q), s.pnat (portIndex q 0x7010) 2, s.pnat (portIndex q 0x7010) 1,
   v.p, v.m, v.mask, v.c, v.b, v.w, v.r0, s.pnat (portIndex q 0x2100) 0x16, (s.plan q).phi, takeoverCode s.pnat q,
   bit (s.faces q), bit pr.delayCold, bit (s.alignLeft q), pr.delays.getD 0]

/-- Whom a port's pair status goes to: the partner of its pairing in force, and the one of a pending pairing, whose check needs it
(R365, R367). -/
def State.pairTargets (s : State) (q : Port) : List Nat :=
  let one (get : Nat → Nat → Nat) : List Nat :=
    if get (portIndex q 0x7010) 1 ≠ 0 ∧ get (portIndex q 0x7010) 2 ≠ 0 then [get (portIndex q 0x7010) 2] else []
  (one s.nat ++ one s.pnat).eraseDups

/-- A Tide edge at a pair: the pair status goes to the partner; Tides without its own are counted; the alignment is
recomputed, and a pair that has left it is realigned by the manager (R363), which a worker's end tells by its pair status
(DESIGN CHOICE, log 183). -/
def State.pairEdge (s : State) (q : Port) : State :=
  let left := s.alignLeft q
  let acting := s.chain.acting
  let partners := s.pairTargets q
  let dests := if left && !s.chain.iAct && acting != 0 && !partners.contains acting then partners ++ [acting] else partners
  let s := dests.foldl (fun s n => s.originate 1 0x21 n (s.pairFields q) []) s
  let s := s.modPair q (fun p => { p with quiet := p.quiet + 1 })
  if left && s.chain.iAct && !s.chain.realign.contains q then s.modChain (fun c => { c with realign := q :: c.realign }) else s

/-- A worker's end of a span has left its alignment: the manager notes the span (R363). -/
def State.noteSpan (s : State) (f : Frame) : State :=
  let g (i : Nat) : Nat := f.fields.getD i 0
  let x : SpanInfo := if g 0 = 0 then ⟨g 4, f.src, g 6, g 7, g 9, g 10, g 19⟩ else ⟨f.src, g 4, g 6, g 7, g 9, g 10, g 19⟩
  s.modChain (fun c => { c with spans := c.spans.filter (fun y => !(y.west == x.west && y.east == x.east)) ++ [x] })

/-- PAIR_STATUS: the partner's status of its port arrives (R367), or at the manager that of a span that has left its alignment
(R363). -/
def execPairStatus (inp : LinkPort) (f : Frame) (s : State) : Host.Outcome State Fault Refusal :=
  if s.up && s.carries inp then
    let (pass, s) := s.ingress inp f
    if pass then
      let s := s.forward inp f
      let g (i : Nat) : Nat := f.fields.getD i 0
      let q : Port := if g 0 = 0 then .b else .a
      if s.chnOn && s.takes f && (f.src == s.pn q 0x7010 2 || f.src == s.pnat (portIndex q 0x7010) 2) then
        .next (s.modPair q (fun p => { p with
          quiet := 0, unreachable := false, partnerOptics := g 1, partnerState := g 2, partnerPilot := g 3 == 1
          partner := some { names := g 4, mode := g 5, p := g 6, m := g 7, mask := g 8, c := g 9, b := g 10, w := g 11
                            r0 := g 12, ofs := toSigned 32 (g 13), phi := g 14, takeCode := g 15, faces := g 16 == 1
                            cold := g 17 == 1 } }))
      else if s.chnOn && s.takes f && s.chain.iAct && g 18 == 1 then .next (s.noteSpan f)
      else .next s
    else .next s
  else .next s

end Sys2Proof.Machine
end

