-- ==== Sys2Proof/Machine/Keys.lean ====
section
/-! DEFINITION. The trunk's mutual authentication and key agreement (R341, R475–R477). -/
namespace Sys2Proof.Machine
open Sys2Proof

/-- All PLLs are locked: the ROM runs (R310, R497, R498). -/
def State.pllsLocked (s : State) : Bool := s.power.pllS && s.power.pllD && s.power.pllF

/-- BOOT1..BOOT0 select the flash (R479). -/
def State.bootFlash (s : State) : Bool := bitsOf s.power.straps 7 6 == 0 || bitsOf s.power.straps 7 6 == 3

/-- What the ROM loads comes from the manager over the trunk: BOOT1..BOOT0 select it, or no slot holds an image and HOSTSEL is
high (R479). -/
def State.trunkBoot (s : State) : Bool := if s.bootFlash then s.ident.loadWait && s.hostSel else bitsOf s.power.straps 7 6 == 2

/-- The ROM waits for a load over the trunk and runs the key exchange itself (R479). -/
def State.romTrunk (s : State) : Bool := s.power.phase == .starting && s.pllsLocked && s.trunkBoot

/-- IdentityState a start reports (R468). -/
def State.identityState (s : State) : Nat :=
  if s.flash.cert.isEmpty then 2 else if sha256 s.flash.cert = s.otp.certHash then 0 else 1

/-- The device certificate of an exchange: the one in use since the start, or before firmware runs the stored one (R380, R479). -/
def State.kxCert (s : State) : List Byte := if s.up then s.ident.cert else s.flash.cert

/-- The SHA-256 of the owner key, as the transcript reports it (R476): empty while unowned. -/
def State.ownerHash (s : State) : List Byte := match s.flash.owner with
  | some o => if o.intact then sha256 o.key else zeros 32
  | none => zeros 32

/-- A device with an owner record that holds (R470). -/
def State.owned (s : State) : Bool := match s.flash.owner with
  | some o => o.intact
  | none => false

/-- The first frames of an exchange (R475 step 1): type 0x60 the certificates, type 0x61 nonce, ephemeral key and owner key
hash (log 63). -/
def State.kxStart (s : State) (d : Side) (rekey : Bool) : State :=
  let (a, s) := s.takeFree
  let (b, s) := s.takeFree
  let priv := a % (ecN - 1) + 1
  let nonce := beBytes 32 b
  let certs := s.kxCert ++ s.flash.ca
  let part := nonce ++ ecPublic priv ++ s.ownerHash
  let s := s.modLink d (fun l => { l with pcs := true, xStep := 1, rekey := rekey, ephem := priv, nonce := nonce
                                          sent := certs ++ part, got := [], peerCert := [] })
  (s.toNeighbour d 1 0x60 [s.kxCert.length] certs).toNeighbour d 1 0x61 [] part

/-- A failure ends the attempt (R475): counted, and reported by the link's key; keys whose confirmation has not come are dropped. A failed re-key keeps the association and
raises its own contained fault (R477). -/
def State.kxFail (s : State) (d : Side) : State :=
  let re := (s.link d).rekey
  let s := s.modLink d (fun l =>
    let l := if l.xStep = 3 then { l with
        keys := if re then l.oldKeys else [], oldKeys := [], secured := re, fresh := false
        an := if re then (l.an + 3) % 4 else 0, pn := if re then l.oldPn else 1 } else l
    { l with xStep := 0, sent := [], got := [], peerCert := [] })
  let s : State := { s with ident := { s.ident with authFails := satAdd 0xFFFFFFFF s.ident.authFails 1 } }
  s.containedKey (s.linkKey d (if re then 7 else 6))

/-- The transcript: the west end's part, then the east end's (log 63). -/
def State.transcript (s : State) (d : Side) : List Byte :=
  let l := s.link d
  match d with
  | .e => l.sent ++ l.got
  | .w => l.got ++ l.sent

/-- Key material: per direction a 32-byte SAK, a 4-byte SSCI and a 12-byte salt, eastward first (R475 step 4). -/
def State.kxKeys (s : State) (d : Side) : List Byte :=
  let l := s.link d
  hkdf (sha256 (s.transcript d)) (ecShared l.ephem ((l.got.drop (l.got.length - 97)).take 65)) [] 96

/-- TrunkPeerPolicy accepts the peer (R476). -/
def State.peerOk (s : State) (hash : List Byte) : Bool :=
  s.nat 0x1400 7 == 0 || (s.owned && hash == s.ownerHash)

/-- The ROM's turn at a trunk: TRUNK_W first, TRUNK_E once the exchange there has ended (R479). -/
def State.romTurn (s : State) (d : Side) : Bool :=
  d == .w || (s.chain.w.xStep == 0 && (s.chain.w.secured || s.ident.authFails != 0))

/-- This node can authenticate a trunk: the link agent runs and the certificate is valid (R468, R375), or it is the ROM's turn in a
load over the trunk (R479). -/
def State.canAuth (s : State) (d : Side) : Bool :=
  (s.chnOn && s.ident.idState == 0) || (s.romTrunk && s.identityState == 0 && s.romTurn d)

/-- KEY_EXCHANGE_FRAME: a link-local frame of type 0x60 to 0x63 (R475). -/
def execKeyExchangeFrame (d : Side) (f : Frame) (s : State) : Host.Outcome State Fault Refusal :=
  if s.canAuth d then
    let s := if f.type = 0x60 ∧ (s.link d).xStep = 0 then s.kxStart d (s.link d).secured else s
    let l := s.link d
    if f.type = 0x60 ∧ l.xStep = 1 ∧ l.got.isEmpty then
      if Config.certValid f.payload then
        .next (s.modLink d (fun l => { l with got := f.payload, peerCert := f.payload.take (f.fields.getD 0 0) }))
      else .next (s.kxFail d)
    else if f.type = 0x61 ∧ l.xStep = 1 ∧ ¬ l.got.isEmpty then
      if f.payload.length = 129 ∧ (ecKey? ((f.payload.drop 32).take 65)).isSome ∧ s.peerOk (f.payload.drop 97) then
        let s := s.modLink d (fun l => { l with got := l.got ++ f.payload, xStep := 2 })
        let sig := Config.sign (sha256 (s.transcript d)) s.free
        let s : State := { s with free := s.free + 1 }
        .next (s.toNeighbour d 1 0x62 [] sig)
      else .next (s.kxFail d)
    else if f.type = 0x62 ∧ l.xStep = 2 then
      if ecVerify (Config.certKey l.peerCert) (s.transcript d) f.payload then
        let keys := s.kxKeys d
        let s := s.modLink d (fun l => { l with
          xStep := 3, keys := keys, oldKeys := if l.rekey then l.keys else [], fresh := true, secured := true
          an := if l.rekey then (l.an + 1) % 4 else 0, pn := 1, oldPn := l.pn })
        .next (s.toNeighbour d 1 0x63 [] [])
      else .next (s.kxFail d)
    else if f.type = 0x63 ∧ l.xStep = 3 then
      .next (s.modLink d (fun l => { l with xStep := 0, rekey := false, fresh := false, sent := [], got := [] }))
    else .next s
  else .next s

/-- KEY_EXCHANGE_TIMEOUT: 200 ms have passed without completion (R475). -/
def execKeyExchangeTimeout (d : Side) (s : State) : Host.Outcome State Fault Refusal :=
  let l := s.link d
  if (s.up || s.romTrunk) && l.xStep != 0 then .next (s.kxFail d) else .next s

/-- KEY_EXCHANGE_RETRY: one second after a failure; the first exchange of a link begins with it too (log 63). -/
def execKeyExchangeRetry (d : Side) (s : State) : Host.Outcome State Fault Refusal :=
  let l := s.link d
  if s.canAuth d && l.xStep == 0 && !l.secured then .next (s.kxStart d false) else .next s

/-- REKEY: RekeyInterval has expired (R477). -/
def execRekey (d : Side) (s : State) : Host.Outcome State Fault Refusal :=
  let l := s.link d
  if s.canAuth d && l.xStep == 0 && l.secured then .next (s.kxStart d true) else .next s

/-- REKEY_RETRY: ten seconds after a failed re-key (R477). -/
def execRekeyRetry (d : Side) (s : State) : Host.Outcome State Fault Refusal :=
  let l := s.link d
  if s.canAuth d && l.xStep == 0 && l.secured && l.rekey then .next (s.kxStart d true) else .next s

/-- OLD_ASSOCIATION_EXPIRY: one second after the switch (R477). -/
def execOldAssociationExpiry (d : Side) (s : State) : Host.Outcome State Fault Refusal :=
  if (s.link d).fresh then .next s else .next (s.modLink d (fun l => { l with oldKeys := [] }))

end Sys2Proof.Machine
end

