-- ==== Sys2Proof/Machine/Ident.lean ====
section
/-! DEFINITION. Identity, ownership and tokens, staging, arming and confirming firmware (R466–R474, R478–R487). A function
that serves a write answers its status of R394 with the state. -/
namespace Sys2Proof.Machine
open Sys2Proof

/-- Change the identity part. -/
def State.modIdent (s : State) (f : Ident → Ident) : State := { s with ident := f s.ident }

/-- Change the flash. -/
def State.modFlash (s : State) (f : Flash → Flash) : State := { s with flash := f s.flash }

/-! ## Identity (R467–R469) -/

/-- DeviceId (R467). -/
def State.deviceId (s : State) : List Byte := s.otp.certHash.take 8

/-- A write to AttestChallenge (R469). -/
def State.attest (s : State) (v : List Byte) : Nat × State :=
  if v.length ≠ 32 then (5, s)
  else if s.ident.idState ≠ 0 then (8, s)
  else
    let body := v ++ s.deviceId ++ sha256 s.ident.running ++ leBytes 4 s.otp.secVersion ++ leBytes 8 s.time.now
    let (n, s) := s.takeFree
    (0, s.modIdent (fun i => { i with attest := body ++ Config.sign (sha256 body) n }))

/-- A write of a certificate (R468): it takes effect at the next start. -/
def State.writeCert (s : State) (v : List Byte) : Nat × State :=
  if sha256 v = s.otp.certHash then (0, s.modFlash (fun f => { f with cert := v })) else (7, s)

/-! ## Tokens (R471, R472) -/

/-- OwnerState (R470, R474). -/
def State.ownerState (s : State) : Nat :=
  match s.flash.owner with
  | some o => if o.intact then (if o.locked then 2 else 1) else 0
  | none => 0

/-- The owner key; empty while unowned. -/
def State.ownerKey (s : State) : List Byte :=
  match s.flash.owner with
  | some o => if o.intact then o.key else []
  | none => []

/-- OwnerCounter. -/
def State.ownerCounter (s : State) : Nat :=
  match s.flash.owner with
  | some o => if o.intact then o.counter else 0
  | none => 0

/-- The seven checks of R472 for a token of a kind, with the level it must carry and the Subject it must name. -/
def State.tokenOk (s : State) (tok : List Byte) (kind level : Nat) (subject : List Byte) : Bool :=
  let f (o n : Nat) : Nat := leNat ((tok.drop o).take n)
  let scope := (tok.drop 8).take 8
  let key := if kind = 1 ∧ level = 3 then s.otp.vendorKey else s.ownerKey
  tok.length == 136 && f 0 4 == 0x4E4B4F54 && f 4 1 == 1 && f 7 1 == 0 && f 36 4 == 0
    && f 5 1 == kind && f 6 1 == level
    && (scope == s.deviceId || ((kind == 1 || kind == 2 || kind == 6) && scope == List.replicate 8 0xFF))
    && decide (f 16 8 ≤ s.time.now) && decide (s.time.now ≤ f 24 8)
    && (kind == 1 || kind == 2 || kind == 6 || decide (s.ownerCounter < f 32 4))
    && ((tok.drop 40).take 32 == subject)
    && ecVerify key (tok.take 72) (tok.drop 72)

/-- A refused token changes nothing but the count (R472): the authorisation error. -/
def State.tokenFail (s : State) : Nat × State :=
  (0xD, s.modIdent (fun i => { i with tokenFails := satAdd 0xFFFFFFFF i.tokenFails 1 }))

/-- The Counter of a token. -/
def tokenCounter (tok : List Byte) : Nat := leNat ((tok.drop 32).take 4)

/-- Sessions opened under the owner key end (R473, R383). -/
def State.endOwnerSessions (s : State) : State :=
  { s with od := { s.od with sessions := s.od.sessions.filter (fun x => x.level == 3) } }

/-- A write to OwnerKey (R470); `ok` tells whether the flash took the owner record. -/
def State.writeOwnerKey (s : State) (ok : Bool) (v : List Byte) : Nat × State :=
  if s.ownerState ≠ 0 then (8, s)
  else if (ecKey? v).isNone then (7, s)
  else if ok then (0, s.modFlash (fun f => { f with owner := some ⟨v, 0, false, true⟩ }))
  else (0xE, s)

/-- Set the lock state and the counter of the owner record. -/
def State.setOwner (s : State) (f : OwnerRec → OwnerRec) : State := s.modFlash (fun x => { x with owner := x.owner.map f })

/-- A write to OwnerToken: kind 3 unlocks, kind 5 releases (R473). -/
def State.writeOwnerToken (s : State) (v : List Byte) : Nat × State :=
  if s.tokenOk v 3 0 (zeros 32) then (0, s.setOwner (fun o => { o with locked := false, counter := tokenCounter v }))
  else if s.tokenOk v 5 0 (zeros 32) then (0, (s.modFlash (fun f => { f with owner := none })).endOwnerSessions)
  else s.tokenFail

/-- A write to OwnerTransfer: a kind 4 token and the new key (R473). -/
def State.writeOwnerTransfer (s : State) (v : List Byte) : Nat × State :=
  let tok := v.take 136
  let key := v.drop 136
  if s.tokenOk tok 4 0 (sha256 key) then
    if (ecKey? key).isNone then (7, s)
    else (0, (s.setOwner (fun o => { o with key := key, counter := tokenCounter tok })).endOwnerSessions)
  else s.tokenFail

/-- Disarm (R474, R484): StageState returns from 3 to 2. -/
def State.disarm (s : State) : State :=
  if s.flash.armed then
    (s.modFlash (fun f => { f with armed := false })).modIdent (fun i => { i with stageState := if i.stageState = 3 then 2 else i.stageState })
  else s

/-- A write to OwnerLock (R474; log 66). -/
def State.writeOwnerLock (s : State) (v : Nat) : Nat × State :=
  if v ≠ 1 then (6, s)
  else if s.ownerState = 0 then (8, s)
  else (0, (s.setOwner (fun o => { o with locked := true })).disarm)

/-! ## Images (R478–R482) -/

/-- Largest image, header included (R481). -/
def imageMax : Nat := 18 * 1048576

/-- Magic and Format (R478). -/
def magicOk (img : List Byte) : Bool := decide (256 ≤ img.length) && hdrField img 0 4 == 0x59585246 && hdrField img 4 2 == 1

/-- Magic, Format, the reserved fields and the ranges (R478). -/
def headerOk (img : List Byte) : Bool :=
  magicOk img && hdrField img 9 1 / 16 == 0
    && hdrField img 10 2 == 0 && decide (hdrField img 16 4 ≤ 64) && decide (hdrField img 28 4 ≤ 3)
    && ((img.drop 96).take 96).all (· == 0)

/-- Part and Revision are this device's (R478). -/
def partOk (img : List Byte) : Bool := hdrField img 6 2 == 0x9140 && hdrField img 8 1 == 0x42

/-- SigningKey is not revoked and the signature and the payload's hash hold (R479). -/
def State.imageSigned (s : State) (img : List Byte) : Bool :=
  let k := hdrField img 28 4
  !bitOf s.otp.revoked k && ecVerify (s.otp.romKeys.getD k []) (img.take 192) ((img.drop 192).take 64)
    && sha256 ((img.drop 256).take (hdrField img 12 4)) == (img.drop 64).take 32

/-- The ROM accepts an image (R479). -/
def State.romAccepts (s : State) (img : List Byte) : Bool :=
  magicOk img && partOk img && s.imageSigned img && decide (s.otp.secVersion ≤ hdrField img 16 4)

/-- The present store's version (R482, R488). -/
def State.presentStore (s : State) : Nat :=
  match bestBank s.flash.banks with
  | some i => (s.flash.banks.getD i {}).version
  | none => s.storeVersion

/-- StageResult of a staged image, checks in order (R482); a payload that does not hash to PayloadHash counts with the
signature (log 66). -/
def State.stageCheck (s : State) (img : List Byte) : Nat :=
  if ¬ headerOk img ∨ img.length ≠ hdrField img 12 4 + 256 then 1
  else if ¬ partOk img then 2
  else if ¬ s.imageSigned img then 3
  else if hdrField img 16 4 < s.otp.secVersion then 4
  else if imageMax < img.length then 5
  else if hdrField img 20 4 < s.presentStore ∨ s.presentStore < hdrField img 24 4 then 6
  else 0

/-- The text of a zero-padded field. -/
def textOf (l : List Byte) : List Byte := l.takeWhile (· != 0)

/-- Version text of an image's header (R478). -/
def versionOf (img : List Byte) : List Byte := textOf ((img.drop 32).take 32)

/-- A Download start, or a Write, to ImageStage (R474, R482): refused while locked or while an image awaits confirmation;
otherwise the slot is taken over. -/
def State.stageStart (s : State) : Nat × State :=
  if s.ownerState = 2 then (8, s.modIdent (fun i => { i with stageResult := 7 }))
  else if s.ident.imageState = 1 then (8, s.modIdent (fun i => { i with stageResult := 11 }))
  else (0, (s.modFlash (fun f => { f with staging := [], armed := false })).modIdent (fun i =>
    { i with stageState := 1, tokenHeld := false }))

/-- The whole image has arrived: the checks of R482. A rejected image stays in the slot and the write itself succeeds. -/
def State.stageDone (s : State) (img : List Byte) : State :=
  let r := s.stageCheck img
  (s.modFlash (fun f => { f with staging := img })).modIdent (fun i =>
    { i with stageResult := r, stageState := if r = 0 then 2 else 4 })

/-- A write to UpdateToken (R474, R483). -/
def State.writeUpdateToken (s : State) (v : List Byte) : Nat × State :=
  if s.ownerState = 2 then (8, s.modIdent (fun i => { i with stageResult := 7 }))
  else if (s.ident.stageState = 2 ∨ s.ident.stageState = 3) ∧ s.tokenOk v 2 0 (sha256 (s.flash.staging.take 256)) then
    (0, s.modIdent (fun i => { i with tokenHeld := true }))
  else
    let (r, s) := s.tokenFail
    (r, s.modIdent (fun i => { i with stageResult := 8 }))

/-- VBAT lies below UpdateVbatMin (R484): source 22 reports half of it; without a result yet it counts as present. -/
def State.vbatLow (s : State) : Bool :=
  match lookup 22 s.hk.values with
  | some v => ((f32Num v.bits).scale 1).lt (s.real 0x1410 0x10)
  | none => false

/-- A capture fills or exports (R484). -/
def State.captureBusy (s : State) : Bool := s.caps.any (fun k => k.state == 2 || k.state == 4)

/-- UpdateBlock (R484). -/
def State.updateBlock (s : State) : Nat :=
  bit s.captureBusy + 2 * bit (!s.power.vmainOk) + 4 * bit s.vbatLow + 8 * bit (s.ownerState == 2)

/-- Firmware requests a full reset at the next Tide edge for an update (R484). -/
def State.askReset (s : State) : State := { s with power := { s.power with resetAsked := true } }

/-- A write to UpdateApply (R474, R484). -/
def State.writeUpdateApply (s : State) (v : Nat) : Nat × State :=
  let refuse (r : Nat) : Nat × State := (8, s.modIdent (fun i => { i with stageResult := r }))
  if 3 < v then (6, s)
  else if s.ownerState = 2 then refuse 7
  else if v = 0 then (0, s.disarm)
  else if v = 3 then
    if s.ident.imageState = 1 then (0, (s.modIdent (fun i => { i with holdOff := true })).askReset) else (8, s)
  else if s.ident.stageState ≠ 2 ∧ s.ident.stageState ≠ 3 then (8, s)
  else if s.ownerState ≠ 0 ∧ ¬ s.ident.tokenHeld ∧ s.ident.stageState = 2 then refuse 8
  else if s.captureBusy then refuse 9
  else if ¬ s.power.vmainOk ∨ s.vbatLow then refuse 10
  else
    let s := (s.modFlash (fun f => { f with armed := true, linksUp := (s.chain.w.isUp, s.chain.e.isUp) })).modIdent (fun i =>
      { i with stageState := 3, tokenHeld := false, holdOff := i.holdOff || v == 1 })
    (0, if v = 1 then s.askReset else s)

/-! ## Confirmation (R480, R486) -/

/-- Firmware's own conditions for confirming (R486); a node in holdover has reached TimeState 2. -/
def State.autoConfirmOk (s : State) : Bool :=
  let link (was : Bool) (l : Link) : Bool := !was || (l.isUp && l.secured)
  s.nat 0x1410 8 == 1 && s.power.wdogStage == 0 && !s.ident.fwFault && link s.flash.linksUp.1 s.chain.w
    && link s.flash.linksUp.2 s.chain.e && (s.role == 0 || decide (2 ≤ s.time.state)) && s.tide.ran

/-- Confirm the image: OTP is burned, the staging slot erased, the protected bank freed (R480, R486). -/
def State.confirm (s : State) : Nat × State :=
  if s.ident.imageState ≠ 1 then (8, s)
  else
    let h := s.ident.running
    let k := hdrField h 28 4
    let rev := hdrField h 9 1 % 16 % 2 ^ k
    let s : State := { s with otp := { s.otp with secVersion := max s.otp.secVersion (hdrField h 16 4), revoked := s.otp.revoked ||| rev } }
    (0, (s.modFlash (fun f => { f with staging := [], guarded := none, awaiting := false, armed := false })).modIdent (fun i =>
      { i with imageState := 0, stageState := 0 }))

/-- A write to Confirm. -/
def State.writeConfirm (s : State) (v : Nat) : Nat × State := if v ≠ 1 then (6, s) else s.confirm

/-- ConfirmRemaining, s (R486). -/
def State.confirmRemaining (s : State) : Nat :=
  if s.ident.imageState = 1 then s.nat 0x1410 6 - (s.time.now - s.ident.startAt) / 1000000000 else 0

/-- CONFIRM_TIMEOUT: the image was not confirmed in time (R486, R487). -/
def execConfirmTimeout (s : State) : Host.Outcome State Fault Refusal :=
  .next (if s.up && s.ident.imageState == 1 then s.askReset else s)

end Sys2Proof.Machine
end

