-- ==== Sys2Proof/Machine/Program.lean ====
section
/-! DEFINITION. Customer programs: loading, running, stopping, their stream input and their Tide work (R214, R218, R232–R234,
R405). -/
namespace Sys2Proof.Machine
open Sys2Proof

/-- A customer program. -/
def State.program (s : State) (p : Nat) : Program := s.brew.progs.getD p {}

/-- A header of an image whose fields no command spells out (log 41). -/
def headerOf (img : List Byte) : ImageHeader :=
  let f (n : Nat) : Nat := Config.imageField img n
  { cores := f 0, mem := f 1, ringA := f 2, ringB := f 3, code := f 4, subA := f 5, subB := f 6, tideWork := f 7 % 2 == 1
    name := Config.imageName img, crcOk := f 8 % 2 == 1, length := f 9 }

/-- A write of a customer image (R232): the image, followed by its token while an owner key is installed. -/
def State.loadProgram (s : State) (p : Nat) (hdr : ImageHeader) (v : List Byte) : Nat × State :=
  let img := v.take hdr.length
  if (s.program p).state = 2 then (8, s)
  else if ¬ hdr.crcOk ∨ v.length < hdr.length ∨ 32768 < hdr.code then (7, s)
  else if s.ownerState ≠ 0 ∧ ¬ s.tokenOk (v.drop hdr.length) 6 0 (sha256 img) then s.tokenFail
  else (0, s.modProg p (fun g => { g with image := img, hdr := hdr, state := 1, cores := [], faultRun := 0, faultNow := false
                                          ringA := [], ringB := [], outputs := [], objs := [] }))

/-- Customer cores that no program holds and that do not run (R233). -/
def State.freeCores (s : State) : List Nat :=
  (s.poolCores 5).filter (fun c => !(s.core c).running && !s.brew.progs.any (fun g => g.cores.contains c))

/-! ## The table of a program's objects (R405; log 65) -/

/-- Type of a code (R377). -/
def typeOf (n : Nat) : ObjType :=
  [ObjType.bool, .u8, .u16, .u32, .u64, .i16, .i32, .f32, .str, .blob].getD n .time64

/-- The type an image declares for an object. -/
def customType (img : List Byte) (key : Nat) : ObjType := typeOf ((Config.customerObject img key - 1) % 16)

/-- Bytes that an object of a type takes in the table: its value, or a length byte and 255 bytes. -/
def ObjType.slot (t : ObjType) : Nat := t.size.getD 256

/-- A value as the table holds it. -/
def ObjType.pack (t : ObjType) (v : List Byte) : List Byte := match t.size with
  | some n => (v ++ zeros n).take n
  | none => (leBytes 1 v.length ++ v ++ zeros 256).take 256

/-- The value that the table holds. -/
def ObjType.unpack (t : ObjType) (b : List Byte) : List Byte := match t.size with
  | some _ => b
  | none => (b.drop 1).take (b.headD 0).toNat

/-- Bytes of an image's initial data. -/
def imageBytes (img : List Byte) (o n : Nat) : List Byte := (upTo n).map (fun i => BitVec.ofNat 8 (Config.imageData img (o + i)))

/-- Where in its program's part of cluster memory an object lies. -/
def Program.objPlace (g : Program) (key : Nat) : Nat :=
  Config.customerPlace g.image key % (g.hdr.mem + 1 - (customType g.image key).slot)

/-- A customer object's default: what the image's initial data gives its place in the table. -/
def Program.customDefault (g : Program) (key : Nat) : List Byte :=
  let t := customType g.image key
  t.unpack (imageBytes g.image (g.objPlace key) t.slot)

/-- A customer object's value: of a program that has run, what the table in its memory holds; before, what was last written. -/
def State.customValue (s : State) (p key : Nat) : List Byte :=
  let g := s.program p
  let t := customType g.image key
  if g.state = 1 then (lookup key g.objs).getD (g.customDefault key)
  else t.unpack (s.read (clusterBase + g.memBase + g.objPlace key) t.slot)

/-- A customer object is written: in the table where its program runs. -/
def State.customPut (s : State) (p key : Nat) (v : List Byte) : State :=
  let g := s.program p
  if g.state = 1 then s.modProg p (fun g => { g with objs := insertKey key v g.objs })
  else s.write (clusterBase + g.memBase + g.objPlace key) ((customType g.image key).pack v)

/-- A starting program's part of cluster memory takes the image's initial data, and its table what was written meanwhile. -/
def State.memStart (s : State) (p : Nat) : State :=
  let g := s.program p
  let b := clusterBase + g.memBase
  g.objs.foldl (fun s e => s.write (b + g.objPlace e.1) ((customType g.image e.1).pack e.2)) (s.write b (imageBytes g.image 0 g.hdr.mem))

/-! ## Running (R233) -/

/-- The lowest place in cluster memory where program `p` fits beside the other programs' parts (R233): a faulted program keeps its
own. -/
def State.memPlace (s : State) (p : Nat) : Option Nat :=
  let n := (s.program p).hdr.mem
  let run := ((upTo 4).filter (fun i => i != p && decide (2 ≤ (s.program i).state))).map s.program
  let starts := 0 :: run.map (fun g => g.memBase + g.memLen)
  let ok (a : Nat) : Bool := decide (a + n ≤ 0x80000) && run.all (fun g => decide (a + n ≤ g.memBase) || decide (g.memBase + g.memLen ≤ a))
  (starts.filter ok).foldl (fun m a => match m with
    | none => some a
    | some b => some (min a b)) none

/-- ProgramRun can be written 1 (R233; log 41): an image is loaded, its cores are free and its memory fits. -/
def State.canRun (s : State) (p : Nat) : Bool :=
  let g := s.program p
  g.state == 2 || (g.state != 0 && decide (g.hdr.cores ≤ s.freeCores.length) && (s.memPlace p).isSome)

/-- The controller loads a program's image into its cores and runs the initialisation entry on them (R216, R233). -/
def State.startCores (s : State) (p : Nat) (img : List Byte) (cs : List Nat) : State :=
  cs.foldl (fun s c => s.modCore c (fun k => { k with prog := .image img }.start (.customer p) 0 none s.time.now)) s

/-- The program starts at a Tide edge (R233). -/
def State.startProgram (s : State) (p : Nat) : State :=
  let g := s.program p
  match s.memPlace p with
  | some a =>
    if g.state ≠ 2 ∧ s.canRun p then
      let cs := s.freeCores.take g.hdr.cores
      let s := (s.modProg p (fun g => { g with state := 2, cores := cs, memBase := a, memLen := g.hdr.mem, faultRun := 0
                                               faultNow := false, ringA := [], ringB := [], putA := 0, putB := 0 })).memStart p
      (s.modProg p (fun g => { g with objs := [] })).startCores p g.image cs
    else s
  | none => s

/-- The program is aborted under R221: its cores are signalled, what they have published goes out INCOMPLETE, and they are no
longer its own (R233). Its memory, free for another, is out of its reach from the next Tide edge on. -/
def State.stopProgram (s : State) (p : Nat) : State :=
  let g := s.program p
  if g.state = 2 then
    let s := g.cores.foldl (fun s c => if (s.core c).running then
      (s.markOutputs c false).modCore c (fun k => { k.abort with again := none }) else s) s
    s.modProg p (fun g => { g with state := 1, cores := [], ringA := [], ringB := [], objs := [] })
  else s

/-- Programs that do not run reach no cluster memory (R233, R234), from the Tide edge on (DESIGN CHOICE, log 188). -/
def State.memFreed (s : State) : State :=
  { s with brew := { s.brew with progs := s.brew.progs.map (fun g => if g.state < 2 then { g with memLen := 0 } else g) } }

/-- Programs at a Tide edge: the run of Tides with exceptions, and the dispatch of Tide work in program order, due at the next
edge; a core still at work takes it once it halts (R45, R218, R234). -/
def State.programEdge (s : State) : State :=
  let s : State := { s with brew := { s.brew with
    progs := s.brew.progs.map (fun g => { g with faultRun := if g.faultNow then g.faultRun else 0, faultNow := false }) } }
  if s.brewOn then
    (upTo 4).foldl (fun s p =>
      let g := s.program p
      if g.state = 2 ∧ g.hdr.tideWork then
        g.cores.foldl (fun s c => s.modCore c (fun k =>
          if k.out then k else if k.running then { k with again := some (s.tide.edges + 1) }
          else k.start (.customer p) 1 (some (s.tide.edges + 1)) s.time.now)) s
      else s) s
  else s

/-- Whether a program subscribes to a record of the stream port: quality bit 1, decimated channel c bit 2 + c (R214). -/
def Program.subscribes (g : Program) (q : Port) (r : RingRec) : Bool :=
  let m := match q with
    | .a => g.hdr.subA
    | .b => g.hdr.subB
  g.state == 2 && bitOf m (if r.type = 2 then 1 else 2 + r.ring)

/-- Bytes waiting in a stream ring. -/
def ringBytes (l : List (List Byte)) : Nat := sumN (l.map List.length)

/-- The ring takes a record whole, where it has room. -/
def Program.take (g : Program) (q : Port) (bytes : List Byte) : Option Program :=
  match q with
  | .a => if ringBytes g.ringA + bytes.length ≤ g.hdr.ringA then
      some { g with ringA := g.ringA ++ [bytes], putA := (g.putA + bytes.length) % max 1 g.hdr.ringA } else none
  | .b => if ringBytes g.ringB + bytes.length ≤ g.hdr.ringB then
      some { g with ringB := g.ringB ++ [bytes], putB := (g.putB + bytes.length) % max 1 g.hdr.ringB } else none

/-- The bytes of a record that enters a program's stream ring, in pool SRAM: the rings of the running programs follow one another
behind the detection state, each filled round (R212; log 147). -/
def State.ringStore (s : State) (p : Nat) (q : Port) (bytes : List Byte) : State :=
  let g := s.program p
  let base := s.streamBase q + sumN (((s.brew.progs.take p).filter (fun g => g.state == 2)).map (fun g => ImageHeader.ring g.hdr q))
  let size := ImageHeader.ring g.hdr q
  let at_ := match q with
    | .a => g.putA
    | .b => g.putB
  let n := min bytes.length (size - at_)
  (s.write (base + at_) (bytes.take n)).write base (bytes.drop n)

/-- BREW_STREAM_INPUT: the oldest record at the stream port of a port reaches the rings of the programs that subscribe, or
is dropped for those that lack room (R214). -/
def execBrewStreamInput (q : Port) (s : State) : Host.Outcome State Fault Refusal :=
  match (s.port q).brewIn with
  | [] => .next s
  | r :: rest =>
    let s := s.modPort q (fun ps => { ps with brewIn := rest })
    .next ((upTo 4).foldl (fun s p =>
      let g := s.program p
      if s.brewOn && Program.subscribes g q r then
        match Program.take g q r.bytes with
        | some g' => (s.ringStore p q r.bytes).modProg p (fun _ => g')
        | none => ({ s with brew := { s.brew with drops := satAdd 0xFFFFFFFF s.brew.drops 1 } }).raise stBrew [3]
      else s) s)

end Sys2Proof.Machine
end

