-- ==== Sys2Proof/Machine/Objects.lean ====
section
/-! DEFINITION. What each object reads as, and the attributes Info gives (R376–R381, R390, R402–R405). -/
namespace Sys2Proof.Machine
open Sys2Proof

/-! ## Customer objects (R405, log 65) -/

/-- The program whose range holds an index, and the object's number in it. -/
def custom? (idx sub : Nat) : Option (Nat × Nat) :=
  if 0x6800 ≤ idx ∧ idx < 0x7000 then some ((idx - 0x6800) / 0x200, (idx - 0x6800) % 0x200 * 256 + sub) else none

/-- The row of a customer object, where its program is loaded and declares it: its table has room for it. -/
def State.customRow (s : State) (idx sub p key : Nat) : Option ObjRow :=
  let g := s.program p
  let d := Config.customerObject g.image key
  if g.state = 0 ∨ d = 0 ∨ g.hdr.mem < (customType g.image key).slot then none
  else
    let rw := bitOf (d - 1) 4
    some { idx := idx, sub := sub, n := 1, ty := customType g.image key, acc := if rw then .rw else .ro
           wp := if rw then 1 else 255, ap := .immediate, pers := false
           rng := .coded (Config.customerMin g.image key) (Config.customerMax g.image key), dflt := .none, maxLen := 255, name := "" }

/-- The highest subindex a program declares at an index. -/
def State.customTop (s : State) (idx : Nat) : Option Nat :=
  (upTo 256).foldl (fun m i => match custom? idx i with
    | some (p, k) => if i ≠ 0 ∧ (s.customRow idx i p k).isSome then some i else m
    | none => m) none

/-! ## Rows -/

/-- The index whose pending objects an index's rows describe: the active copies 0x2011 and 0x2021 are those of 0x2010 and
0x2020 (R38, R380). -/
def pendIndex (idx : Nat) : Nat := if idx = 0x2011 ∨ idx = 0x2021 then idx - 1 else idx

/-- The highest subindex at an index; none where the index is not implemented (R376, R401). Diagnostics, which the spec
does not describe, count as not implemented (log 69). -/
def State.top (s : State) (idx : Nat) : Option Nat :=
  if 0x6800 ≤ idx ∧ idx < 0x7000 then s.customTop idx else topSub (pendIndex idx)

/-- Attributes of an object (R69, R376–R381). -/
def State.row (s : State) (idx sub : Nat) : Option ObjRow :=
  if sub = 0 then (s.top idx).map (fun _ =>
    { idx := idx, sub := 0, n := 1, ty := .u8, acc := .ro, wp := 255, ap := .immediate, pers := false, rng := .full,
      dflt := .none, maxLen := 0, name := "" })
  else match custom? idx sub with
    | some (p, k) => s.customRow idx sub p k
    | none => (objRow? (pendIndex idx) sub).map (fun r =>
      let r : ObjRow := if r.idx = 0x3131 ∧ sub % 2 = 0 then { r with name := "BandHigh" } else r
      if pendIndex idx ≠ idx ∨ (s.laserShare ∧ idx = 0x2200 ∧ sub ≤ 8) then { r with acc := .ro, wp := 255 } else r)

/-- Privilege a read needs: the level its Access cell names (R379; log 70); of a customer object, Observer: R405 names the write
privilege alone. -/
def ObjRow.readLevel (r : ObjRow) : Nat := if r.wp = 255 ∨ (0x6800 ≤ r.idx ∧ r.idx < 0x7000) then 0 else r.wp

/-- Privilege a write needs (R379). -/
def ObjRow.writeLevel (r : ObjRow) : Nat := if r.wp = 255 then 0 else r.wp

/-- Largest length of a STR or BLOB (R377). -/
def ObjRow.limit (r : ObjRow) : Nat := if r.ty = .blob ∧ r.maxLen = 65535 then 67108864 else r.maxLen

/-! ## Computed values -/

def u8 (n : Nat) : List Byte := leBytes 1 n
def u16 (n : Nat) : List Byte := leBytes 2 n
def u32 (n : Nat) : List Byte := leBytes 4 n
def u64 (n : Nat) : List Byte := leBytes 8 n
def i32 (n : Int) : List Byte := leBytes 4 (ofSigned 32 n)
def f32v (x : Num) : List Byte := leBytes 4 x.toF32

/-- A mask of the numbers below `n` that satisfy `f`. -/
def maskOf (n : Nat) (f : Nat → Bool) : Nat := sumN ((upTo n).map (fun i => if f i then 2 ^ i else 0))

/-- FaultLog as bytes (R517). -/
def State.faultLogBytes (s : State) : List Byte :=
  s.bwf.faultLog.flatMap (fun e => u32 e.key ++ u64 e.time ++ u32 e.count)

/-- AnchorState (R192). -/
def Kiln.anchorState (k : Kiln) : Nat := if k.anchor.isNone then 0 else if 8 ≤ k.noAccept then 2 else 1

/-- CalStaleMask (R462). -/
def State.staleMask (s : State) : Nat :=
  let port (q : Port) : Nat :=
    let ps := s.port q
    let on := s.kilnOn q
    let m16 := s.pn q 0x4010 5 == 16
    let item (i : Nat) (b : Bool) : Nat := if b then 2 ^ (2 * i + Port.num q) else 0
    if s.portEn q then
      item 0 (ps.rx.cal.state == 3) + item 1 (on && ps.rx.kCal.state == 3) + item 2 (ps.trim.state == 3)
        + item 3 (!ps.opt.latOk) + item 4 (on && (ps.kiln.shape m16).isNone) + item 5 (on && ps.kiln.freqOff)
        + item 6 (on && ps.kiln.anchorState != 1)
    else 0
  port .a + port .b + (if s.time.inputs.any (·.stale) then 2 ^ 14 else 0) + (if s.hk.selfState = 4 then 2 ^ 15 else 0)

/-- A bank as a BLOB (R151). -/
def bankBytes (l : List Int) : List Byte := l.flatMap i32

/-- Objects 0x10xx, 0x11xx: identity, chain service, dictionary service. -/
def State.view10 (s : State) (c sub : Nat) : Option (List Byte) :=
  let o := s.otp
  match c, sub with
  | 0x1000, 1 => some (ascii "Penkoit")
  | 0x1000, 2 => some o.ordering
  | 0x1000, 3 => some o.revision
  | 0x1000, 4 => some o.serial
  | 0x1000, 5 => some (u16 (s.power.straps % 2 ^ 13))
  | 0x1001, 1 => some s.flash.cert
  | 0x1001, 2 => some s.flash.ca
  | 0x1001, 3 => some o.pubKey
  | 0x1001, 4 => some (u8 s.ident.idState)
  | 0x1001, 5 => some s.deviceId
  | 0x1002, 2 => some s.ident.attest
  | 0x1100, 1 => some (u8 s.role)
  | 0x1100, 3 => some (u16 s.node)
  | 0x1100, 9 => some (u8 (bit s.chain.w.isUp + 2 * bit s.chain.e.isUp + 4 * bit s.chain.w.wrapped + 8 * bit s.chain.e.wrapped
      + 16 * bit s.chain.localUp))
  | 0x1100, 0xA => some (u32 s.chain.dupDrops)
  | 0x1100, 0xB => some (u32 s.chain.stomped)
  | 0x1100, 0xC => some (u32 s.chain.policed)
  | 0x1110, 5 => some (u8 (bit s.od.dirty))
  | 0x1110, 6 => some (u32 s.od.storeFails)
  | 0x1110, 7 => some (u64 s.od.requests)
  | 0x1110, 8 => some (u32 s.od.errors)
  | 0x1110, 9 => some (u8 s.od.sessions.length)
  | 0x1110, 0xA => some (u8 s.od.transfers.length)
  | 0x1110, 0xB => some (u32 s.od.busy)
  | _, _ => none

/-- Objects 0x12xx: time. -/
def State.view12 (s : State) (c k sub : Nat) : Option (List Byte) :=
  let t := s.time
  let r := t.series
  let i := s.tiu k
  match c, sub with
  | 0x1200, 1 => some (u8 t.state)
  | 0x1200, 2 => some (u64 t.now)
  | 0x1200, 3 => some (i32 t.theta)
  | 0x1200, 4 => some (f32v (Num.ofRatio t.y 1000))
  | 0x1200, 7 => some (u8 (bit t.warm))
  | 0x1210, 0xA => some (u32 t.delayW)
  | 0x1210, 0xB => some (u32 t.delayE)
  | 0x1220, 5 => some (u8 t.gnss)
  | 0x1220, 6 => some (u32 t.jumpCount)
  | 0x1230, 4 => some (u32 i.dead)
  | 0x1230, 5 => some (u32 i.glitches)
  | 0x1230, 6 => some (u32 i.stucks)
  | 0x1230, 7 => some (u32 i.strays)
  | 0x1240, 7 => some (u8 r.state)
  | 0x1240, 8 => some (u64 r.mean)
  | 0x1240, 9 => some (u32 r.std)
  | 0x1240, 0xA => some (u64 r.min)
  | 0x1240, 0xB => some (u64 r.max)
  | 0x1240, 0xC => some (u8 r.flags)
  | 0x1240, 0xD => some (u32 t.calCount)
  | 0x1240, 0xE => some (u64 t.calTime)
  | 0x1240, 0xF => some (u32 r.overflow)
  | 0x1240, 0x10 => some (u32 t.calFails)
  | _, _ => none

/-- Objects 0x13xx, 0x14xx: power, faults, security, update. -/
def State.view13 (s : State) (c sub : Nat) : Option (List Byte) :=
  let i := s.ident
  match c, sub with
  | 0x1300, 1 => some (u8 s.aon.cause)
  | 0x1300, 2 => some (u32 s.aon.fatalCount)
  | 0x1300, 3 => some (u32 s.aon.lastKey)
  | 0x1300, 4 => some (u64 s.aon.lastTime)
  | 0x1300, 8 => some (u64 s.aon.wakeAlarm)
  | 0x1300, 0xB => some (u8 (bit s.power.vmainOk))
  | 0x1300, 0xC => some (f32v (Num.ofRatio (max s.power.tCentre s.power.tEdge) 16))
  | 0x1300, 0xD => some (u8 (bit s.power.thermWarn))
  | 0x1300, 0x10 => some (u32 s.aon.tamperCount)
  | 0x1300, 0x11 => some (u8 (bit s.aon.safeHold))
  | 0x1300, 0x12 => some (u16 s.power.domains)
  | 0x1300, 0x13 => some (u64 s.bwf.corrected)
  | 0x1300, 0x14 => some (u32 s.bwf.contained)
  | 0x1300, 0x15 => some s.faultLogBytes
  | 0x1400, 2 => some (if s.ownerState = 0 then [] else sha256 s.ownerKey)
  | 0x1400, 3 => some (u8 s.ownerState)
  | 0x1400, 9 => some (u32 i.authFails)
  | 0x1400, 0xA => some (u32 i.tokenFails)
  | 0x1400, 0xB => some (u32 s.ownerCounter)
  | 0x1410, 2 => some (u8 i.stageState)
  | 0x1410, 3 => some (u8 i.stageResult)
  | 0x1410, 9 => some (u8 i.imageState)
  | 0x1410, 0xA => some (u32 s.confirmRemaining)
  | 0x1410, 0xB => some (versionOf i.running)
  | 0x1410, 0xC => some (versionOf s.flash.previous)
  | 0x1410, 0xD => some (if i.stageState = 2 ∨ i.stageState = 3 then versionOf s.flash.staging else [])
  | 0x1410, 0xE => some (u32 s.otp.secVersion)
  | 0x1410, 0xF => some (u32 i.fallbacks)
  | 0x1410, 0x11 => some (u8 s.updateBlock)
  | _, _ => none

/-- TideState reads the same as TimeState (R38, R313). -/
def State.tideState (s : State) : Nat := s.time.state

/-- Objects 0x20xx, 0x21xx, 0x22xx: Tide, plan, optics, receive. -/
def State.view20 (s : State) (c k sub : Nat) : Option (List Byte) :=
  let ps := s.port (instPort k)
  let fresh := ps.planResult != 255
  match c, sub with
  | 0x2000, 2 => some (u64 (s.tide.num % 2 ^ 48))
  | 0x2000, 3 => some (u8 s.tideState)
  | 0x2000, 5 => some (u32 s.tide.slipCount)
  | 0x2000, 6 => some (u16 s.tide.epoch)
  | 0x2001, i => if 1 ≤ i ∧ i ≤ 5 then some (u32 (s.tide.overrun.getD (i - 1) 0)) else none
  | 0x2010, 0x11 => some (u8 ps.planResult)
  | 0x2010, 0x12 => some (u64 (if fresh then ps.chkInterval else 0))
  | 0x2010, 0x13 => some (u32 (if fresh then ps.chkTail else 0))
  | 0x2010, 0x14 => some (if fresh then f32v ps.chkRate else u32 0)
  | 0x2100, 0x37 => some (u8 ps.opt.bias)
  | 0x2100, 0x51 => some (i32 ps.opt.latPs)
  | 0x2100, 0x52 => some (u32 ps.opt.missCount)
  | 0x2100, 0x53 => some (u8 ps.opt.state)
  | 0x2100, 0x54 => some (u32 ps.opt.ilockCount)
  | 0x2100, 0x6A => some (u32 ps.rx.clipCount)
  | 0x2100, 0x6B => some (u8 ps.rx.cal.state)
  | _, _ => none

/-- Objects 0x3xxx: Swash, decimation, Lauter. -/
def State.view30 (s : State) (c k sub : Nat) : Option (List Byte) :=
  let ps := s.port (instPort k)
  let w := ps.sw
  let dq := instPort (k / 2)
  let d := s.dec dq (k % 2)
  let preset := s.nat (decIndex dq (k % 2)) 2
  match c, sub with
  | 0x3100, 0x14 => some (u32 (s.strainPerLsb (instPort k)))
  | 0x3100, 0x20 => some (u64 w.unwrapCount)
  | 0x3100, 0x21 => some (f32v w.validFrac)
  | 0x3100, 0x22 => some (u32 w.anchorSwitches)
  | 0x3100, 0x23 => some (u32 w.restartCount)
  | 0x3100, 0x24 => some (u32 w.refSubCount)
  | 0x3100, 0x25 => some (f32v w.resolvedFrac)
  | 0x3100, 0x26 => some (f32v w.frozenFrac)
  | 0x3120, 9 => some (u8 d.active)
  | 0x3120, 0xA => some (if preset = 0 then [] else bankBytes (d.bank preset 0))
  | 0x3120, 0xB => some (if preset = 0 then [] else bankBytes (d.bank preset 1))
  | 0x3120, 0xC => some (f32v (Num.ofRatio (presetDelay2 preset) 2))
  | 0x3120, 0xD => some (u32 d.swaps)
  | 0x3130, 7 => some (u8 ps.laut.clamp)
  | _, _ => none

/-- Objects 0x4xxx: Kiln. -/
def State.view40 (s : State) (c k sub : Nat) : Option (List Byte) :=
  let q := instPort k
  let ps := s.port q
  let n := ps.kiln
  match c, sub with
  | 0x4010, 0xE => some (u8 ps.kilnResult)
  | 0x4011, 1 => some (u8 (s.kilnState q))
  | 0x4011, 2 => some (u32 n.seq)
  | 0x4011, 3 => some (u64 n.lastTime)
  | 0x4011, 4 => some (u32 n.lastAccepted)
  | 0x4011, 5 => some (u32 n.lastDropped)
  | 0x4011, 6 => some (u32 (f32Opt n.coilT))
  | 0x4011, 7 => some (u32 (f32Opt n.anchor))
  | 0x4011, 8 => some (u8 n.anchorState)
  | 0x4011, 9 => some (u32 n.overruns)
  | 0x4011, 0xB => some (u8 (if n.shapeRun then 3 else if s.pn q 0x4010 5 = 16 then n.shapeState16 else n.shapeState32))
  | 0x4011, 0xC => some (u32 n.floorCode)
  | 0x4011, 0xD => some (u16 n.aliasLvl)
  | 0x4011, 0xE => some (u32 n.coilFails)
  | 0x4011, 0xF => some (u32 n.coilCount)
  | 0x4011, 0x10 => some (u64 n.coilTime)
  | 0x4011, 0x11 => some (u32 (s.synKhz q))
  | 0x4011, 0x12 => some (i32 n.eSyn)
  | 0x4011, 0x13 => some (u32 n.freq.count)
  | 0x4011, 0x14 => some (u64 n.freq.time)
  | _, _ => none

/-- Objects 0x5xxx: Cellar, export, compression, DRAM. -/
def State.view50 (s : State) (c k sub : Nat) : Option (List Byte) :=
  let ps := s.port (instPort k)
  let d := s.cap k
  let m := s.dram
  match c, sub with
  | 0x5000, 1 => some (u32 s.cellarMib)
  | 0x5000, 2 => some (u64 s.rtBudget)
  | 0x5000, 3 => some (u64 s.committedRate)
  | 0x5010, 0x10 => some (u8 ps.cellarResult)
  | 0x5010, 0x11 => some (u64 ps.portRate)
  | 0x5040, 4 => some (u64 s.cask.written)
  | 0x5040, 5 => some (u32 s.cask.raw)
  | 0x5040, 6 => some (u32 s.cask.noSpace)
  | 0x5040, 7 => some (u32 s.cask.decErrors)
  | 0x5082, 1 => some (u8 (maskOf 4 (fun i => m.chans.contains i)))
  | 0x5082, 2 => some (u32 s.activeMib)
  | 0x5082, 3 => some (u8 m.hot)
  | 0x5082, 4 => some (u64 m.corrected)
  | 0x5082, 5 => some (u32 m.uncorrectable)
  | 0x5082, 6 => some (u32 m.misaddress)
  | 0x5082, 7 => some (u32 m.poisoned)
  | 0x5082, 8 => some (u8 ((m.lastMig.bind (fun ch => lookup ch m.migs)).elim 0 (·.state)))
  | 0x5082, 9 => some (u32 (m.retired % 2 ^ 12 + m.degraded % 2 ^ 12 * 2 ^ 16))
  | 0x5082, 0xA => some (u32 m.passes)
  | 0x5082, 0xB => some (u64 m.lastScrub)
  | 0x5082, 0xC => some (u32 m.result)
  | 0x5100, 0x10 => some (u8 d.state)
  | 0x5100, 0x11 => some (u64 d.ell)
  | 0x5100, 0x12 => some (u32 d.miss)
  | 0x5100, 0x13 => some (u32 d.secondary)
  | 0x5100, 0x14 => some (u8 d.flags)
  | 0x5100, 0x15 => some d.manifest
  | _, _ => none

/-- Objects 0x60xx, 0x9xxx: events, tracks, programs. -/
def State.view60 (s : State) (c k sub : Nat) : Option (List Byte) :=
  let ps := s.port (instPort k)
  let g := s.program k
  match c, sub with
  | 0x6010, 0xA => some (u16 ps.det.opened.length)
  | 0x6010, 0xB => some (u32 ps.det.ge)
  | 0x6030, 9 => some (u16 (if ps.trk.dropAt.isSome then 0 else (ps.trk.tracks.filter (·.confirmed)).length))
  | 0x6030, 0xA => some (u32 ps.trk.drops)
  | 0x9000, 0x11 => some (u16 (maskOf 16 (fun i => (s.core i).out)))
  | 0x9000, 0x12 => some (f32v s.brew.peak)
  | 0x9000, 0x13 => some (u32 s.brew.faults)
  | 0x9000, 0x14 => some (u32 s.brew.drops)
  | 0x9010, 2 => some (u8 g.state)
  | 0x9010, 4 => some (u16 (maskOf 16 (fun i => g.cores.contains i)))
  | 0x9010, 5 => some (u32 g.faults)
  | 0x9010, 6 => some g.hdr.name
  | _, _ => none

/-- Objects 0x7xxx: chain and paired spans. -/
def State.view70 (s : State) (c k sub : Nat) : Option (List Byte) :=
  let ps := s.port (instPort k)
  let p := ps.pair
  let h := s.chain
  let opt (x : Option Int) : List Byte := match x with
    | some v => i32 v
    | none => u32 0xFFFFFFFF
  match c, sub with
  | 0x7000, 1 => some (u8 h.state)
  | 0x7000, 3 => some (u16 h.acting)
  | 0x7000, 4 => some (u16 s.nodeCount)
  | 0x7000, 8 => some (u8 (bit h.pend.isSome))
  | 0x7000, 9 => some (u8 h.result)
  | 0x7000, 0xA => some (u16 h.refuser)
  | 0x7000, 0xC => some (u32 h.latency)
  | 0x7000, 0x10 => some s.faultTable
  | 0x7000, 0x12 => some (u32 h.overflow)
  | 0x7010, 9 => some (u8 p.state)
  | 0x7010, 0xA => some (u8 ps.pairResult)
  | 0x7010, 0xB => some (u16 p.suggest)
  | 0x7010, 0xC => some (opt p.delayIn)
  | 0x7010, 0xD => some (opt p.delayOut)
  | 0x7010, 0xE => some (opt p.aligned)
  | 0x7010, 0xF => some (i32 p.skew)
  | 0x7010, 0x11 => some (u16 p.level)
  | 0x7010, 0x12 => some (i32 p.breakPos)
  | 0x7010, 0x14 => some (u32 p.takeovers)
  | 0x7010, 0x15 => some (u32 p.handoffs)
  | 0x7010, 0x16 => some (u32 p.handFails)
  | _, _ => none

/-- Objects 0x8xxx: housekeeping and calibration. -/
def State.view80 (s : State) (c k sub : Nat) : Option (List Byte) :=
  let h := s.hk
  let b := h.br k
  match c, sub with
  | 0x8000, 5 => some (u8 (if h.refLost then 2 else bit h.refRdy))
  | 0x8000, 6 => some (u32 h.overruns)
  | 0x8000, 8 => some (u32 h.injResult)
  | 0x8000, 9 => some (u32 h.injDrops)
  | 0x8000, 0xA => some (u32 h.scanLate)
  | 0x8002, i => some (u32 (if s.scanned (i - 1) then (lookup (i - 1) h.values).elim nan32 (·.bits) else nan32))
  | 0x8010, 0xF => some (u32 b.ratio)
  | 0x8010, 0x10 => some (u32 (if s.nat (0x8010 + k) 8 = 1 then b.temp else nan32))
  | 0x8010, 0x11 => some (u8 b.flags)
  | 0x8010, 0x12 => some (u32 b.breaks)
  | 0x8020, 2 => some (u8 h.selfState)
  | 0x8020, 3 => some (u32 h.calCount)
  | 0x8020, 4 => some (u64 h.calTime)
  | 0x8020, 9 => some (u8 h.sysState)
  | 0x8020, 0xA => some (u32 h.calFails)
  | 0x8040, 1 => some (u16 s.staleMask)
  | 0x8040, 2 => some (u8 s.pa.trim.state)
  | 0x8040, 3 => some (u8 s.pb.trim.state)
  | _, _ => none

/-- The computed value of an object; none where it is held as a value. -/
def State.view (s : State) (idx sub : Nat) : Option (List Byte) :=
  let (c, k) := canonIndex idx
  match c / 0x1000 with
  | 1 => if c < 0x1200 then s.view10 c sub else if c < 0x1300 then s.view12 c k sub else s.view13 c sub
  | 2 => s.view20 c k sub
  | 3 => s.view30 c k sub
  | 4 => s.view40 c k sub
  | 5 => s.view50 c k sub
  | 6 => s.view60 c k sub
  | 7 => s.view70 c k sub
  | 8 => s.view80 c k sub
  | 9 => s.view60 c k sub
  | _ => none

/-- What a read returns, plain or of the active copy (R38, R69, R376, R380). -/
def State.readObj (s : State) (idx sub : Nat) (active : Bool) : List Byte × State :=
  if sub = 0 then (u8 ((s.top idx).getD 0), s)
  else match custom? idx sub with
    | some (p, k) => match s.customRow idx sub p k with
      | some _ => (s.customValue p k, s)
      | none => ([], s)
    | none =>
      let active := active || pendIndex idx != idx
      let idx := if s.laserShare ∧ idx = 0x2200 ∧ sub ≤ 8 then 0x2100 else pendIndex idx
      -- a certificate that has been written takes effect at the next start (R380, R468)
      if active ∧ idx = 0x1001 ∧ sub = 1 then (s.ident.cert, s) else
      match s.view idx sub with
      | some v => (v, s)
      | none => match objRow? idx sub with
        | none => ([], s)
        | some r =>
          if active then (s.obj idx sub, s)
          else match r.ap with
            | .immediate => (s.obj idx sub, s)
            | .nextTide | .epoch => (s.objPend idx sub, s)
            | .nextStart => ((lookup (objKey idx sub) s.od.image).getD (objDefault s.power.straps s.nodeHigh idx sub), s)

/-- Code of applies (R388). -/
def Applies.code : Applies → Nat
  | .immediate => 0
  | .nextTide => 1
  | .epoch => 2
  | .nextStart => 3

/-- Code of access (R390). -/
def Acc.code : Acc → Nat
  | .ro => 0
  | .rw => 1
  | .wo => 2
  | .rws => 3

/-- Lowest and highest value of a row, in the type's encoding; 0 for STR and BLOB (R390). -/
def ObjRow.bounds (r : ObjRow) : List Byte × List Byte :=
  let enc (v : Int) : List Byte := r.ty.encode v
  let full : List Byte × List Byte := match r.ty with
    | .bool => (enc 0, enc 1)
    | .i16 => (enc (-32768), enc 32767)
    | .i32 => (enc (-2147483648), enc 2147483647)
    | .f32 => (u32 0xFF7FFFFF, u32 0x7F7FFFFF)
    | t => match t.size with
      | some n => (zeros n, List.replicate n 0xFF)
      | none => ([], [])
  match r.rng with
  | .full => full
  | .between lo hi => (enc lo, enc hi)
  | .fbetween lo hi d => (f32v (Num.dec lo d), f32v (Num.dec hi d))
  | .oneOf l => (enc (l.foldl min (l.headD 0)), enc (l.foldl max (l.headD 0)))
  | .orZero _ hi => (enc 0, enc hi)
  | .hkInput n => (enc 0, enc (n + 31))
  | .magnitude _ hi => (enc (-hi), enc hi)
  | .coded lo hi => match r.ty.size with
    | some n => (leBytes n lo, leBytes n hi)
    | none => ([], [])

/-- Zero-extend to 8 bytes. -/
def ext8 (b : List Byte) : List Byte := (b ++ zeros 8).take 8

/-- The default Info reports: 0 for STR and BLOB, a strap default as computed at this start (R390). -/
def State.infoDefault (s : State) (idx sub : Nat) (r : ObjRow) : List Byte :=
  match r.ty with
  | .str | .blob => []
  | _ => match custom? idx sub with
    | some (p, k) => (s.program p).customDefault k
    | none => if sub = 0 then u8 ((s.top idx).getD 0) else objDefault s.power.straps s.nodeHigh (pendIndex idx) sub

/-- The answer of Info (R390); `writable`: a write would not meet the state error now. -/
def State.info (s : State) (idx sub : Nat) (r : ObjRow) (writable : Bool) : List Byte :=
  let strap := match r.dflt with
    | .strap _ => true
    | _ => false
  let len := match r.ty with
    | .str | .blob => min 65535 r.limit
    | _ => 0
  u8 r.ty.code ++ u8 r.acc.code ++ u8 r.readLevel ++ u8 (if r.acc = .ro then 255 else r.writeLevel) ++ u8 r.ap.code
    ++ u8 (bit r.pers + 2 * bit (writable && r.acc != .ro) + 4 * bit strap) ++ u16 len
    ++ ext8 r.bounds.1 ++ ext8 r.bounds.2 ++ ext8 (s.infoDefault idx sub r) ++ ascii r.name

end Sys2Proof.Machine
end

