-- ==== Sys2Proof/Machine/Start.lean ====
section
/-! DEFINITION. Start-up: switching domains on, installing, falling back, booting, and resets that firmware asks for
(R479, R485–R489, R494, R497, R499, R502, R518, R519). -/
namespace Sys2Proof.Machine
open Sys2Proof

/-- Set one bit of a mask. -/
def withBit (n b : Nat) : Nat := n ||| 2 ^ b

/-- A domain's turn (R494): the ROM switches HIF and MEM on, and NET for a load over the trunk (log 185), firmware the rest, TXA and TXB
after all others. CTL comes on as firmware starts. -/
def State.switchesOn (s : State) (d : Nat) : Bool :=
  s.domainAllowed d && (if s.up then decide (4 ≤ d)
      && (decide (d < 10) || (upTo 10).all (fun e => decide (e < 4) || !s.domainAllowed e || s.domain e))
    else s.power.phase == .starting && s.pllsLocked && (d == 1 || d == 2 || (d == 4 && s.romTrunk)))

/-- DOMAIN_SWITCH_ON: firmware or the ROM switches a domain on (R494). With MEM the ROM loads DDRC_CFG from the stored
memory configuration (log 64); firmware loads and enables the blocks of the others. -/
def execDomainSwitchOn (d : Nat) (s : State) : Host.Outcome State Fault Refusal :=
  if s.switchesOn d then
    let s := { s with power := { s.power with domains := withBit s.power.domains d } }
    if s.up then .next (s.enableDomain d)
    else if d = 2 then
      let data := match bestBank s.flash.banks with
        | some i => (s.flash.banks.getD i {}).data
        | none => []
      .next (({ s with od := { s.od with act := data } }).syncDdrc)
    else .next s
  else .next s

/-- IMAGE_INSTALL: a start with an armed image (R485). `vbatOk`: VBAT is not below UpdateVbatMin. Where either supply
fails the check the image stays armed and the active slot is booted. The copies stand here as one step: a start that interrupts one
finds the journal's step undone and repeats it (log 186). -/
def execImageInstall (vbatOk : Bool) (s : State) : Host.Outcome State Fault Refusal :=
  if s.power.phase = .starting ∧ s.pllsLocked ∧ s.bootFlash ∧ s.flash.armed ∧ ¬ s.ident.checked then
    let s := s.modIdent (fun i => { i with checked := true })
    if s.power.vmainOk ∧ vbatOk then
      .next ((s.modFlash (fun f => { f with previous := f.active, active := f.staging, armed := false, awaiting := true })).modIdent
        (fun i => { i with fresh := true }))
    else .next s
  else .next s

/-- The banks as the protected one is returned to: every later commit is dropped (R489). -/
def returnBanks (bs : List Bank) (g : Nat) : List Bank :=
  let q := (bs.getD g {}).seq
  bs.map (fun b => if q < b.seq then { b with valid := false } else b)

/-- FALLBACK: any start while an image awaits confirmation (R487). -/
def execFallback (s : State) : Host.Outcome State Fault Refusal :=
  if s.power.phase = .starting ∧ s.pllsLocked ∧ s.bootFlash ∧ s.flash.awaiting ∧ ¬ s.ident.fresh then
    .next ((s.modFlash (fun f => { f with
      active := f.previous, staging := [], armed := false, awaiting := false, guarded := none
      banks := match f.guarded with
        | some g => returnBanks f.banks g
        | none => f.banks })).modIdent (fun i => { i with
      imageState := 2, stageResult := 12, stageState := 0, fallbacks := satAdd 0xFFFFFFFF i.fallbacks 1, owed := i.owed ++ [5] }))
  else .next s

/-- The store a start uses, and the banks after a migration (R488, R489): data, banks, protected bank, too old. -/
def State.bootStore (s : State) (hdr : List Byte) (first : Bool) : List (Nat × List Byte) × Flash × Bool :=
  let f := s.flash
  match bestBank f.banks with
  | none => ([], f, false)
  | some i =>
    let b := f.banks.getD i {}
    let sv := hdrField hdr 20 4
    if first ∧ b.version < sv then
      let old := decide (b.version < hdrField hdr 24 4)
      let data := if old then keptStore b.data else b.data
      let j := commitBank f.banks (some i)
      let nb : Bank := { valid := true, version := sv, seq := (topSeq f.banks + 1) % 2 ^ 32, data := data }
      (data, { f with banks := setAt f.banks j nb, guarded := some i }, old)
    else (b.data, f, false)

/-- Firmware starts (R468, R470, R489, R313, R381, R497): the state of the store, the identity, time and the faults owed. -/
def State.startFirmware (s : State) (img : List Byte) (imageState : Nat) (prev : Bool) : State :=
  let hdr := img.take 256
  let first := s.ident.fresh
  let (data, flash, old) := s.bootStore hdr first
  let st := s.identityState
  let bad := match flash.owner with
    | some o => !o.intact
    | none => false
  let owed := s.ident.owed ++ (if st = 0 then [] else [2]) ++ (if bad then [3] else []) ++ (if prev then [4] else [])
    ++ (if old then [6] else [])
  let s : State := { s with
    flash := flash
    od := { s.od with act := data, image := data }
    power := { s.power with phase := .running, domains := s.power.domains ||| 0xE }
    ident := { s.ident with idState := st, cert := flash.cert, running := hdr, imageState := imageState, owed := []
                            stageState := if flash.armed then 3 else s.ident.stageState } }
  let rtc := s.rtcNow
  let now : Nat := if s.aon.rtcValid then ((rtc : Int) + s.leapNs).toNat else flash.lastTime
  let s : State := { s with
    aon := { s.aon with rtc := rtc, rtcAt := now }
    time := { s.time with now := now, tickAt := now * 2 ^ 32, gnssAt := now, syncAt := now }
    ident := { s.ident with startAt := now }
    chain := { s.chain with listening := s.role == 2 } }
  let s := s.setTimeState 1
  let lat (s : State) (q : Port) : State := match lookup (latencyKey q) s.flash.cal with
    | some [v] => s.modOpt q (fun o => { o with latOk := true, latPs := v })
    | _ => s
  let shp (s : State) (q : Port) (m16 : Bool) : State := match lookup (0x100 + 2 * Port.num q + bit m16) s.flash.cal with
    | some l => s.modKiln q (fun k =>
      let g := some (l.map Int.toNat)
      (if m16 then { k with shape16 := g } else { k with shape32 := g }).setShapeState m16 1)
    | none => s
  -- the anchor and its time (R192)
  let anchor (s : State) (q : Port) : State :=
    let o := portIndex q 0x4010 + 1
    match lookup (objKey o 7) data with
    | some v => s.modKiln q (fun k => { k with anchor := some (f32Num (leNat v)), coilTime := ((lookup (objKey o 0x10) data).map leNat).getD 0 })
    | none => s
  let s := bothPorts.foldl (fun s q => anchor (shp (shp (lat s q) q false) q true) q) s
  -- firmware loads and enables the blocks of the domains that are on (log 64)
  let s := (s.setReg 0x48 0xC (s.nat 0x1300 5)).setReg 0x48 0 0xF1
  let s := ((s.syncScan.syncBridge 0).syncBridge 1).hkEnable true
  let s := ((s.setRegBit 0x28 0 0 true).setRegBit 0x29 0 0 true).setRegBit 0x2A 0 1 true
  let s := s.setRegBit 0x2A 0 2 (s.nat 0x5081 4 != 0)
  let s := (upTo 12).foldl (fun s d => if s.domain d then s.enableDomain d else s) s
  -- the faults that the start owes (R507, R508, R511); those of SYS are firmware's own (R486, log 187)
  let s := owed.foldl (fun s n => s.containedFw 0 0 n) s
  let s := s.dram.owed.foldl (fun s ch => s.contained 0x2A ch 2) s
  let s : State := { s with dram := { s.dram with owed := [] } }
  let s := s.aon.tamperOwed.foldl (fun s i => s.contained 0x49 i 4) s
  let s := match s.aon.shutOwed with
    | some i => s.contained 0x49 i 2
    | none => s
  { s with aon := { s.aon with tamperOwed := [], shutOwed := none } }

/-- The path of a load is there (R479): a trunk that the key exchange has secured, or PCIe where HOSTSEL is low. -/
def State.loadOpen (s : State) : Bool := if s.trunkBoot then s.chain.w.secured || s.chain.e.secured else !s.hostSel

/-- The ROM verifies an image and firmware starts (R479). `load`: the image that the host or the manager loads. An installation or
a fallback that is pending comes first. -/
def State.boot (s : State) (load : Option (List Byte)) : State :=
  if s.power.phase = .starting ∧ s.pllsLocked ∧ s.dram.trained then
    if s.bootFlash ∧ ((s.flash.awaiting ∧ ¬ s.ident.fresh) ∨ (s.flash.armed ∧ ¬ s.ident.checked)) then s
    else if s.bootFlash ∧ ¬ s.ident.loadWait then
      if s.romAccepts s.flash.active then
        s.startFirmware s.flash.active (if s.flash.awaiting then 1 else s.ident.imageState) false
      else if s.romAccepts s.flash.previous then s.startFirmware s.flash.previous s.ident.imageState true
      else s.modIdent (fun i => { i with loadWait := true })
    else match load with
      | some img => if s.loadOpen ∧ s.romAccepts img then s.startFirmware img 3 false else s
      | none => s
  else s

/-! ## Resets asked for (R499, R502, R518, R519) -/

/-- RESET_REQUEST_NO_TIDE: a reset asked for while no Tide runs follows within 10 ms (R502). -/
def execResetRequestNoTide (s : State) : Host.Outcome State Fault Refusal :=
  if s.up ∧ s.power.resetAsked ∧ ¬ s.tide.running then .next (s.fullReset 5) else .next s

/-- CORRECTED_FAULT: a unit has corrected an error (R204, R510). -/
def execCorrectedFault (s : State) : Host.Outcome State Fault Refusal :=
  .next (if s.alive then s.corrected else s)

/-- A read of BWF_LOG takes the oldest entry and latches its time (R519). -/
def State.bwfLogRead (s : State) : Nat × State :=
  match s.bwf.log with
  | [] => (0, s)
  | (k, t) :: rest => (k, { s with bwf := { s.bwf with log := rest, latchTime := t } })

/-- A write to BWF_WDOG_KICK restarts the writing control processor's period (R513): initiators 1–4 are CP0–CP3. -/
def State.wdogKick (s : State) (init : Nat) : State :=
  if 1 ≤ init ∧ init ≤ 4 then
    let w := s.power.wdogStage
    { s with power := { s.power with wdogStage := if bitOf w (init - 1) then w - 2 ^ (init - 1) else w } }
  else s

end Sys2Proof.Machine
end

