-- ==== Sys2Proof/Machine/Write.lean ====
section
/-! DEFINITION. What a write to each object does: the checks of range, state and conflict, and the effect (R380, R391 checks
8 to 10, R399, R400). Each function answers the status of R394 with the state. -/
namespace Sys2Proof.Machine
open Sys2Proof

/-! ## State and conflict checks -/

/-- The state error of a plain write (R77, R111, R332, R378, R386, R405; KilnIqSwap under R200). -/
def State.stateBar (s : State) (idx sub : Nat) (v : List Byte) : Bool :=
  let (c, k) := canonIndex idx
  let ps := s.port (instPort k)
  match custom? idx sub with
  | some (p, _) => (s.program p).state == 3
  | none =>
    if c = 0x2000 ∧ sub = 1 then !s.rules
    else if c = 0x2100 ∧ [9, 0x20, 0x21, 0x22, 0x23, 0x24, 0x30, 0x34, 0x36].contains sub then ps.opt.state != 0
    else if c = 0x2100 ∧ sub = 0x61 then ps.hasPlan
    else if c = 0x4010 ∧ sub = 7 then s.kilnOn (instPort k) || ps.kiln.shapeRun
    else if c = 0x1240 ∧ 1 ≤ sub ∧ sub ≤ 5 then
      (s.time.series.state == 1 || s.time.series.state == 2) && !(sub == 1 && leNat v == 0)
    else false

/-- The sum of the three drive amplitudes exceeds 1 once one is replaced (R60). -/
def State.amplitudeOver (s : State) (idx sub : Nat) (v : List Byte) : Bool :=
  let a (i : Nat) : Num := f32Num (leNat (if i = sub then v else s.objPend idx i))
  !(((a 0x13).add (a 0x14)).add (a 0x15)).le (Num.ofNat 1)

/-- A pending value with one object of the index replaced. -/
def State.pendWith (s : State) (idx sub : Nat) (v : List Byte) (i : Nat) : Nat :=
  leNat (if i = sub then v else s.objPend idx i)

/-- A scan entry that R444 refuses. -/
def State.scanBad (s : State) (v : Nat) : Bool :=
  let src := v % 32
  let diff := bitOf v 5
  let names (a : Nat) : Bool := a == src || (diff && a == src + 1)
  decide (24 ≤ src) || (diff && (src % 2 == 1 || decide (16 ≤ src)))
    || bothPorts.any (fun q => s.biasRuns q && names (s.pn q 0x2100 0x36))

/-- The value-conflict error of a plain write (R60, R105, R146, R162, R163, R235, R259, R444; zones under R200). -/
def State.conflict (s : State) (idx sub : Nat) (v : List Byte) : Bool :=
  let (c, k) := canonIndex idx
  let w := s.pendWith idx sub v
  match c with
  | 0x2100 =>
    if sub = 0x13 ∨ sub = 0x14 ∨ sub = 0x15 then s.amplitudeOver idx sub v
    else if sub = 0x62 ∨ sub = 0x63 then decide (1024 < w 0x62 + w 0x63)
    else false
  | 0x3120 =>
    let q := instPort (k / 2)
    let count (ch : Nat) : Nat :=
      let j := decIndex q ch
      let o (i : Nat) : Nat := if j = idx then w i else s.pnat j i
      if o 1 = 1 then o 5 else 0
    if sub = 1 ∨ sub = 5 then decide (131072 < count 0 + count 1)
    else if sub = 2 ∨ sub = 6 then bitOf (w 6) 2 && w 2 == 0
    else false
  | 0x3131 =>
    let b := (sub - 1) / 2
    let lo := f32Num (w (2 * b + 1))
    let hi := f32Num (w (2 * b + 2))
    hi.le lo
  | 0x4100 => if sub = 1 ∨ sub = 2 then decide (w 2 < w 1) else false
  | 0x5100 => if sub = 5 ∨ sub = 6 ∨ sub = 0xC then decide (w 0xC < w 5 + w 6) else false
  | 0x6010 => if sub = 1 then leNat v == 0 && s.pnat (portIndex (instPort k) 0x6030) 1 == 1 else false
  | 0x6030 => if sub = 1 then leNat v == 1 && s.pnat (portIndex (instPort k) 0x6010) 1 == 0 else false
  | 0x8001 => s.scanBad (leNat v)
  | _ => false

/-! ## What a write sets besides its value -/

/-- What an Immediate write brings about besides its value (R68, R69, R70, R279, R464). -/
def State.afterWrite (s : State) (idx sub : Nat) : State :=
  let (c, k) := canonIndex idx
  let q := instPort k
  if c = 0x2100 ∧ (sub = 2 ∨ sub = 3) then
    if (s.laserSet q).en then s.laserLevels q else s
  else if c = 0x2100 ∧ (sub = 0x31 ∨ sub = 0x32 ∨ sub = 0x33) ∧ (s.port q).opt.state ≠ 0 then s.manualBias q
  else if c = 0x2100 ∧ (sub = 0x40 ∨ sub = 0x41 ∨ sub = 0x42) then
    let o := (s.port q).opt
    if (o.state = 4 ∨ o.state = 5 ∨ o.state = 6) ∧ ¬ o.stopping ∧ o.atSet then s.pumpTo q else s
  else if c = 0x5081 ∧ sub = 4 then s.setRegBit 0x2A 0 2 (s.nat 0x5081 4 != 0)
  else if c = 0x8010 then s.syncBridge k
  else s

/-- Store a value as its object's applies attribute says (R380, R399). -/
def State.putObj (s : State) (r : ObjRow) (idx sub : Nat) (v : List Byte) : State :=
  let s := s.invalidate idx sub
  let s := if r.pers then s.storeWrite (objKey idx sub) v else s
  match r.ap with
  | .immediate => (s.setObj idx sub v).afterWrite idx sub
  | .nextTide | .epoch => s.setPend idx sub v
  | .nextStart => s

/-! ## Objects with behaviour of their own -/

/-- A written value of 1 acts, any other is a range error (R39, R326, R404, R517). -/
def actOn1 (v : List Byte) (s : State) (r : Nat × State) : Nat × State := if leNat v = 1 then r else (6, s)

/-- A refusal with the state error where an operation is not open. -/
def orState (s : State) : Option State → Nat × State
  | some t => (0, t)
  | none => (8, s)

/-- A written RestoreDefaults empties the store image of what operators wrote; calibration results stay (R400, R489; log 72). -/
def State.restoreDefaults (s : State) : Nat × State :=
  if s.ident.imageState = 1 then (8, s)
  else (0, { s with od := { s.od with image := keptStore s.od.image, dirty := true } })

/-- StoreNow (R399). -/
def State.storeNow (s : State) (ok : Bool) : Nat × State := (if ok then 0 else 0xE, s.commitStore ok)

/-- LaserEnable of a laser set (R70, R75, R76, R503). -/
def State.laserEnable (s : State) (l : Port) (v : List Byte) : Nat × State :=
  if leNat v = 1 then
    if s.laserRefused l then (8, s) else (0, (s.setObj (portIndex l 0x2100) 1 v).laserOn l)
  else (0, (s.setObj (portIndex l 0x2100) 1 v).laserOff l)

/-- BankA and BankB (R151). An output that still finishes on the bank is computed with what is loaded, over its whole span
(DESIGN CHOICE, log 167). -/
def State.bankLoad (s : State) (q : Port) (c b : Nat) (v : List Byte) : Nat × State :=
  let preset := s.nat (decIndex q c) 2
  let d := presetD preset
  let h := (pieces 4 (6 * d + 1) v).map (fun x => toSigned 32 (leNat x))
  if preset = 0 ∨ (s.dec q c).active = b then (8, s)
  else if v.length ≠ 24 * d ∨ ¬ bankOk d h then (7, s)
  else (0, s.modDec q c (fun x => if b = 0 then { x with bankA := h } else { x with bankB := h }))

/-- BankSelect (R152). -/
def State.bankSelect (s : State) (q : Port) (c : Nat) (v : List Byte) : Nat × State :=
  if s.nat (decIndex q c) 2 = 0 then (8, s)
  else
    let b := leNat v
    (0, ((s.setObj (decIndex q c) 8 v).setRegBit (winRx q) 0x300 (8 + c) (b = 1)).bankRequest q c b)

/-- MeasArm (R326, R333): TIU_CFG is loaded from the measurement objects. -/
def State.measArm (s : State) : Nat × State :=
  if s.time.series.state = 1 ∨ s.time.series.state = 2 ∨ s.nat 0x1240 1 = 0 then (8, s)
  else (0, ((s.setReg 0x38 8 s.tiuCfg).setRegBit 0x38 4 0 true).armSeries)

/-- MeasMode: 0 ends a running series (R327). -/
def State.measMode (s : State) (v : List Byte) : Nat × State :=
  let run := s.time.series.state == 1 || s.time.series.state == 2
  if leNat v = 0 then (0, let s := s.setObj 0x1240 1 v; if run then s.measOff else s)
  else if run then (8, s) else (0, s.setObj 0x1240 1 v)

/-- ShapeCal (R187). -/
def State.shapeCal (s : State) (q : Port) : Nat × State := if s.shapeCalOk q then (0, s.shapeStart q) else (8, s)

/-- ProgramRun (R233): it takes effect at the next Tide. -/
def State.programRun (s : State) (p : Nat) (v : List Byte) : Nat × State :=
  if leNat v = 1 ∧ ¬ s.canRun p then (8, s) else (0, s.setPend (0x9010 + p) 3 v)

/-- ImageStage written whole (R482). -/
def State.writeStage (s : State) (v : List Byte) : Nat × State :=
  let (st, s) := s.stageStart
  if st = 0 then (0, s.stageDone v) else (st, s)

/-- The objects whose write is an operation: its status and state, none for an object that holds a value. -/
def State.action (s : State) (h : Hint) (idx sub : Nat) (v : List Byte) : Option (Nat × State) :=
  let (c, k) := canonIndex idx
  let q := instPort k
  let n := leNat v
  match c, sub with
  | 0x1001, 1 => some (s.writeCert v)
  | 0x1002, 1 => some (s.attest v)
  | 0x1110, 3 => some (actOn1 v s (s.storeNow h.ok))
  | 0x1110, 4 => some (actOn1 v s s.restoreDefaults)
  | 0x1240, 1 => some (s.measMode v)
  | 0x1240, 6 => some (actOn1 v s s.measArm)
  | 0x1300, 6 => some (actOn1 v s (0, s.askReset))
  | 0x1300, 7 => some (actOn1 v s (0, s.standbyByFirmware false h.ok))
  | 0x1300, 8 => some (0, { s with aon := { s.aon with wakeAlarm := n } })
  | 0x1300, 0x11 => some (0, { s with aon := { s.aon with safeHold := n == 1 } })
  | 0x1400, 1 => some (s.writeOwnerKey h.ok v)
  | 0x1400, 4 => some (s.writeOwnerLock n)
  | 0x1400, 5 => some (s.writeOwnerToken v)
  | 0x1400, 6 => some (s.writeOwnerTransfer v)
  | 0x1410, 1 => some (s.writeStage v)
  | 0x1410, 4 => some (s.writeUpdateToken v)
  | 0x1410, 5 => some (s.writeUpdateApply n)
  | 0x1410, 7 => some (s.writeConfirm n)
  | 0x2010, 0x10 => some (actOn1 v s (0, s.runPlanCheck q))
  | 0x2100, 1 => some (s.laserEnable q v)
  | 0x3120, 8 => some (s.bankSelect (instPort (k / 2)) (k % 2) v)
  | 0x3120, 0xA => some (s.bankLoad (instPort (k / 2)) (k % 2) 0 v)
  | 0x3120, 0xB => some (s.bankLoad (instPort (k / 2)) (k % 2) 1 v)
  | 0x4011, 0xA => some (actOn1 v s (s.shapeCal q))
  | 0x5083, 1 => some (orState s (s.retireRequest n))
  | 0x5100, 1 => some (orState s (s.captureArm k (n == 1)))
  | 0x5100, 0xF => some (orState s (s.triggerTime k n))
  | 0x5100, 0x16 => some (actOn1 v s (orState s (s.captureRelease k)))
  | 0x5100, 0x17 => some (orState s ((s.exportJob k n).map (fun t => t.setObj idx 0x17 v)))
  | 0x7000, 7 => some (s.epochRequest n h.spans)
  | 0x7000, 0x11 => some (0, s.faultClear n)
  | 0x7010, 0x13 => some (actOn1 v s (orState s (s.forceTakeover q)))
  | 0x8000, 7 => some (0, s.injectRequest n)
  | 0x8020, 1 => some (actOn1 v s (orState s s.selfCalStart))
  | 0x8020, 7 => some (orState s (s.sysCalStart false n))
  | 0x8020, 8 => some (orState s (s.sysCalStart true n))
  | 0x9010, 1 => some (s.loadProgram k (h.hdr.getD (headerOf v)) v)
  | 0x9010, 3 => some (s.programRun k v)
  | _, _ => none

/-- Range beyond the row's own (R405, R444): scan entries use bits [5:0]; a thermistor table has 16 pairs or is empty. -/
def rangeBar (r : ObjRow) (idx : Nat) (v : List Byte) : Bool :=
  !rangeOk r.ty r.rng v || (idx == 0x8001 && decide (64 ≤ leNat v))

/-- A write that has passed checks 1 to 7: checks 8 to 10 and the effect (R391, R397). -/
def State.writeObj (s : State) (h : Hint) (r : ObjRow) (idx sub : Nat) (v : List Byte) : Nat × State :=
  if rangeBar r idx v then (6, s)
  else match custom? idx sub with
    | some (p, k) =>
      if s.stateBar idx sub v then (8, s)
      else (0, s.customPut p k v)
    | none => match s.action h idx sub v with
      | some a => a
      | none =>
        if s.stateBar idx sub v then (8, s)
        else if s.conflict idx sub v then (7, s)
        else (0, s.putObj r idx sub v)

/-- Values of a row that stand for all when its write is tried: the least and the largest, the small codes, and the value held. -/
def State.tries (s : State) (r : ObjRow) (idx sub : Nat) : List (List Byte) :=
  match r.ty.size with
  | some n => ((upTo 8).map (leBytes n) ++ [r.bounds.1, r.bounds.2, s.objPend idx sub]).filter (fun v => !rangeBar r idx v)
  | none => [s.objPend idx sub]

/-- Whether a write would not meet the state error now, for Info (R390): some value is not met by it. An operation that only one value
starts answers the others with the range error, which does not count. -/
def State.writableNow (s : State) (r : ObjRow) (idx sub : Nat) : Bool :=
  (s.tries r idx sub).any (fun v => let st := (s.writeObj {} r idx sub v).1; st != 8 && st != 6)

/-- Check 9 at a Download start (R396): the objects whose state refuses a value at all. ImageStage takes its slot over. -/
def State.downloadStart (s : State) (idx sub : Nat) : Nat × State :=
  let (c, k) := canonIndex idx
  let q := instPort (k / 2)
  match c, sub with
  | 0x1002, 1 => (if s.ident.idState = 0 then 0 else 8, s)
  | 0x1400, 1 => (if s.ownerState = 0 then 0 else 8, s)
  | 0x1410, 1 => s.stageStart
  | 0x1410, 4 => if s.ownerState = 2 then (8, s.modIdent (fun i => { i with stageResult := 7 })) else (0, s)
  | 0x3120, 0xA | 0x3120, 0xB =>
    let b := sub - 0xA
    (if s.nat (decIndex q (k % 2)) 2 = 0 ∨ (s.dec q (k % 2)).active = b then 8 else 0, s)
  | 0x9010, 1 => (if (s.program k).state = 2 then 8 else 0, s)
  | _, _ => (if s.stateBar idx sub [] then 8 else 0, s)

/-- A whole downloaded value is written (R397): ImageStage's slot has been taken over at the start. -/
def State.downloadDone (s : State) (h : Hint) (r : ObjRow) (idx sub : Nat) (v : List Byte) : Nat × State :=
  if idx = 0x1410 ∧ sub = 1 then (0, s.stageDone v) else s.writeObj h r idx sub v

end Sys2Proof.Machine
end

