-- ==== Sys2Proof/Machine/Dict.lean ====
section
/-! DEFINITION. The dictionary server: carriers, sessions, the order of checks, transfers, forwarding and broadcast (R382–R398,
R437). -/
namespace Sys2Proof.Machine
open Sys2Proof

/-! ## Requests and responses (R387, R388) -/

/-- Change the server's part. -/
def State.modOd (s : State) (f : Od → Od) : State := { s with od := f s.od }

/-- A request's bytes with a target node (R387). -/
def Req.bytes (r : Req) (node : Nat) : List Byte :=
  u8 r.svc ++ u8 (bit r.k.active) ++ u16 r.c.transaction ++ u16 r.k.idx ++ u8 r.k.sub ++ u8 0 ++ u32 r.c.session
    ++ u16 r.data.length ++ u16 node ++ r.data

/-- Parse a request's bytes (R387). -/
def parseReq (path : Path) (source : Nat) (waits : Bool) (h : Hint) (buf : Option (Nat × Nat)) (b : List Byte) : Req :=
  let f (o n : Nat) : Nat := leNat ((b.drop o).take n)
  { c := { path := path, source := source, transaction := f 2 2, session := f 8 4, node := f 14 2, waits := waits }
    svc := f 0 1, k := { idx := f 4 2, sub := f 6 1, active := bitOf (f 1 1) 0 }
    data := (b.drop 16).take (f 12 2), h := h, buf := buf }

/-- What a service answers: status, the applies code of a successful write, data, and the Tide in which a write was served where that is
not the present one. -/
structure Ans where
  st : Nat
  applies : Nat := 0
  data : List Byte := []
  served : Option Nat := none
  deriving DecidableEq, Repr

/-- A response's bytes (R388). -/
def State.respBytes (s : State) (r : Req) (a : Ans) : List Byte :=
  let tide := if a.st = 0 ∧ a.applies = 1 then a.served.getD s.tide.num + 1 else s.tide.num
  u8 (r.svc % 128 + 128) ++ u8 a.st ++ u16 r.c.transaction ++ u16 r.k.idx ++ u8 r.k.sub ++ u8 (if a.st = 0 then a.applies else 0)
    ++ leBytes 6 tide ++ u16 a.data.length ++ a.data

/-- Base of the host region of pool SRAM (R407). -/
def hostRegion : Nat := 0x3400F00000

/-- The endpoint of a host path (R432). -/
def pathEnd (p : Path) : Nat := if p = .pcie then 6 else 7

/-- CP0's answer to a request in pool SRAM: the response written where it fits, and the message of three words (R437). -/
def State.carrierAnswer (s : State) (p : Path) (ofs cap : Nat) (b : List Byte) : State :=
  let fits := decide (b.length ≤ cap) && decide (ofs + b.length ≤ 0x100000)
  let s := if fits then s.write (hostRegion + ofs) b else s
  s.mbSend 1 (pathEnd p) [0x4F440002, ofs, if fits then b.length else 0xFFFFFFFF]

/-- Class of a dictionary type: BLOB segments have types of their own, of class 4 (R337, R338; DEDUCED, log 73). -/
def odClass (type : Nat) : Nat := if type = 0x52 ∨ type = 0x53 then 4 else 0

/-- A link-local frame of a dictionary type to the local port (R382). -/
def State.sendLocal (s : State) (type : Nat) (b : List Byte) : State :=
  if s.chain.localUp then
    let seq := s.chain.seqs.getD (odClass type) 0
    (s.modChain (fun c => { c with seqs := setAt c.seqs (odClass type) ((seq + 1) % 2 ^ 32) })).egress .lan
      { cls := odClass type, type := type, linkLocal := true, wrapped := false, dst := 0, src := s.node, hops := 0
        epoch := s.tide.epoch, seq := seq, payload := b, fields := [] }
  else s

/-- Type of the frame that carries a service's request: segments have their own (R382; log 73). -/
def odFrame (svc : Nat) : Nat := if svc = 5 ∨ svc = 7 then 0x52 else 0x50

/-- Send a response by its request's carrier (R382, R437). -/
def State.sendResponse (s : State) (c : OdCaller) (svc : Nat) (buf : Option (Nat × Nat)) (b : List Byte) : State :=
  match c.path with
  | .localPort => s.sendLocal (odFrame svc + 1) b
  | .link => s.originate (odClass (odFrame svc + 1)) (odFrame svc + 1) c.source [] b
  | p => match buf with
    | some (ofs, cap) => s.carrierAnswer p ofs cap b
    | none => s.emit (.response p c.source b)

/-- Two callers are one requester: the same path, and on the link and the local port the same source (R383, R393). -/
def sameSource (p q : Path) (a b : Nat) : Bool := p == q && (a == b || p == .pcie || p == .spi)

/-- Keep a response: the last 16 of each requester (R393). -/
def keepResponse (l : List Kept) (k : Kept) : List Kept :=
  let mine := l.filter (fun x => sameSource x.path k.path x.source k.source)
  let rest := l.filter (fun x => !sameSource x.path k.path x.source k.source)
  (k :: mine).take 16 ++ rest

/-- Count a failure (R395) and send the response; `keep` where it is this server's own. -/
def State.answer (s : State) (r : Req) (keep : Bool) (a : Ans) : State :=
  let b := s.respBytes r a
  let s := s.modOd (fun o => { o with
    errors := if a.st = 0 then o.errors else satAdd 0xFFFFFFFF o.errors 1
    kept := if keep then keepResponse o.kept ⟨r.c.path, r.c.source, r.c.transaction, b⟩ else o.kept })
  s.sendResponse r.c r.svc r.buf b

/-! ## Privilege and sessions (R382, R383) -/

/-- Baseline privilege of a path (R382). -/
def State.baseline (s : State) (c : OdCaller) : Nat :=
  match c.path with
  | .pcie | .spi => if s.ownerState = 0 then 2 else 1
  | .localPort => s.nat 0x1110 2
  | .link => if c.source = s.chain.acting ∧ c.source ≠ 0 then 1 else 0

/-- The open session a request names. -/
def State.sessionOf (s : State) (c : OdCaller) : Option Session :=
  s.od.sessions.find? (fun x => x.num == c.session && sameSource x.path c.path x.source c.source && decide (s.time.now ≤ x.expiry))

/-- The privilege of a request; none where it names no valid session (R383). -/
def State.level (s : State) (c : OdCaller) : Option Nat :=
  if c.session = 0 then some (s.baseline c) else (s.sessionOf c).map (fun x => max x.level (s.baseline c))

/-- A session number not 0 and not in use, from a free value (R383). -/
def sessionNumber (l : List Session) (f : Nat) : Nat :=
  (((upTo 18).map (fun i => (f + i) % 2 ^ 32)).find? (fun n => n != 0 && !l.any (fun x => x.num == n))).getD 1

/-- Open session (R383, R471, R472). -/
def State.openSession (s : State) (r : Req) : Ans × State :=
  let lv := leNat (r.data.take 1)
  let tok := r.data.drop 1
  if r.data.isEmpty then ({ st := 5 }, s)
  else if lv = 0 ∨ 3 < lv then ({ st := 6 }, s)
  else if 16 ≤ (s.od.sessions.filter (fun x => decide (s.time.now ≤ x.expiry))).length then ({ st := 9 }, s)
  else if s.tokenOk tok 1 lv (zeros 32) then
    let (f, s) := s.takeFree
    let n := sessionNumber s.od.sessions f
    let x : Session := ⟨n, r.c.path, r.c.source, lv, leNat ((tok.drop 24).take 8)⟩
    ({ st := 0, data := u32 n }, s.modOd (fun o => { o with sessions := o.sessions ++ [x] }))
  else
    let (st, s) := s.tokenFail
    ({ st := st }, s)

/-- Close session (R383): naming none is naming no valid one. -/
def State.closeSession (s : State) (r : Req) : Ans × State :=
  if r.c.session = 0 then ({ st := 0xD }, s)
  else ({ st := 0 }, s.modOd (fun o => { o with sessions := o.sessions.filter (fun x => x.num != r.c.session) }))

/-! ## Transfers (R396–R398) -/

/-- The caller's own open download of an object. -/
def Transfer.mine (t : Transfer) (c : OdCaller) (key : Nat) : Bool :=
  t.key == key && sameSource t.path c.path t.source c.source

/-- The caller's own snapshot of an object. -/
def Snapshot.mine (t : Snapshot) (c : OdCaller) (key : Nat) : Bool :=
  t.key == key && sameSource t.path c.path t.source c.source

/-- A download of an object ends without a value (R397): a staging slot is left empty (R482). -/
def State.abandon (s : State) (key : Nat) : State :=
  let s := s.modOd (fun o => { o with transfers := o.transfers.filter (fun t => t.key != key) })
  if key = objKey 0x1410 1 ∧ s.ident.stageState = 1 then s.modIdent (fun i => { i with stageState := 0 }) else s

/-- A segment that names an ended session abandons the caller's transfer (R393). -/
def State.dropTransfer (s : State) (c : OdCaller) (key : Nat) : State :=
  if s.od.transfers.any (fun t => t.mine c key && t.session == c.session) then s.abandon key else s

/-- Download start (R396). -/
def State.downloadOpen (s : State) (r : Req) (row : ObjRow) : Ans × State :=
  let key := objKey r.k.idx r.k.sub
  let total := leNat (r.data.take 4)
  let others := s.od.transfers.filter (fun t => !t.mine r.c key)
  if row.ty ≠ .blob ∨ r.data.length ≠ 8 ∨ row.limit < total then ({ st := 5 }, s)
  else if others.any (fun t => t.key == key) ∨ 8 ≤ others.length then ({ st := 9 }, s)
  else
    let (st, s) := s.downloadStart r.k.idx r.k.sub
    if st ≠ 0 then ({ st := st }, s)
    else
      let t : Transfer := ⟨r.c.path, r.c.source, r.c.session, key, total, leNat ((r.data.drop 4).take 4), []⟩
      ({ st := 0 }, s.modOd (fun o => { o with transfers := others ++ [t] }))

/-- Download segment (R396, R397). -/
def State.downloadPart (s : State) (r : Req) (row : ObjRow) : Ans × State :=
  let key := objKey r.k.idx r.k.sub
  let ofs := leNat (r.data.take 4)
  let part := r.data.drop 4
  if row.ty ≠ .blob ∨ r.data.length < 5 ∨ 1028 < r.data.length then ({ st := 5 }, s)
  else match s.od.transfers.find? (fun t => t.mine r.c key) with
    | none => ({ st := 0xC }, s)
    | some t =>
      let got := t.data ++ part
      if ofs ≠ t.data.length then ({ st := 0xC }, s)
      else if t.total < got.length then ({ st := 0xC }, s.abandon key)
      else if got.length < t.total then
        ({ st := 0, data := u32 got.length }, s.modOd (fun o => { o with
          transfers := o.transfers.map (fun x => if x.mine r.c key then { x with data := got } else x) }))
      else if crc32c got ≠ t.crc then ({ st := 0xC }, s.abandon key)
      else
        let s := s.modOd (fun o => { o with transfers := o.transfers.filter (fun x => x.key != key) })
        let (st, s) := s.downloadDone r.h row r.k.idx r.k.sub got
        (if st = 0 then { st := 0, applies := row.ap.code, data := u32 got.length } else { st := st }, s)

/-- Upload start (R398): a snapshot, held until every byte of it has been read. -/
def State.uploadOpen (s : State) (r : Req) (row : ObjRow) : Ans × State :=
  let key := objKey r.k.idx r.k.sub
  if row.ty ≠ .blob then ({ st := 5 }, s)
  else
    let (v, s) := s.readObj r.k.idx r.k.sub r.k.active
    let rest := s.od.snaps.filter (fun x => !x.mine r.c key)
    let mine : List Snapshot := if v.isEmpty then [] else [⟨r.c.path, r.c.source, key, v, []⟩]
    ({ st := 0, data := u32 v.length ++ u32 (crc32c v) }, s.modOd (fun o => { o with snaps := rest ++ mine }))

/-- How far from `pos` on a set of read pieces reaches without a gap. -/
def reach (l : List (Nat × Nat)) : Nat → Nat → Nat
  | 0, pos => pos
  | fuel + 1, pos => match l.find? (fun e => decide (e.1 ≤ pos) && decide (pos < e.1 + e.2)) with
    | some e => reach l fuel (e.1 + e.2)
    | none => pos

/-- Upload segment (R398). -/
def State.uploadPart (s : State) (r : Req) (row : ObjRow) : Ans × State :=
  let key := objKey r.k.idx r.k.sub
  let ofs := leNat (r.data.take 4)
  if row.ty ≠ .blob ∨ r.data.length ≠ 4 then ({ st := 5 }, s)
  else match s.od.snaps.find? (fun x => x.mine r.c key) with
    | none => ({ st := 0xC }, s)
    | some x =>
      if x.data.length ≤ ofs then ({ st := 0xC }, s)
      else
        let part := (x.data.drop ofs).take 1024
        let got := x.got ++ [(ofs, part.length)]
        let whole := decide (x.data.length ≤ reach got got.length 0)
        ({ st := 0, data := part }, s.modOd (fun o => { o with
          snaps := if whole then o.snaps.filter (fun y => !y.mine r.c key)
                   else o.snaps.map (fun y => if y.mine r.c key then { y with got := got } else y) }))

/-- Transfer abort (R397). -/
def State.transferAbort (s : State) (r : Req) : Ans × State :=
  let key := objKey r.k.idx r.k.sub
  let s := if s.od.transfers.any (fun t => t.mine r.c key) then s.abandon key else s
  ({ st := 0 }, s.modOd (fun o => { o with snaps := o.snaps.filter (fun x => !x.mine r.c key) }))

/-! ## Service in this node (R389, R391) -/

/-- Read (R389). -/
def State.serveRead (s : State) (r : Req) (row : ObjRow) : Ans × State :=
  let (v, s') := s.readObj r.k.idx r.k.sub r.k.active
  if row.ty = .blob ∧ 1024 < v.length then ({ st := 5 }, s) else ({ st := 0, data := v }, s')

/-- The length a Write may have (R377, R389). -/
def ObjRow.lengthOk (r : ObjRow) (n : Nat) : Bool :=
  match r.ty.size with
  | some k => n == k
  | none => decide (n ≤ if r.ty = .blob then min r.limit 1024 else r.limit)

/-- Write (R389, R391): a BLOB with a transfer open is busy (R393). -/
def State.serveWrite (s : State) (r : Req) (row : ObjRow) : Ans × State :=
  if ¬ row.lengthOk r.data.length then ({ st := 5 }, s)
  else if s.od.transfers.any (fun t => t.key == objKey r.k.idx r.k.sub) then ({ st := 9 }, s)
  else
    let (st, s) := s.writeObj r.h row r.k.idx r.k.sub r.data
    ({ st := st, applies := row.ap.code }, s)

/-- Checks 3 to 6 of R391, then the service. -/
def State.serveObject (s : State) (r : Req) (lv : Nat) : Ans × State :=
  match s.top r.k.idx with
  | none => ({ st := 1 }, s)
  | some _ => match s.row r.k.idx r.k.sub with
    | none => ({ st := 2 }, s)
    | some row =>
      let reads := r.svc == 1 || r.svc == 4 || r.svc == 5
      let writes := r.svc == 2 || r.svc == 6 || r.svc == 7
      if (reads ∧ row.acc = .wo) ∨ (writes ∧ row.acc = .ro) then ({ st := 3 }, s)
      else if (reads ∧ lv < row.readLevel) ∨ (writes ∧ lv < row.writeLevel) then ({ st := 4 }, s)
      else match r.svc with
        | 1 => s.serveRead r row
        | 2 => s.serveWrite r row
        | 3 => ({ st := 0, data := s.info r.k.idx r.k.sub row (s.writableNow row r.k.idx r.k.sub) }, s)
        | 4 => s.uploadOpen r row
        | 5 => s.uploadPart r row
        | 6 => s.downloadOpen r row
        | 7 => s.downloadPart r row
        | _ => s.transferAbort r

/-- A request for this node (R391). -/
def State.serveHere (s : State) (r : Req) : Ans × State :=
  match s.level r.c with
  | none => ({ st := 0xD }, if r.svc = 7 then s.dropTransfer r.c (objKey r.k.idx r.k.sub) else s)
  | some lv =>
    if r.svc = 9 then s.openSession r
    else if r.svc = 0xA then s.closeSession r
    else s.serveObject r lv

/-- Serve and answer. Where the write ends the running of firmware (standby), the response goes first (R380). -/
def State.complete (s : State) (r : Req) : State :=
  let (a, t) := s.serveHere r
  if t.up then t.answer r true a else ((s.answer r true a).serveHere r).2

/-! ## Other nodes (R384, R385) -/

/-- Another node is present as this node knows it: the manager by its status answers, others by frames (R345; log 74). -/
def State.presentNode (s : State) (n : Nat) : Bool :=
  s.chain.nodes.any (fun r => r.node == n) || (!s.chain.iAct && s.chain.dirs.any (fun e => e.1 == n))

/-- Every other present node, ascending. -/
def State.otherNodes (s : State) : List Nat :=
  (upTo 1024).filter (fun n => n != 0 && n != s.node && s.presentNode n)

/-- Send a request on to a node and await its answer. -/
def State.forwardTo (s : State) (r : Req) (node : Nat) (bcast : Option Nat) : State :=
  let s := s.originate (odClass (odFrame r.svc)) (odFrame r.svc) node [] (r.bytes node)
  let e : Forwarded := ⟨r.c, node, objKey r.k.idx r.k.sub, r.svc, bcast, r.buf⟩
  s.modOd (fun o => { o with fwd := o.fwd ++ [e] })

/-- The four values of a broadcast's answer and its status: that of the first failing node (R385; log 75). -/
def bcastAnswer (l : List (Nat × Nat)) : Ans :=
  let bad := l.filter (fun e => e.2 != 0)
  let first := bad.foldl (fun m e => match m with
    | none => some e
    | some x => if e.1 < x.1 then some e else some x) (none : Option (Nat × Nat))
  let (n, st) := first.getD (0, 0)
  { st := st, data := u16 (l.length - bad.length) ++ u16 bad.length ++ u16 n ++ u16 st }

/-- A broadcast whose nodes have all answered is answered itself, as a write of its object (R388), and the answer is kept (R393). -/
def State.bcastDone (s : State) (num : Nat) : State :=
  match s.od.bcasts.find? (fun b => b.num == num) with
  | some b =>
    if s.od.fwd.any (fun e => e.bcast == some num) then s
    else
      let r : Req := { c := b.caller, svc := 2, k := ⟨b.key / 256, b.key % 256, false⟩, data := [], buf := b.buf }
      let a := { bcastAnswer b.results with
        applies := ((s.row (b.key / 256) (b.key % 256)).map (·.ap.code)).getD 0, served := some b.tide }
      (s.modOd (fun o => { o with bcasts := o.bcasts.filter (fun x => x.num != num) })).answer r true a
  | none => s

/-- A broadcast write (R385): every other present node's part, and this node's own. -/
def State.broadcast (s : State) (r : Req) : State :=
  let num := s.od.fwdCount
  let tide := s.tide.num
  let s := s.modOd (fun o => { o with fwdCount := (num + 1) % 65536 })
  let s := s.otherNodes.foldl (fun s n => s.forwardTo r n (some num)) s
  let (a, s) := s.serveHere r
  if s.up then
    (s.modOd (fun o => { o with
      bcasts := o.bcasts ++ [⟨num, r.c, objKey r.k.idx r.k.sub, tide, [(s.node, a.st)], r.buf⟩] })).bcastDone num
  else s

/-- A forwarded request has its answer: `b` the response's bytes, or none for the timeout error (R384, R385). -/
def State.forwardDone (s : State) (e : Forwarded) (b : Option (List Byte)) : State :=
  let s := s.modOd (fun o => { o with fwd := o.fwd.filter (· != e) })
  let st := match b with
    | some x => leNat ((x.drop 1).take 1)
    | none => 0xA
  match e.bcast with
  | some num =>
    (s.modOd (fun o => { o with bcasts := o.bcasts.map (fun x => if x.num = num then { x with results := x.results ++ [(e.node, st)] } else x) })).bcastDone num
  | none =>
    match b with
    | some x => s.sendResponse e.caller e.service e.buf x
    | none => s.answer { c := e.caller, svc := e.service, k := ⟨e.key / 256, e.key % 256, false⟩, data := [], buf := e.buf } false { st := 0xA }

/-- A dictionary response arrives for a request this node forwarded. -/
def State.takeAnswer (s : State) (src : Nat) (b : List Byte) : State :=
  let f (o n : Nat) : Nat := leNat ((b.drop o).take n)
  match s.od.fwd.find? (fun e => e.node == src && e.caller.transaction == f 2 2 && e.service + 128 == f 0 1 && e.key == objKey (f 4 2) (f 6 1)) with
  | some e => s.forwardDone e (some b)
  | none => s

/-! ## The server (R389, R392, R393) -/

/-- A path that can bring a request: the host paths lie in the HIF domain, and HOSTSEL high leaves PCIe untrained (R382, R406,
R420); the link agent serves the others. -/
def State.pathUp (s : State) : Path → Bool
  | .pcie => s.domain 1 && !s.hostSel
  | .spi => s.domain 1
  | .localPort | .link => s.chnOn

/-- Serve one request, whole (R389–R393). -/
def State.serveOne (s : State) (r : Req) : State :=
  if ¬ s.up then s
  else match s.od.kept.find? (fun x => sameSource x.path r.c.path x.source r.c.source && x.transaction == r.c.transaction) with
    | some x => s.sendResponse r.c r.svc r.buf x.response
    | none =>
      if r.svc = 0 ∨ 0xA < r.svc then s.answer r true { st := 0xF }
      else if r.c.node = 0xFFFF then
        if r.svc = 2 then s.broadcast r else s.answer r true { st := 0xF }
      else if r.c.node = 0 ∨ r.c.node = s.node then s.complete r
      else if s.presentNode r.c.node then s.forwardTo r r.c.node none
      else s.answer r true { st := 0xB }

/-- Serve every request that waits, in arrival order (R392). -/
def State.serveQueue (s : State) : State :=
  s.od.queue.foldl State.serveOne (s.modOd (fun o => { o with queue := [] }))

/-- A request arrives (R392): one that finds the server busy waits in the queue of 32, or fails where that is full; otherwise those
before it have been served, and it is. Before firmware has started the server it waits in its host path's carrier, which holds one. -/
def State.serve (s : State) (r : Req) : State :=
  if ¬ s.pathUp r.c.path then s
  else if ¬ s.up then
    if s.od.early.any (fun x => x.c.path == r.c.path) then s else s.modOd (fun o => { o with early := o.early ++ [r] })
  else
    let s := s.modOd (fun o => { o with requests := (o.requests + 1) % 2 ^ 64 })
    if ¬ r.c.waits then s.serveQueue.serveOne r
    else if 32 ≤ s.od.queue.length then
      (s.modOd (fun o => { o with busy := satAdd 0xFFFFFFFF o.busy 1 })).answer r false { st := 9 }
    else s.modOd (fun o => { o with queue := o.queue ++ [r] })

/-- CP0 takes the waiting message of a host endpoint and serves the request it points to (R437; log 80). -/
def State.carrierTake (s : State) (e : Nat) (waits : Bool) (h : Hint) : State :=
  let s := (s.mbTake 1 e).2
  let s := s.modEnd 1 (fun p => { p with bells := { p.bells with set := p.bells.set.filter (fun b => b.1 != e) } })
  let w (i : Nat) : Nat := ((s.endPt 1).hold.getD e []).getD i 0
  let head := s.read (hostRegion + w 1) 16
  let len := leNat ((head.drop 12).take 2)
  if w 0 ≠ 0x4F440001 ∨ 0x100000 < w 1 + 16 + len then
    s.modOd (fun o => { o with errors := satAdd 0xFFFFFFFF o.errors 1 })
  else
    s.serve (parseReq (if e = 6 then .pcie else .spi) 0 waits h (some (w 2, w 3)) (s.read (hostRegion + w 1) (16 + len)))

/-- CP0 takes what a host endpoint has posted to it, once firmware runs (R392, R437). -/
def State.carrierServe (s : State) (e : Nat) : State :=
  if s.up && (e == 6 || e == 7) && (s.chan e 1).full then s.carrierTake e false {} else s

/-- Firmware has started the server: what waits in the carriers is taken in the order PCIe, SPI (R392). -/
def State.serveEarly (s : State) : State :=
  let held := s.od.early
  let one (s : State) (p : Path) (e : Nat) : State :=
    ((held.filter (fun r => r.c.path == p)).foldl State.serve s).carrierServe e
  if s.up then one (one (s.modOd (fun o => { o with early := [] })) .pcie 6) .spi 7 else s

end Sys2Proof.Machine
end

