-- ==== Sys2Proof/Machine/Tide.lean ====
section
/-! DEFINITION. The Tide: its edge, its start, its slip, and the stages' deadlines (R24–R28, R35, R45, R46, R221, R393, R502). -/
namespace Sys2Proof.Machine
open Sys2Proof

/-- The period in ns. -/
def State.periodNs (s : State) : Nat := s.nat 0x2000 1 * 1000000

/-- An object that applies at a Tide edge (R380). -/
def nextTideKey (k : Nat) : Bool :=
  match objRow? (k / 256) (k % 256) with
  | some r => r.ap == .nextTide
  | none => false

/-- A start of a program waits: the cluster is disabled, so that no core runs (R236; DESIGN CHOICE, log 173). -/
def State.startWaits (s : State) (e : Nat × List Byte) : Bool :=
  !s.brewOn && leNat e.2 == 1 && (upTo 4).any (fun p => e.1 == objKey (0x9010 + p) 3)

/-- Next Tide values written before the latch take effect (R380, R393): firmware reloads the scan list where one is of it (R465);
ProgramRun starts or stops its program (R233). -/
def State.latchNextTide (s : State) : State :=
  let now (e : Nat × List Byte) : Bool := nextTideKey e.1 && !s.startWaits e
  let due := s.od.pend.filter now
  let act := due.foldl (fun l e => insertKey e.1 e.2 l) s.od.act
  let s : State := { s.memFreed with od := { s.od with act := act, pend := s.od.pend.filter (fun e => !now e) } }
  let s := if due.any (fun e => e.1 / 256 == 0x8000 || e.1 / 256 == 0x8001) then s.scanList else s
  (upTo 4).foldl (fun s p =>
    match lookup (objKey (0x9010 + p) 3) due with
    | some v => if leNat v = 1 then s.startProgram p else s.stopProgram p
    | none => s) s

/-- PilotLevel shows the far pilot's mean power over the Tide (R359, R374); 0xFFFF where no far pilot is present. -/
def State.pilotLevelEdge (s : State) (q : Port) (l : Nat) : State :=
  s.modPort q (fun ps => { ps with pair := { ps.pair with
    level := if s.pilotActive q && s.farPresent q then min 0xFFFE l else 0xFFFF } })

/-- The end of a Tide at a port: what has been measured over it is judged and shown (R35, R65, R71, R73, R89, R90, R107, R119,
R130, R201, R458). -/
def State.portEnd (s : State) (q : Port) (m : PortMeas) : State :=
  let s := if s.txOn q then (((s.biasEdge q m.bias m.sweep).fineEdge q m.pilotErr).latencyEdge q).trimEdge q else s
  let s := if s.rxOn q false then (((s.farReturn q).rxEdge q m.rx).swashEdge q).pilotLevelEdge q m.pilotLevel else s
  if s.rxOn q true then (s.kilnAdcEdge q m.rx).aliasEdge q else s

/-- The stages' runs of overruns: a Tide without one ends the run (R46). -/
def State.stagesEnd (s : State) : State :=
  let t := s.tide
  let keep (i : Nat) : Bool := t.overrunNow.getD i false
  { s with tide := { t with
    overrunRun := (upTo 5).map (fun i => if keep i then t.overrunRun.getD i 0 else 0)
    overrunRaised := (upTo 5).map (fun i => keep i && t.overrunRaised.getD i false)
    overrunNow := List.replicate 5 false } }

/-- The end of a Tide, at local time `t`. -/
def State.tideEnd (s : State) (t : Nat) (ma mb : PortMeas) : State :=
  let s := ((s.portEnd .a ma).portEnd .b mb).hkEdge.stagesEnd
  let s := (upTo 16).foldl (fun s c => s.chargeCore c t) s
  let busy := s.brew.busy.foldl max 0
  let p := max 1 s.periodNs
  { s with brew := { s.brew with busy := List.replicate 16 0, peak := Num.ofRatio (min busy p) p }
           tide := { s.tide with ran := true } }

/-- Tide `n` begins with the residual of its edge (R24): Next Tide values apply, the links, the manager, the pilots and the
pairs act (R58, R344, R346, R355, R363, R512). -/
def State.tideBegin (s : State) (n res : Nat) : State :=
  let e := n * s.periodNs + res
  let s := s.advance e
  let s : State := { s with tide := { s.tide with num := n, edge := e, residual := res, running := true, edges := s.tide.edges + 1 }
                            bwf := { s.bwf with sent := [] } }
  let s := (bothPorts.foldl State.tideRun s).latchNextTide
  let s := s.raise stTide [0]
  let s := s.chainEdge.quietEdge.heartbeat
  let s := bothPorts.foldl (fun s q =>
    let s := (s.pilotEdge q).pairEdge q
    if (s.port q).restartNext then (s.restartAll q .full).modPort q (fun ps => { ps with restartNext := false }) else s) s
  (bothPorts.foldl State.trkDropped s).programEdge

/-- TIDE_EDGE: the next Tide's edge, with its residual and what the ended Tide's measurements gave. A reset that firmware
has requested comes at the edge (R484, R487, R502). -/
def execTideEdge (res : Nat) (ma mb : PortMeas) (s : State) : Host.Outcome State Fault Refusal :=
  if s.up ∧ s.tide.running then
    if s.power.resetAsked then .next (s.fullReset 5)
    else 
      let n := (s.tide.num + 1) % 2 ^ 48
      .next ((s.tideEnd (n * s.periodNs + res % 8) ma mb).tideBegin n (res % 8))
  else .next s

/-- FIRST_TIDE_START: the first edge after time is locked, or, standalone, after firmware has started (R26). -/
def execFirstTideStart (res : Nat) (s : State) : Host.Outcome State Fault Refusal :=
  if s.up ∧ ¬ s.tide.running ∧ (s.role = 0 ∨ s.time.state = 2) then
    let s := s.modTime (fun t => { t with tideRan := true })
    .next (s.tideBegin (ceilDiv s.time.now (max 1 s.periodNs)) (res % 8))
  else .next s

/-- The slip marker of a Tide, in the event ring of a port and at the export DMA (R27, R239, R423). -/
def State.slipMarker (s : State) (q : Port) (n : Nat) : State :=
  let t := n * s.periodNs
  let l := n * (s.plan q).m
  let b := leBytes 8 t ++ leBytes 6 n ++ leBytes 2 s.tide.epoch ++ leBytes 1 (1 + 2 * bit s.timeFree) ++ zeros 15
  (s.toRing q ⟨4, 0xE, t, l, b, s.tide.edge, 0⟩).toExport ⟨7, q, 0xE, t, l, b, false⟩

/-- TIDE_SLIP: θ exceeds TideSlipThreshold while Tides run (R27). Tide N, the next one, makes no launch; local time is
stepped; launches resume at the first edge of the corrected grid. -/
def execTideSlip (res : Nat) (ma mb : PortMeas) (s : State) : Host.Outcome State Fault Refusal :=
  if s.up ∧ s.tide.running ∧ s.beyondSlip s.time.theta then
    if s.power.resetAsked then .next (s.fullReset 5)
    else
      let n := s.tide.num + 1
      let s := s.tideEnd (n * s.periodNs) ma mb
      let s := s.advance (n * s.periodNs)
      let s := (s.stepTime s.time.theta).modTime (fun t => { t with theta := 0, offset := none, lockRun := 0 })
      let k := ceilDiv s.time.now (max 1 s.periodNs)
      let ports := bothPorts.filter (fun q => (s.port q).hasPlan)
      let s := ports.foldl (fun s q => (upTo (max 1 (k - n))).foldl (fun s i => s.slipMarker q (n + i)) s) s
      let s := ports.foldl (fun s q => (s.restartAll q .soft).clearHistories q) s
      let s : State := { s with tide := { s.tide with slipCount := satAdd 0xFFFFFFFF s.tide.slipCount 1 } }
      .next ((s.raise stTide [1]).tideBegin k (res % 8))
  else .next s

/-! ## Deadlines (R45, R46, R221) -/

/-- Every core of a pool is out of service (R223). -/
def State.poolOut (s : State) (pool : Nat) : Bool :=
  s.brewOn && decide (2 < s.tide.edges) && (s.poolCores pool).isEmpty && (upTo 16).any (fun c => s.poolOf c == pool)

/-- Whether a stage still works at its deadline, or has not had its input by then (R217), or has no core left in service for what
is enabled (R223; DESIGN CHOICE, log 188). Stage 4's work is firmware's own: the command says that it does, from the first deadline on. -/
def State.stageBusy (s : State) (stage : Nat) : Bool :=
  match stage with
  | 1 => s.brewOn && bothPorts.any (fun q => (s.detOwed q).any s.late || (s.poolOut (1 + Port.num q) && s.detOn q))
  | 2 => s.brewOn && bothPorts.any (fun q => (s.trkOwed q).any s.late || (s.poolOut 3 && s.trkOn q))
  | 3 => s.brew.cores.any (fun k => k.running && !k.aborting && !k.stopping && k.due.any (fun d => decide (d ≤ s.tide.edges)))
    || (s.poolOut 5 && s.brew.progs.any (fun g => g.state == 2))
  | 4 => decide (2 < s.tide.edges)
  | 5 => bothPorts.any (fun q => (s.port q).kiln.fits.head?.any s.fitLate)
  | _ => false

/-- Signal abort to the cores that satisfy a test (R221), and BREW_STAT.ABORT. -/
def State.abortCores (s : State) (f : Core → Bool) : State :=
  let hit (c : Nat) : Bool := let k := s.core c; k.running && f k
  let t := (upTo 16).foldl (fun t c => if hit c then (t.markOutputs c false).modCore c Core.abort else t) s
  t.raiseIf ((upTo 16).any hit) stBrew 1

/-- A stage stops its work on the Tide (R46, R221): unpublished output is discarded, a customer's published records and a
profile go out INCOMPLETE. -/
def State.stageAbort (s : State) (stage : Nat) : State :=
  match stage with
  | 1 =>
    let bad (q : Port) : Bool := (s.port q).det.work.any (fun w => s.late w.lrec.last.nth)
    bothPorts.foldl State.detAbort (s.abortCores (fun k => match k.work with
      | some (.detect q) => bad q
      | _ => false))
  | 2 =>
    let bad (q : Port) : Bool := (s.port q).trk.work.any (fun w => s.late w.2.nth)
    let s := s.abortCores (fun k => match k.work with
      | some (.track q) => bad q
      | _ => false)
    bothPorts.foldl (fun s q =>
      let s := s.modDet q (fun d => { d with missed := none })
      (s.modTrk q (fun t => { t with
        work := if t.work.any (fun w => s.late w.2.nth) then none else t.work, doneTo := max t.doneTo (s.tide.edges - 1) })).trkDropped q) s
  | 3 => s.abortCores (fun k => !k.aborting && !k.stopping && k.due.any (fun d => decide (d ≤ s.tide.edges)))
  | 5 => bothPorts.foldl (fun s q => (upTo 2).foldl (fun s _ =>
      if (s.port q).kiln.fits.head?.any s.fitLate then s.assemble q true else s) s) s
  | _ => s

/-- STAGE_DEADLINE_OVERRUN: stages 1 to 5 of R45, each at most once a Tide (R46). -/
def execStageDeadlineOverrun (stage : Nat) (s : State) : Host.Outcome State Fault Refusal :=
  let i := stage - 1
  if s.up ∧ s.tide.running ∧ 1 ≤ stage ∧ stage ≤ 5 ∧ s.stageBusy stage ∧ s.tide.overrunNow.getD i false = false then
    let s := s.stageAbort stage
    let t := s.tide
    let run := t.overrunRun.getD i 0 + 1
    let fire := decide (16 ≤ run) && !t.overrunRaised.getD i false
    let s : State := { s with tide := { t with
      overrun := modAt t.overrun i (satAdd 0xFFFFFFFF · 1), overrunRun := setAt t.overrunRun i run
      overrunRaised := if fire then setAt t.overrunRaised i true else t.overrunRaised, overrunNow := setAt t.overrunNow i true } }
    let s := s.raise stTide [2]
    .next (if fire then s.contained 8 stage 1 else s)
  else .next s

end Sys2Proof.Machine
end

