-- ==== Sys2Proof/Machine/HostRegs.lean ====
section
/-! DEFINITION. Register accesses: windows, bus errors, access kinds, what each register reads, and what its writes bring
about (R12, R14, R406–R419, R427, R432, R435, R438, and the register tables of each chapter). -/
namespace Sys2Proof.Machine
open Sys2Proof

/-! ## Who may reach what (R408–R410) -/

/-- The domain of an implemented window (R408). -/
def winDomain (w : Nat) : Option Nat :=
  if w ≤ 2 ∨ w = 8 ∨ w = 0x38 ∨ w = 0x40 ∨ w = 0x48 ∨ w = 0x49 then some 0
  else if w = 3 ∨ w = 0x30 ∨ w = 0x31 ∨ w = 0x32 then some 1
  else if w = 0x10 ∨ w = 0x11 then some (w - 6)
  else if w = 0x12 ∨ w = 0x13 then some (w - 12)
  else if w = 0x14 ∨ w = 0x15 then some (w - 12)
  else if w = 0x20 then some 5
  else if w = 0x28 ∨ w = 0x29 ∨ w = 0x2A then some 2
  else if w = 0x39 then some 4
  else none

/-- A host path (R410). -/
def hostInit (init : Nat) : Bool := init == 21 || init == 22

/-- The initiator's path exists now: the host paths lie in HIF, and HOSTSEL high leaves PCIe untrained (R420, R494). -/
def State.canReach (s : State) (init : Nat) : Bool :=
  s.alive && (!hostInit init || (s.domain 1 && (init != 21 || !s.hostSel)))

/-- The windows a host may write (R410). -/
def hostWritable (w : Nat) : Bool := [0, 1, 2, 3, 0x30, 0x31, 0x32].contains w

/-- Window and offset of a register address that is implemented and powered; none is a bus error (R408, R409). -/
def State.regAt (s : State) (a : Nat) : Option (Nat × Nat) :=
  if regBase ≤ a ∧ a < regBase + 0x1000000 then
    let w := (a - regBase) / 0x10000
    match winDomain w with
    | some d => if s.domain d then some (w, a % 0x10000) else none
    | none => none
  else none

/-! ## What the registers read -/

/-- A level of the window's port: the second window of a pair is port B's. -/
def winPort (w : Nat) : Port := if w % 2 = 0 then .a else .b

/-- The RO fields of SYS, TIDE, TIME, HK, BWF and PWR. -/
def State.sysBits (s : State) (w o : Nat) : Nat :=
  let h := s.host
  let t := s.time
  let sum (n : Nat) : Nat := sumN ((irqWindows.filter (fun x => x / 32 == n && s.irqWindow x)).map (fun x => 2 ^ (x % 32)))
  match w, o with
  | 0, 0 => 0x91404200 + s.otp.variant % 256
  | 0, 8 => h.busErrs
  | 0, 0xC => h.errAddr % 2 ^ 32
  | 0, 0x10 => bit h.errWrite * 2 ^ 14 + h.errInit % 32 * 2 ^ 8 + h.errAddr / 2 ^ 32 % 256
  | 0, 0x20 => sum 0
  | 0, 0x24 => sum 1
  | 0, 0x28 => sum 2
  | 8, 0 => s.tideState % 4 * 2 ^ 8
  | 8, 8 => s.tide.num % 2 ^ 32
  | 8, 0xC => s.tide.numHi % 2 ^ 16
  | 8, 0x10 => s.tide.epoch % 2 ^ 16
  | 8, 0x14 => s.pa.lastSlot % 8 * 2 ^ 16 + s.pa.lastJ % 2 ^ 16
  | 8, 0x18 => s.pb.lastSlot % 8 * 2 ^ 16 + s.pb.lastJ % 2 ^ 16
  | 8, 0x1C => s.tide.residual % 8
  | 0x38, 0 => t.state % 4 * 2 ^ 16 + bit t.warm * 2 ^ 15 + bit s.pb.syn.locked * 2 ^ 14 + bit s.pa.syn.locked * 2 ^ 13
      + bit (s.power.pllS && s.power.pllD && s.power.pllF) * 2 ^ 12
  | 0x38, 0xC => t.series.state % 8 * 2 ^ 16
  | 0x38, 0x14 => maskOf 6 (fun i => (s.tiu i).stuck) * 2 ^ 8 + maskOf 6 (fun i => (s.tiu i).level)
  | 0x38, 0x1C => t.series.latch % 2 ^ 32
  | 0x38, 0x20 => t.series.latch / 2 ^ 32 % 2 ^ 32
  | 0x38, 0x24 => t.series.taken % 2 ^ 16
  | 0x40, 8 => bit (s.hk.run != .none) * 2 ^ 17 + bit s.hk.refRdy * 2 ^ 16
  | 0x40, 0x10 => s.hk.aux.word
  | 0x40, 0x18 => s.hk.gain % 2 ^ 16 * 2 ^ 16 + ofSigned 16 s.hk.ofs
  | 0x40, 0x204 => s.hk.br0.flags / 4 % 2 * 2 ^ 18 + s.hk.br0.flags / 2 % 2 * 2 ^ 17 + s.hk.br0.flags % 2 * 2 ^ 16 + ofSigned 16 s.hk.br0.code
  | 0x40, 0x214 => s.hk.br1.flags / 4 % 2 * 2 ^ 18 + s.hk.br1.flags / 2 % 2 * 2 ^ 17 + s.hk.br1.flags % 2 * 2 ^ 16 + ofSigned 16 s.hk.br1.code
  | 0x48, 4 => s.bwf.log.length % 128 * 2 ^ 16 + s.power.wdogStage % 16 * 2 ^ 8
  | 0x48, 0x1C => s.bwf.latchTime % 2 ^ 32
  | 0x48, 0x20 => s.bwf.latchTime / 2 ^ 32 % 2 ^ 32
  | 0x48, 0x24 => min 0xFFFFFFFF s.bwf.corrected
  | 0x49, 0 => bit s.power.vmainOk * 2 ^ 18 + bit s.aon.safeHold * 2 ^ 17 + bit s.power.thermWarn * 2 ^ 16
  | 0x49, 4 => s.power.domains % 2 ^ 12
  | 0x49, 8 => min 255 s.fatalHour * 2 ^ 8 + s.aon.cause % 8
  | 0x49, 0xC => s.power.straps % 2 ^ 13
  | 0x49, 0x10 => ofSigned 16 s.power.tEdge * 2 ^ 16 + ofSigned 16 s.power.tCentre
  | _, _ => 0

/-- The RO fields of TX, RX and KILN. -/
def State.portBits (s : State) (w o : Nat) : Nat :=
  let q := winPort w
  let ps := s.port q
  let n := ps.kiln
  match w / 2, o with
  | 8, 8 => bit s.power.ilockOpen * 2 ^ 12 + ps.opt.state % 8 * 2 ^ 8
  | 8, 0x10 => s.biasOut q 0 s.time.now
  | 8, 0x14 => s.biasOut q 1 s.time.now
  | 8, 0x18 => s.biasOut q 2 s.time.now
  | 8, 0x1C => ps.opt.pump % 2 ^ 16
  | 8, 0x20 => ofSigned 20 ps.opt.latPs
  | 9, 8 => bit (ps.rx.cal.state == 3) * 2 ^ 8
  | 9, 0x10 => min 0xFFFF (ps.rx.lastClips.getD 0 0)
  | 9, 0x14 => min 0xFFFF (ps.rx.lastClips.getD 1 0)
  | 9, 0x18 => min 0xFFFF (ps.rx.lastClips.getD 2 0)
  | 9, 0x1C => min 0xFFFF (ps.rx.lastClips.getD 3 0)
  | 9, 0x20 => sumN ((upTo 4).map (fun i => ps.rx.peaks.getD i 0 % 256 * 256 ^ i))
  | 9, 0x24 => ps.rx.refPwr % 2 ^ 16
  | 9, 0x210 => bit (s.acquiring q) * 2 ^ 8
  | 9, 0x218 => min 0xFFFFFFFF ps.sw.rValid
  | 9, 0x21C => min 0xFFFFFFFF ps.sw.rUnwrap
  | 9, 0x220 => min 0xFFFFFFFF ps.sw.rFade
  | 9, 0x224 => ps.sw.rNoiseY % 2 ^ 16 * 2 ^ 16 + ps.sw.rNoiseX % 2 ^ 16
  | 9, 0x228 => min 0xFFFF ps.sw.rSubst * 2 ^ 16 + min 0xFFFF ps.sw.rSnrMin
  | 9, 0x304 => (s.dec q 1).active % 2 * 2 ^ 13 + (s.dec q 0).active % 2 * 2 ^ 12 + bit (s.decSettling q 1) * 2 ^ 11
      + bit (s.decSettling q 0) * 2 ^ 10 + bit (s.dec q 1).want.isSome * 2 ^ 9 + bit (s.dec q 0).want.isSome * 2 ^ 8
  | 9, 0x314 => bit (s.lautSettling q) * 2 ^ 8
  | 0xA, 0xC => bit ps.syn.locked * 2 ^ 14 + (match n.acc with
      | some a => a.buf
      | none => n.next) % 2 * 2 ^ 13 + s.kilnBuf q 1 % 4 * 2 ^ 10 + s.kilnBuf q 0 % 4 * 2 ^ 8
  | 0xA, 0x14 => (n.acc.elim 0 (fun a => a.accepted + a.dropped)) % 2 ^ 21
  | 0xA, 0x18 => (n.acc.elim 0 (·.dropped)) % 2 ^ 21
  | 0xA, 0x1C => n.aliasLvl % 2 ^ 16
  | 0xA, 0x20 => n.seq % 2 ^ 32
  | 0xA, 0x104 => min 0xFFFF (ps.rx.kLastClips.getD 0 0)
  | 0xA, 0x108 => min 0xFFFF (ps.rx.kLastClips.getD 1 0)
  | 0xA, 0x10C => ps.rx.kPeaks.getD 1 0 % 256 * 256 + ps.rx.kPeaks.getD 0 0 % 256
  | _, _ => 0

/-- The RO fields of PCIE, BREW, CEL, DDRC, CASK and CHN. -/
def State.blockBits (s : State) (w o : Nat) : Nat :=
  let m := s.dram
  if w = 3 then
    let r := s.host.rings.getD ((o - 0x100) / 0x20) {}
    if o < 0x100 then 0
    else if o % 0x20 = 0xC then r.wp else if o % 0x20 = 0x10 then r.rp else if o % 0x20 = 0x14 then r.drops else 0
  else if w = 0x20 then
    if o = 0xC then maskOf 16 (fun c => (s.core c).running)
    else if o = 0x10 then maskOf 16 (fun c => (s.core c).out)
    else if o = 0x1C then min 0xFFFF ((s.brew.peak.scale 16).floor.toNat) else 0
  else if w = 0x28 ∨ w = 0x29 then
    let q := winPort w
    if o = 0xC then bit (s.tiu 3).stuck * 2 ^ 17 + bit (s.tiu 2).stuck * 2 ^ 16 + (s.port q).cel.queue.length % 64
    else if 0x80 ≤ o ∧ o < 0x94 then min 0xFFFF (s.ring q ((o - 0x80) / 4)).withdrawn else 0
  else if w = 0x2A then
    match o with
    | 8 => m.hot % 16 * 2 ^ 16 + bit (m.migs.any (fun e => e.2.state == 1)) * 2 ^ 9 + bit (m.chDegraded || m.degraded != 0) * 2 ^ 8
    | 0x10 => m.err.line * 32 % 2 ^ 32
    | 0x14 => m.err.rank % 16 * 2 ^ 12 + bit m.err.mis * 2 ^ 11 + m.err.tag % 8 * 2 ^ 8 + m.err.line * 32 / 2 ^ 32 % 256
    | 0x18 => match m.lastMig.bind (fun ch => lookup ch m.migs) with
      | some g => g.rank % 16 * 2 ^ 28 + g.state % 4 * 2 ^ 26 + g.copied % 2 ^ 15
      | none => 0
    | 0x1C => sumN ((upTo 8).map (fun i => if s.activeRank (i / 2) (i % 2) then m.backlog.getD (3 * (i / 2) + i % 2) 0 % 16 * 16 ^ i else 0))
    | 0x20 => m.degraded % 2 ^ 12 * 2 ^ 16 + m.retired % 2 ^ 12
    | _ => 0
  else if w = 0x30 ∨ w = 0x31 ∨ w = 0x32 then
    let e := s.eng (w - 0x30)
    if o = 4 then bit e.job.isSome * 2 ^ 8
    else if o = 0x10 then (16 - e.queue.length) * 2 ^ 16 + e.queue.length % 32 else 0
  else if w = 0x39 then
    let pair (q : Port) : Nat :=
      let p := (s.port q).pair
      p.state % 8 * 2 ^ 16 + bit p.farTaken * 2 ^ 9 + bit (s.farPresent q) * 2 ^ 8
    match o with
    | 8 => bit s.chain.e.isUp * 2 ^ 11 + bit s.chain.w.isUp * 2 ^ 10 + bit s.chain.e.wrapped * 2 ^ 9 + bit s.chain.w.wrapped * 2 ^ 8
    | 0x10 => pair .a
    | 0x14 => pair .b
    | 0x18 => s.pa.pair.delayInWord
    | 0x1C => s.pb.pair.delayInWord
    | _ => 0
  else 0

/-- The register is a block's CFGERR_OFS, the one after its status register. -/
def isCfgOfs (w o : Nat) : Bool :=
  let c := canonReg w o
  [(0x10, 0xC), (0x12, 0xC), (0x12, 0x214), (0x14, 0x10), (0x20, 8), (0x28, 8), (0x2A, 0xC), (0x38, 0x10), (0x39, 0xC),
   (0x40, 0xC), (0x48, 8)].contains c

/-- What a register reads (R14): stored fields, SEQNUM and SEQ bits, RO fields. -/
def State.regValue (s : State) (w o : Nat) : Nat :=
  if isCfgOfs w o then (lookup (regKey w (o - 4)) s.cfgOfs).getD 0
  else
    let base := match regRow? w o with
      | some r => if r.seq = 0 then s.reg w o else (s.stat (regKey w o)).value
      | none => 0
    base + (if 0x10 ≤ w ∧ w ≤ 0x15 then s.portBits w o
      else if [0, 8, 0x38, 0x40, 0x48, 0x49].contains w then s.sysBits w o else s.blockBits w o)

/-! ## Indirect access (R416, R417) -/

/-- IND_SEL.SPACE and IND_ADDR. -/
def State.indSpace (s : State) : Nat := s.reg 0 0x40 % 8
def State.indAddr (s : State) : Nat := s.reg 0 0x44

/-- An address lies within its space (R416). -/
def indIn (sp a : Nat) : Bool :=
  match sp with
  | 0 => decide (a < 0x400)
  | 1 => decide (a < 0x8000)
  | 2 => decide (a < 0x100000)
  | 3 => decide (a < 3145728)
  | 4 => decide (a < 0x100000) && decide (a % 0x10000 < 0xA000)
  | _ => false

/-- The KILN block that owns a word of Kiln SRAM (log 43). -/
def indKiln (a : Nat) : Port := if a < 0x180000 then .a else .b

/-- The target's domain is on (log 79). -/
def State.indOn (s : State) (sp a : Nat) : Bool :=
  if sp = 2 then s.domain 2 else if sp = 3 then s.domain (8 + Port.num (indKiln a)) else if sp = 4 then s.domain 5 else true

/-- IND_ADDR advances by 1 where AUTOINC is set (R416). -/
def State.indNext (s : State) : State :=
  if bitOf (s.reg 0 0x40) 8 then s.setReg 0 0x44 ((s.indAddr + 1) % 2 ^ 32) else s

/-- A read of IND_DATA (R417); `bad`: the word is uncorrectable. The contents of spaces 0 to 2 and of program memory are not
given: free (log 79). None is a bus error. -/
def State.indRead (s : State) (bad : Bool) : Option Nat × State :=
  let sp := s.indSpace
  let a := s.indAddr
  if ¬ indIn sp a then (none, s.raise stInd [0])
  else if ¬ s.indOn sp a then (none, s)
  else
    let k := s.core (a / 0x10000)
    let wd := a % 0x10000
    let coded := decide (3 ≤ sp)
    let known : Option Nat :=
      if coded && bad then none
      else if sp = 3 then some (leNat ((upTo 4).map (fun i => s.kilnByte (4 * a + i))))
      else if sp = 4 ∧ wd < 0x4000 then some (leNat (memRead k.x (4 * wd) 4))
      else if sp = 4 ∧ wd < 0x8000 then some (leNat (memRead k.y (4 * (wd - 0x4000)) 4))
      else if sp = 4 then some (k.progWord (wd - 0x8000))
      else none
    match known with
    | some v => (some v, s.indNext)
    | none =>
      let (f, s) := s.takeFree
      (some (f % 2 ^ 32), (s.raiseIf (coded && bad) stInd 2).indNext)

/-- The table of R416 lets this initiator write the word: firmware's are the management core and the control processors. -/
def State.indMayWrite (s : State) (init sp a : Nat) : Bool :=
  decide (init < 5) && match sp with
    | 2 => !bitOf (s.reg 0x2A 0) 0
    | 3 => !bitOf (s.reg (winKiln (indKiln a)) 0) 0
    | 4 => decide (a % 0x10000 < 0x8000)
    | _ => true

/-- A write of IND_DATA (R417): false is a bus error. A forbidden one sets REFUSED and advances the address. -/
def State.indWrite (s : State) (init v : Nat) : Bool × State :=
  let sp := s.indSpace
  let a := s.indAddr
  if ¬ indIn sp a then (false, s.raise stInd [0])
  else if ¬ s.indOn sp a then (false, s)
  else if ¬ s.indMayWrite init sp a then (true, (s.raise stInd [1]).indNext)
  else
    let b := leBytes 4 v
    let wd := a % 0x10000
    let s :=
      if sp = 3 then s.kilnPut (4 * a) b
      else if sp = 4 ∧ wd < 0x4000 then s.modCore (a / 0x10000) (fun k => { k with x := memWrite k.x (4 * wd) b })
      else if sp = 4 then s.modCore (a / 0x10000) (fun k => { k with y := memWrite k.y (4 * (wd - 0x4000)) b })
      else s
    (true, s.indNext)

/-! ## Reads -/

/-- A read in endpoint `e`'s page (R432, R435, R436); none is a bus error. -/
def State.mbRead (s : State) (init e p : Nat) : Option Nat × State :=
  let ep := s.endPt e
  if 9 ≤ e ∨ mbInit e ≠ init then (none, s)
  else if p < 0x400 then
    let d := p / 0x40
    let r := p % 0x40
    let c := s.chan e d
    if 9 ≤ d ∨ d = e ∨ 0x24 < r then (none, s)
    else (some (if r = 0x24 then c.discards % 2 ^ 16 * 2 ^ 16 + bit c.full * 2 ^ 8 else 0), s)
  else if p < 0x800 then
    let src := (p - 0x400) / 0x40
    let r := p % 0x40
    if 9 ≤ src ∨ src = e ∨ 0x24 < r then (none, s)
    else if r = 0 then
      let (v, s) := s.mbTake e src
      (some v, s)
    else if r = 0x24 then (some (bit (s.chan src e).full * 2 ^ 8), s)
    else (some ((ep.hold.getD src []).getD (r / 4 - 1) 0), s)
  else match p with
    | 0x800 =>
      let (v, s) := s.dbPend e
      (some v, s)
    | 0x804 => (some (ep.latch % 256), s)
    | 0x808 => (some 0, s)
    | 0x80C => (some ep.mask, s)
    | 0x810 => (some 0, s)
    | 0x814 => (some (ep.epoch % 256), s)
    | 0x818 => (some (s.stat (stMb e)).value, s)
    | _ => (none, s)

/-- A read in the SEM window (R438). -/
def State.semReadAt (s : State) (init o : Nat) : Option Nat × State :=
  if o < 0x80 then
    let (v, s) := s.semRead init (o / 4)
    (some v, s)
  else if o = 0x80 then (some (s.stat stSem).value, s)
  else if o = 0x84 then (some (s.mbox.nonInit % 32 * 2 ^ 8 + s.mbox.nonSem % 32), s)
  else (none, s)

/-- One aligned 32-bit read of a register (R409, R410) with its side effects; none is a bus error. `bad` tells an indirect
read that its word is uncorrectable. -/
def State.regRead (s : State) (init a : Nat) (bad : Bool) : Option Nat × State :=
  match s.regAt a with
  | none => (none, s)
  | some (w, o) =>
    if w = 1 then s.mbRead init (o / 0x1000) (o % 0x1000)
    else if w = 2 then s.semReadAt init o
    else if (regRow? w o).isNone then (none, s)
    else if w = 0 ∧ o = 0x48 then s.indRead bad
    else if w = 8 ∧ o = 8 then
      (some (s.tide.num % 2 ^ 32), { s with tide := { s.tide with numHi := s.tide.num / 2 ^ 32 % 2 ^ 16 } })
    else if w = 0x38 ∧ o = 0x18 then
      let (v, s) := s.readTsAux
      (some v, s)
    else if w = 0x40 ∧ o = 0x10 then (some s.hk.aux.word, s.auxRead init)
    else if w = 0x48 ∧ o = 0x18 then
      let (v, s) := s.bwfLogRead
      (some v, s)
    else (some (s.regValue w o), s)

/-! ## Writes -/

/-- The enable bit that a register's RWS fields are judged against (offset, bit), and its block's CFGERR (status offset,
bit); the export rings have none (R12, R82, R112, R144, R202, R236, R260, R289, R333, R375, R427, R465, R519). -/
def rwsEnable (w o : Nat) : (Nat × Nat) × Option (Nat × Nat) :=
  let c := canonReg w o
  match c.1 with
  | 3 => ((o - (o - 0x100) % 0x20 + 8, 31), none)
  | 0x12 => if o < 0x200 then ((0, 0), some (8, 4)) else ((0x200, 0), some (0x210, 4))
  | 0x14 => ((0, 0), some (0xC, 4))
  | 0x20 => ((0, 0), some (4, 4))
  | 0x28 => ((0, 0), some (4, 4))
  | 0x38 => ((4, 0), some (0xC, 3))
  | 0x39 => ((0, 0), some (8, 6))
  | 0x40 => ((0, if 0x100 ≤ o then 1 else 0), some (8, 3))
  | 0x48 => ((0, 0), some (4, 4))
  | _ => ((0, 0), some (8, 4))

/-- Replace the masked bits of a word. -/
def mergeBits (old mask v : Nat) : Nat := (old &&& (0xFFFFFFFF ^^^ mask)) ||| (v &&& mask)

/-- Store the RW fields and, while the block's enable bit is clear, the RWS fields; otherwise a write to RWS fields sets
CFGERR (R12, R14, R415). -/
def State.storeReg (s : State) (r : RegRow) (w o v : Nat) : State :=
  let ((eo, eb), err) := rwsEnable w o
  let on := bitOf (s.reg w eo) eb
  let mask := r.rw ||| (if on then 0 else r.rws)
  let s' := if r.rws ≠ 0 ∧ on then
      (match err with
        | some (so, sb) => s.cfgErr (regKey w so) sb o
        | none => s)
    else s
  if mask = 0 then s' else s'.setReg w o (mergeBits (s.reg w o) mask v)

/-- A 0-to-1 change of SW_CTRL.ENABLE starts the noise means anew (R119). -/
def State.swashEnable (s : State) (q : Port) : State :=
  s.modSw q (fun w => { w with noiseX := List.replicate 8 [], noiseY := List.replicate 8 [] })

/-- What a write to a CTRL register of a port's blocks brings about (R100, R135, R152, R156, R167, R184). -/
def State.portCtrl (s old : State) (w o v : Nat) : State :=
  let q := winPort w
  let rose (b : Nat) : Bool := !bitOf (old.reg w o) b && bitOf v b
  match w / 2, o with
  | 9, 0 => if rose 0 then s.startForeground q false else s
  | 9, 0x200 =>
    let s := if rose 0 then s.swashEnable q else s
    if bitOf v 2 then s.restartAll q .full else s
  | 9, 0x300 =>
    let s := if rose 0 then s.clearNext q .none { dec0 := true, dec1 := true } else s
    let req (s : State) (c : Nat) : State :=
      if bitOf (old.reg w o) (8 + c) = bitOf v (8 + c) then s else s.bankRequest q c (bit (bitOf v (8 + c)))
    req (req s 0) 1
  | 9, 0x310 => if rose 0 then s.clearNext q .none { laut := true } else s
  | 0xA, 0 =>
    let s := if rose 0 then s.startForeground q true else s
    if bitOf v 2 then s.kilnDiscard q s.time.now else s
  | _, _ => s

/-- A write to PCIE_ERn_RP (R427): unaligned, or not below 2^k, it is ignored and sets BADRP. -/
def State.ringRp (s : State) (n v : Nat) : State :=
  let k := clampN 16 30 (bitsOf (s.reg 3 (0x108 + 0x20 * n)) 28 24)
  if v % 32 ≠ 0 ∨ 2 ^ k ≤ v then s.raise (stPcie n) [2]
  else { s with host := { s.host with rings := modAt s.host.rings n (fun r => { r with rp := v }) } }

/-- PWR_STBY.REQ: standby as R504 enters it, with a commit of what is uncommitted once firmware runs. -/
def State.stbyReq (s : State) : State := if s.up then s.standbyByFirmware false true else s.standby false

/-- What a write brings about besides the fields it stores. A write to an IRQ_EN, or to HMASK, may raise an enabled summary bit
(R414). -/
def State.regEffect (s old : State) (init w o v : Nat) : State :=
  if 0x10 ≤ w ∧ w ≤ 0x15 then s.portCtrl old w o v
  else if w = 0x30 ∨ w = 0x31 ∨ w = 0x32 then
    let e := w - 0x30
    if o = 8 then s.caskSubmit e v
    else if o = 0x14 then s.afterRise old
    else if o = 0 ∧ bitOf (old.reg w 0) 0 ∧ ¬ bitOf v 0 then s.caskFlush e
    else if o = 0 ∧ bitOf v 1 then s.caskAbort e
    else s
  else if (w = 0x28 ∨ w = 0x29) ∧ 0x40 ≤ o ∧ o < 0x68 then s.ringFit (if w = 0x28 then .a else .b) ((o - 0x40) / 8)
  else match w, o with
    | 0, 0x30 | 0, 0x34 | 0, 0x38 => s.afterRise old
    | 8, 4 => s.afterRise old
    | 0x20, 0x14 => s.poolChange old
    | 0x20, 0x18 => s.poolChange old
    | 0x20, 0 =>
      if bitOf v 0 then s
      else { s with brew := { s.brew with fitQueue := [], cores := s.brew.cores.map Core.idle } }
    | 0x38, 4 => if bitOf v 1 then s.armSeries else s
    | 0x39, 0 => if bitOf (old.reg 0x39 0) 0 ∧ ¬ bitOf v 0 then s.endpointReset 8 else s
    | 0x40, 0 =>
      let s := (s.setRegBit 0x40 0 0 (bitOf (old.reg 0x40 0) 0)).hkEnable (bitOf v 0)
      if bitOf v 2 ∧ bitOf v 0 then s.selfCalStart.getD s else s
    | 0x40, 0x14 => s.injectRequest (v % 64)
    | 0x48, 0 =>
      let s := s.setReg 0x48 0 (s.reg 0x48 0 ||| (old.reg 0x48 0 &&& 0xF0))
      if bitOf v 1 then s.fullReset 5 else s
    | 0x48, 0x10 => s.wdogKick init
    | 0x49, 0x14 => if bitOf v 0 then s.stbyReq else s
    | _, _ => s

/-- A write in endpoint `e`'s page (R433, R435); false is a bus error. -/
def State.mbWrite (s : State) (init e p v : Nat) : Bool × State :=
  if 9 ≤ e ∨ mbInit e ≠ init then (false, s)
  else if p < 0x400 then
    let d := p / 0x40
    let r := p % 0x40
    if 9 ≤ d ∨ d = e ∨ 0x24 < r then (false, s)
    else if r = 0x24 then (true, s)
    else if r = 0x20 then
      -- what a host posts to CP0 firmware takes (R437)
      let t := s.mbPost e d (v % 16)
      (true, if d = 1 ∧ ¬ (s.chan e d).full then t.carrierServe e else t)
    else (true, s.mbData e d (r / 4) v)
  else if p < 0x800 then
    let src := (p - 0x400) / 0x40
    (!(decide (9 ≤ src) || src == e || decide (0x24 < p % 0x40)), s)
  else match p with
    | 0x808 => (true, s.modEnd e (·.clear v))
    | 0x80C => (true, (s.modEnd e (fun x => { x with mask := v % 2 ^ 32 })).bellIrq s)
    | 0x810 => (true, s.dbRing e v)
    | 0x818 => (true, s.writeStat (stMb e) v)
    | 0x800 | 0x804 | 0x814 => (true, s)
    | _ => (false, s)

/-- A write in the SEM window (R438). -/
def State.semWriteAt (s : State) (init o v : Nat) : Bool × State :=
  if o < 0x80 then (true, s.semWrite init (o / 4))
  else if o = 0x80 then (true, s.writeStat stSem v)
  else (decide (o = 0x84), s)

/-- One aligned 32-bit write of a register with its side effects (R409–R412); false is a bus error. -/
def State.regWrite (s : State) (init a v : Nat) : Bool × State :=
  match s.regAt a with
  | none => (false, s)
  | some (w, o) =>
    if hostInit init ∧ ¬ hostWritable w then (false, s)
    else if w = 1 then s.mbWrite init (o / 0x1000) (o % 0x1000) v
    else if w = 2 then s.semWriteAt init o v
    else match regRow? w o with
      | none => (false, s)
      | some r =>
        if r.seq ≠ 0 then (true, s.writeStat (regKey w o) v)
        else if w = 0 ∧ o = 0x48 then s.indWrite init v
        else if w = 3 ∧ 0x100 ≤ o ∧ o % 0x20 = 0x10 then (true, s.ringRp ((o - 0x100) / 0x20) v)
        else
          -- export rings cannot be enabled while HOSTSEL selects SPI (R420)
          let v := if w = 3 ∧ 0x100 ≤ o ∧ o % 0x20 = 8 ∧ s.hostSel then v % 2 ^ 31 else v
          (true, (s.storeReg r w o v).regEffect s init w o v)

/-! ## Accesses (R406, R407, R409–R411) -/

/-- Base of pool SRAM's host region, and pool writes a host may make (R407). -/
def hostPool (a n : Nat) : Bool := decide (hostRegion ≤ a) && decide (a + n ≤ hostRegion + 0x100000)

/-- A 32-bit read of a register or of pool SRAM, as SPI words and 32-bit accesses make it; none met a bus error, which is
counted. -/
def State.wordRead (s : State) (init a : Nat) (bad : Bool) : Option Nat × State :=
  if ¬ s.canReach init then (none, s)
  else
    let (v, t) := if a % 4 ≠ 0 then (none, s)
      else if poolBase ≤ a ∧ a + 4 ≤ poolBase + 0x1000000 then (some (leNat (s.read a 4)), s)
      else s.regRead init a bad
    match v with
    | some x => (some x, t)
    | none => (none, t.busError init a false)

/-- A 32-bit write of a register or of pool SRAM; false met a bus error, which is counted. -/
def State.wordWrite (s : State) (init a v : Nat) : Bool × State :=
  if ¬ s.canReach init then (false, s)
  else
    let (ok, t) := if a % 4 ≠ 0 then (false, s)
      else if poolBase ≤ a ∧ a + 4 ≤ poolBase + 0x1000000 then
        (if hostInit init && !hostPool a 4 then (false, s) else (true, s.write a (leBytes 4 v)))
      else s.regWrite init a v
    if ok then (true, t) else (false, t.busError init a true)

/-- A fabric write of any width (R406, R409): registers take 32 and 64 bits, lower word first; memories any width. What a
write that met a bus error tells its initiator: a posted PCIe write nothing (R411). -/
def State.busWrite (s : State) (a : Access) (v : Nat) : State :=
  let told (ok : Bool) (s : State) : State := if ok then s else s.tellWrite a.init
  if ¬ s.canReach a.init then s
  else if regBase ≤ a.addr ∧ a.addr < regBase + 0x1000000 then
    if a.width = 4 then
      let (ok, s) := s.wordWrite a.init a.addr (v % 2 ^ 32)
      told ok s
    else if a.width = 8 ∧ a.addr % 8 = 0 then
      let (ok, s) := s.wordWrite a.init a.addr (v % 2 ^ 32)
      let s := told ok s
      let (ok, s) := s.wordWrite a.init (a.addr + 4) (v / 2 ^ 32 % 2 ^ 32)
      told ok s
    else told false (s.busError a.init a.addr true)
  else if hostInit a.init && !hostPool a.addr a.width then told false (s.busError a.init a.addr true)
  else match s.fabWrite a.addr (leBytes a.width v) 0 with
    | some t => t
    | none => told false (s.busError a.init a.addr true)

/-- One 32-bit read of a register: the answer, or the bus error (R411). -/
def State.readTold (s : State) (init a : Nat) (bad : Bool) : State :=
  match s.wordRead init a bad with
  | (some v, t) => t.emit (.readData init v false)
  | (none, t) => t.emit (.readData init 0 true)

/-- A fabric read of registers (R406, R409): 32 bits, or aligned 64 bits as two reads, lower address first, each with its answer; any
other width or alignment is a bus error (R411). -/
def State.busRead (s : State) (a : Access) (bad : Bool) : State :=
  if ¬ s.canReach a.init then s
  else if a.width = 4 then s.readTold a.init a.addr bad
  else if a.width = 8 ∧ a.addr % 8 = 0 then (s.readTold a.init a.addr bad).readTold a.init (a.addr + 4) bad
  else (s.busError a.init a.addr false).emit (.readData a.init 0 true)

/-- Identification of the PCIe function (R421): vendor, device, revision, class code, subsystem vendor, subsystem, and the number of
its MSI-X vectors. -/
def State.pcieIdent (s : State) : List Nat := [0x1F9C, 0x9140, 0x42, 0x118000, 0x1F9C, s.otp.variant % 256, 16]

/-- Fabric address of an offset of BAR0 or BAR2 (R421): registers, pool SRAM, and the DRAM aperture, which is read only and ends at the
active capacity; none ends in a completer abort. The endpoint turns an offset into the address that a command names (log 190). -/
def State.barAddr (s : State) (bar ofs : Nat) (write : Bool) : Option Nat :=
  if ofs < 0x1000000 ∧ (bar = 0 ∨ bar = 2) then some ((if bar = 0 then regBase else poolBase) + ofs)
  else
    let a := s.reg 3 8 * 2 ^ 29 + (ofs - 0x20000000)
    if bar = 2 ∧ 0x20000000 ≤ ofs ∧ ofs < 0x40000000 ∧ ¬ write ∧ s.dramOk a then some a else none

/-- The pins (R80, R516): undriven or held by the board without power and in standby, in a reset, in start-up before firmware
enables the block, and running. Between a reset and the power-up of its TX domain a port's optical drive is taken as that of a port
whose domain is off (DESIGN CHOICE, log 163). -/
def State.pin (s : State) (p : PinGroup) : PinLevel :=
  let w := s.power
  let off := !w.pwrEn
  let inReset := w.phase == .porst || w.phase == .held
  match p with
  | .pwren => if off then (if w.phase = .standby then .low else .boardPull) else .high
  | .network => if off then .undriven else if s.chnOn then .driven else .electricalIdle
  | .pcie =>
    -- HOSTSEL high leaves the link untrained (R420)
    if off then .undriven else if inReset || s.hostSel then .electricalIdle else if s.up then .driven else .linkTraining
  | .spiMiso => if off then .undriven else if inReset then .highZ else .driven
  | .hostirq => if !off && s.alive && s.hostIrq then .low else .released
  | .syn q => if off then .undriven else if (s.port q).syn.on then .driven else .zero
  | .bridge n => if off then .undriven else if s.hkOn && s.brOn n then .driven else .highZ
  | .ddr => if off then .boardPull else if inReset then .low else if s.dram.trained then .driven else .memTraining
  | .qspiCs => if off then .boardPull else if inReset then .high else if s.up then .driven else .romAccess
  | .txDac q => if off then .boardTermination else if inReset then .zero else if s.txOn q then .driven else .boardTermination
  | .gate q | .pump q => if off then .boardPull else if inReset then .zero else if s.txOn q then .driven else .boardPull
  | .biasDac q => if off then .undriven else if inReset then .zero else if s.txOn q then .driven else .undriven
  | .laser l =>
    if off then .boardPull else if inReset then .zero
    else if s.laserShare then (if l = .a then .driven else .zero)
    else if s.txOn l then .driven else .boardPull

/-- Fabric address of a register. -/
def regAddr (w o : Nat) : Nat := regBase + w * 0x10000 + o

end Sys2Proof.Machine
end

