-- ==== Sys2Proof/Machine/HostCmds.lean ====
section
/-! DEFINITION. Commands of the host interfaces: register accesses with behaviour of their own, export rings, SPI frames and
resets (spec/15_host_registers_mailboxes.md and the register commands of the other chapters). -/
namespace Sys2Proof.Machine
open Sys2Proof

/-! ## Register accesses -/

/-- REGISTER_WRITE: any write over the fabric (R406–R412). -/
def execRegisterWrite (a : Access) (v : Nat) (s : State) : Host.Outcome State Fault Refusal := .next (s.busWrite a v)

/-- SEQ_STATUS_WRITE (R412): a write to a status register, given by its address. -/
def execSeqStatusWrite (a : Access) (v : Nat) (s : State) : Host.Outcome State Fault Refusal := .next (s.busWrite a v)

/-- A 32-bit write to a register. -/
def State.put (s : State) (init w o v : Nat) : State := s.busWrite ⟨init, regAddr w o, 4⟩ v

/-- A read of a register, `wd` bytes wide (R409). -/
def State.get (s : State) (init w o wd : Nat) (bad : Bool) : State := s.busRead ⟨init, regAddr w o, wd⟩ bad

/-- TIDE_NUM_LO_READ (R41). -/
def execTideNumLoRead (init wd : Nat) (s : State) : Host.Outcome State Fault Refusal := .next (s.get init 8 8 wd false)

/-- IND_DATA_READ (R417); `bad`: the word is uncorrectable. -/
def execIndDataRead (init wd : Nat) (bad : Bool) (s : State) : Host.Outcome State Fault Refusal := .next (s.get init 0 0x48 wd bad)

/-- IND_DATA_WRITE (R417). -/
def execIndDataWrite (init v : Nat) (s : State) : Host.Outcome State Fault Refusal := .next (s.put init 0 0x48 v)

/-- MB_POST: initiator `init` writes MB_TXd_POST in endpoint `e`'s page (R433). -/
def execMbPost (init e d len : Nat) (s : State) : Host.Outcome State Fault Refusal :=
  .next (s.put init 1 (0x1000 * (e % 16) + 0x40 * (d % 16) + 0x20) len)

/-- MB_RX_HDR_READ: MB_RXs_HDR in endpoint `e`'s page (R433). -/
def execMbRxHdrRead (init wd e src : Nat) (s : State) : Host.Outcome State Fault Refusal :=
  .next (s.get init 1 (0x1000 * (e % 16) + 0x400 + 0x40 * (src % 16)) wd false)

/-- MB_DB_PEND_READ (R435). -/
def execMbDbPendRead (init wd e : Nat) (s : State) : Host.Outcome State Fault Refusal :=
  .next (s.get init 1 (0x1000 * (e % 16) + 0x800) wd false)

/-- MB_DB_CLR (R435). -/
def execMbDbClr (init e v : Nat) (s : State) : Host.Outcome State Fault Refusal := .next (s.put init 1 (0x1000 * (e % 16) + 0x808) v)

/-- MB_DB_RING (R435). -/
def execMbDbRing (init e v : Nat) (s : State) : Host.Outcome State Fault Refusal := .next (s.put init 1 (0x1000 * (e % 16) + 0x810) v)

/-- SEM_READ (R438). -/
def execSemRead (init wd n : Nat) (s : State) : Host.Outcome State Fault Refusal := .next (s.get init 2 (4 * (n % 32)) wd false)

/-- SEM_WRITE (R438). -/
def execSemWrite (init n v : Nat) (s : State) : Host.Outcome State Fault Refusal := .next (s.put init 2 (4 * (n % 32)) v)

/-- TX_MUTE: TX_CTRL is written (R82). -/
def execTxMute (init : Nat) (q : Port) (v : Nat) (s : State) : Host.Outcome State Fault Refusal := .next (s.put init (winTx q) 0 v)

/-- RX_CAL_HOLD: RX_CTRL is written (R104, R112). -/
def execRxCalHold (init : Nat) (q : Port) (v : Nat) (s : State) : Host.Outcome State Fault Refusal := .next (s.put init (winRx q) 0 v)

/-- SW_RESTART: SW_CTRL is written with RESTART (R135, R144). -/
def execSwRestart (init : Nat) (q : Port) (v : Nat) (s : State) : Host.Outcome State Fault Refusal :=
  .next (s.put init (winRx q) 0x200 (v ||| 4))

/-- SW_ALIGN_HOLD: SW_CTRL is written (R129, R144). -/
def execSwAlignHold (init : Nat) (q : Port) (v : Nat) (s : State) : Host.Outcome State Fault Refusal :=
  .next (s.put init (winRx q) 0x200 v)

/-- KILN_ACC_RESTART: KILN_CTRL is written with ACC_RESTART (R184). -/
def execKilnAccRestart (init : Nat) (q : Port) (v : Nat) (s : State) : Host.Outcome State Fault Refusal :=
  .next (s.put init (winKiln q) 0 (v ||| 4))

/-- CASK_SUBMIT: CASK_SUBMIT_LO of engine `e` is written (R290). -/
def execCaskSubmit (init e v : Nat) (s : State) : Host.Outcome State Fault Refusal := .next (s.put init (0x30 + e % 3) 8 v)

/-- CASK_ABORT: CASK_CTRL is written with ABORT and ENABLE (R292). -/
def execCaskAbort (init e : Nat) (s : State) : Host.Outcome State Fault Refusal := .next (s.put init (0x30 + e % 3) 0 3)

/-- CASK_DISABLE_FLUSH: CASK_CTRL.ENABLE is cleared (R292). -/
def execCaskDisableFlush (init e : Nat) (s : State) : Host.Outcome State Fault Refusal := .next (s.put init (0x30 + e % 3) 0 0)

/-- TIU_TS_AUX_READ (R333). -/
def execTiuTsAuxRead (init wd : Nat) (s : State) : Host.Outcome State Fault Refusal := .next (s.get init 0x38 0x18 wd false)

/-- CHN_DISABLE: CHN_CTRL.ENABLE is cleared; endpoint LINK resets (R374, R432). -/
def execChnDisable (init : Nat) (s : State) : Host.Outcome State Fault Refusal := .next (s.put init 0x39 0 0)

/-- AUX_DATA_READ (R445); `done`: the writes of the sequencer's queue, from the oldest, that the fabric has completed. -/
def execAuxDataRead (init wd done : Nat) (s : State) : Host.Outcome State Fault Refusal :=
  .next ((s.get init 0x40 0x10 wd false).auxDrain done)

/-- BWF_LOG_READ (R519). -/
def execBwfLogRead (init wd : Nat) (s : State) : Host.Outcome State Fault Refusal := .next (s.get init 0x48 0x18 wd false)

/-- BWF_RESET_REQ: BWF_CTRL is written with RESET_REQ (R519). -/
def execBwfResetReq (init : Nat) (s : State) : Host.Outcome State Fault Refusal := .next (s.put init 0x48 0 3)

/-- WATCHDOG_KICK: BWF_WDOG_KICK is written (R513). -/
def execWatchdogKick (init v : Nat) (s : State) : Host.Outcome State Fault Refusal := .next (s.put init 0x48 0x10 v)

/-- MGMT_WATCHDOG_KICK: BWF_MWDOG_KICK is written (R519). The period it restarts is time's: nothing else changes. -/
def execMgmtWatchdogKick (init v : Nat) (s : State) : Host.Outcome State Fault Refusal := .next (s.put init 0x48 0x14 v)

/-- EXPORT_RING_RP_WRITE (R427). -/
def execExportRingRpWrite (init n v : Nat) (s : State) : Host.Outcome State Fault Refusal :=
  .next (s.put init 3 (0x110 + 0x20 * (n % 8)) v)

/-! ## Resets of the host paths (R426, R430) -/

/-- Every dictionary session and transfer of a path ends (R383, R396). -/
def State.endPath (s : State) (p : Path) : State :=
  let keys := (s.od.transfers.filter (fun t => t.path == p)).map (·.key)
  let s := keys.foldl (fun s k => s.abandon k) s
  s.modOd (fun o => { o with
    sessions := o.sessions.filter (fun x => x.path != p), snaps := o.snaps.filter (fun x => x.path != p)
    early := o.early.filter (fun r => r.c.path != p) })

/-- ENDPOINT_RESET (R436): PCIEH, SPIH and LINK reset. -/
def execEndpointReset (e : Nat) (s : State) : Host.Outcome State Fault Refusal :=
  .next (if s.alive then s.endpointReset e else s)

/-- PCIE_RESET (R426): every register of the PCIE window is at its reset value; a ring's Sequence and the gap it has still to tell of
are none of them. -/
def execPcieReset (s : State) : Host.Outcome State Fault Refusal :=
  if s.alive ∧ s.domain 1 ∧ ¬ s.hostSel then
    let s := (s.endpointReset 6).endPath .pcie
    .next { s with
      regs := s.regs.filter (fun e => e.1 / 0x10000 != 3), stats := s.stats.filter (fun e => e.1 / 0x10000 != 3)
      host := { s.host with rings := s.host.rings.map (fun r => { r with wp := 0, rp := 0, drops := 0, due := false }) } }
  else .next s

/-! ## Export rings (R423–R425) -/

/-- Size of ring `n` (R427). -/
def State.expSize (s : State) (n : Nat) : Nat := 2 ^ clampN 16 30 (bitsOf (s.reg 3 (0x108 + 0x20 * n)) 28 24)

/-- Host address of a ring. -/
def State.expBase (s : State) (n : Nat) : Nat := s.reg 3 (0x104 + 0x20 * n) * 2 ^ 32 + s.reg 3 (0x100 + 0x20 * n)

/-- A ring takes a record: enabled, and its mask names the kind, or for a slip marker any kind of the port (R423). -/
def State.expTakes (s : State) (n : Nat) (x : ExportRec) : Bool :=
  let c := s.reg 3 (0x108 + 0x20 * n)
  let m := c / 256 ^ Port.num x.port % 128
  bitOf c 31 && (if x.kind < 7 then bitOf m x.kind else m != 0)

/-- Bytes an entry takes from `wp` on, its pad included, and where the pointer comes to stand (R424). -/
def expAdvance (size wp len : Nat) : Nat × Nat :=
  let pad := if size < wp + len then size - wp else 0
  (pad + len, (wp + pad + len) % size)

/-- Change a ring. -/
def State.modExp (s : State) (n : Nat) (f : ExpRing → ExpRing) : State :=
  { s with host := { s.host with rings := modAt s.host.rings n f } }

/-- Write one entry and its pad tag (R424): the entry, then WP, then the shadow. -/
def State.expPut (s : State) (n : Nat) (entry : List Byte) : State :=
  let r := s.host.rings.getD n {}
  let size := s.expSize n
  let base := s.expBase n
  let s := if size < r.wp + entry.length then
      s.emit (.hostWrite (base + r.wp) (ringTag (size - r.wp - 32) 0 false .a r.seq 0 0))
    else s
  let at_ := if size < r.wp + entry.length then 0 else r.wp
  let wp := (expAdvance size r.wp entry.length).2
  let s := (s.emit (.hostWrite (base + at_) entry)).modExp n (fun r => { r with wp := wp, seq := r.seq + 1, due := true })
  s.emit (.hostWrite (base + size) (leBytes 8 wp))

/-- An entry's bytes (R239, R424). A copy from a Cellar ring is an entry already (R257). -/
def ExportRec.entry (x : ExportRec) (seq : Nat) (gap : Bool) : List Byte :=
  if x.copy then (if gap then setAt x.bytes 5 ((x.bytes.getD 5 0) ||| 1) else x.bytes)
  else ringTag x.bytes.length x.type gap x.port seq x.time x.launch ++ padTo 32 x.bytes

/-- The gap marker's entry (R425; layout: log 53). -/
def ExpRing.gapEntry (r : ExpRing) : List Byte :=
  ringTag 16 0xC false r.gapPort r.seq r.gapTime r.gapLaunch ++ padTo 32 (leBytes 8 r.gapN ++ leBytes 8 r.gapTime)

/-- The vector of a ring, once WP has advanced (R424). -/
def State.expVector (s : State) (n : Nat) : State :=
  if (s.host.rings.getD n {}).due then (s.modExp n (fun r => { r with due := false })).emit (.vector (1 + n)) else s

/-- Offer a record to a ring: the entry with the gap marker before it, or a drop (R424, R425; log 84). A HOLDOFF of 0 sends a
vector per entry (R427). -/
def State.expOffer (s : State) (n : Nat) (x : ExportRec) : State :=
  let r := s.host.rings.getD n {}
  let size := s.expSize n
  let gap := decide (0 < r.gapN)
  let len := (x.entry 0 gap).length
  let a : Nat × Nat := if gap then expAdvance size r.wp 64 else (0, r.wp)
  let need := a.1 + (expAdvance size a.2 len).1
  let used := (r.wp + size - r.rp) % size
  if size < need + 32 + used then
    (s.modExp n (fun r => { r with
      drops := satAdd 0xFFFFFFFF r.drops 1, gapN := r.gapN + 1
      gapTime := if gap then r.gapTime else x.time, gapLaunch := if gap then r.gapLaunch else x.launch
      gapPort := if gap then r.gapPort else x.port })).raise (stPcie n) [1]
  else
    let s := if gap then (s.expPut n r.gapEntry).modExp n (fun r => { r with gapN := 0 }) else s
    let seq := (s.host.rings.getD n {}).seq
    let s := (s.expPut n (x.entry seq gap)).raise (stPcie n) [0]
    if s.reg 3 0xC = 0 then s.expVector n else s

/-- EXPORT_RING_ENTRY: the first record at the export DMA goes to every ring that takes it (R423). -/
def execExportRingEntry (s : State) : Host.Outcome State Fault Refusal :=
  match s.host.expIn with
  | [] => .next s
  | x :: rest =>
    let s : State := { s with host := { s.host with expIn := rest } }
    if s.domain 1 then .next ((upTo 8).foldl (fun s n => if s.expTakes n x then s.expOffer n x else s) s) else .next s

/-- EXPORT_VECTOR: the holdoff of ring `n` has passed since its last vector (R424). -/
def execExportVector (n : Nat) (s : State) : Host.Outcome State Fault Refusal :=
  .next (if s.domain 1 ∧ n < 8 then s.expVector n else s)

/-! ## SPI (R428–R430) -/

/-- Fabric address of an SPI address; none where its bits [30:24] are not 0 (R428; log 81). -/
def spiAddr (a : Nat) : Nat :=
  if bitsOf a 30 24 ≠ 0 then 0x1FFFFFFFFFF else (if bitOf a 31 then poolBase else regBase) + a % 2 ^ 24

/-- A frame's address and word count (R428). -/
def spiHead (b : List Byte) : Nat × Nat :=
  let n := (b.getD 5 0).toNat
  (beNat ((b.drop 1).take 4), if n = 0 then 64 else min n 64)

/-- Write words in address order; the index of the first that met a bus error. -/
def State.spiWrite (s : State) (a : Nat) : Nat → List Nat → Option Nat × State
  | _, [] => (none, s)
  | i, v :: vs =>
    let (ok, t) := s.wordWrite 22 (spiAddr (a + 4 * i)) v
    let (e, t) := t.spiWrite a (i + 1) vs
    (if ok then e else some i, t)

/-- Read `n` words in address order from the i-th on: the data, and the index of the first that met a bus error. -/
def State.spiRead (s : State) (a : Nat) : Nat → Nat → List Byte × Option Nat × State
  | _, 0 => ([], none, s)
  | i, n + 1 =>
    let (v, t) := s.wordRead 22 (spiAddr (a + 4 * i)) false
    let (d, e, t) := t.spiRead a (i + 1) n
    (leBytes 4 (v.getD 0) ++ d, if v.isSome then e else some i, t)

/-- The ready byte (R428). -/
def readyByte (e : Option Nat) : Byte := match e with
  | none => 0x80
  | some i => BitVec.ofNat 8 (0x81 + i % 64 * 2)

/-- The SPI target answers (R406, R428). -/
def State.spiOn (s : State) : Bool := s.canReach 22

/-- Words of a byte string, whole ones only. -/
def wordsOf (b : List Byte) : List Nat := (pieces 4 (b.length + 1) b).filterMap (fun x => if x.length = 4 then some (leNat x) else none)

/-- SPI_WRITE_FRAME: a complete write frame, as the host drives it (R428, R429). -/
def execSpiWriteFrame (b : List Byte) (s : State) : Host.Outcome State Fault Refusal :=
  let (a, n) := spiHead b
  if s.spiOn ∧ b.getD 0 0 = 2 ∧ b.length = 6 + 4 * n then
    let (e, s) := s.spiWrite a 0 (wordsOf (b.drop 6))
    .next (s.emit (.spi [readyByte e]))
  else .next s

/-- SPI_READ_FRAME: a complete read frame: command, address and count (R428, R429). -/
def execSpiReadFrame (b : List Byte) (s : State) : Host.Outcome State Fault Refusal :=
  let (a, n) := spiHead b
  if s.spiOn ∧ b.getD 0 0 = 3 ∧ b.length = 6 then
    let (d, e, s) := s.spiRead a 0 n
    .next (s.emit (.spi (readyByte e :: d)))
  else .next s

/-- SPI_RESET_FRAME: exactly four bytes 0x99 (R430). -/
def execSpiResetFrame (s : State) : Host.Outcome State Fault Refusal :=
  .next (if s.spiOn then (s.endpointReset 7).endPath .spi else s)

/-- SPI_FRAME_ABORT: SPI_CS_N rises after the bytes `b`; of a read frame `n` words had been executed (R430). -/
def execSpiFrameAbort (b : List Byte) (n : Nat) (s : State) : Host.Outcome State Fault Refusal :=
  let (a, k) := spiHead b
  if ¬ s.spiOn ∨ b.length < 6 then .next s
  else if b.getD 0 0 = 2 then .next ((s.spiWrite a 0 ((wordsOf (b.drop 6)).take k)).2)
  else if b.getD 0 0 = 3 then .next ((s.spiRead a 0 (min n k)).2.2)
  else .next s

end Sys2Proof.Machine
end

