-- ==== Sys2Proof/Machine/Requests.lean ====
section
/-! DEFINITION. Dictionary requests as commands, the frames and mailbox messages that carry them, the server's timeouts, the
store, and the objects whose write is an operation (spec/14_object_dictionary.md and the objects of the other chapters). -/
namespace Sys2Proof.Machine
open Sys2Proof

/-! ## Carriers (R339, R340, R382, R437) -/

/-- A frame of a dictionary type for this node (R382): a request is served, a response answers what was forwarded. -/
def State.odFrameTaken (s : State) (path : Path) (f : Frame) (waits : Bool) (h : Hint) : State :=
  if f.type = 0x50 ∨ f.type = 0x52 then s.serve (parseReq path f.src waits h none f.payload)
  else if f.type = 0x51 ∨ f.type = 0x53 then s.takeAnswer f.src f.payload
  else s

/-- IBEND_FRAME_RECEIVE: a frame arrives (R339, R340). `ok` is false where its ICV or FCS fails at its end; `at_` is its time.
A taken status answer or dictionary frame has its effect here; any other type's effect is its own command's. -/
def execIbendFrameReceive (inp : LinkPort) (f : Frame) (ok : Bool) (at_ : Nat) (waits : Bool) (h : Hint) (s : State) :
    Host.Outcome State Fault Refusal :=
  let s := s.advance at_
  if s.up ∧ ok ∧ inp = .lan ∧ f.linkLocal ∧ s.chain.localUp ∧ 0x50 ≤ f.type ∧ f.type ≤ 0x53 then
    -- accepted whatever LocalIbend is (R382; log 73)
    .next (s.odFrameTaken .localPort f waits h)
  else if s.up && s.carries inp then
    if ok then
      let (pass, s) := s.ingress inp f
      if pass then
        let s := s.forward inp f
        if s.chnOn && s.takes f then
          .next (if s.chain.iAct && f.type == 1 && f.dst != 0 then s.statusAnswer f
            else s.odFrameTaken .link f waits h)
        else .next s
      else .next s
    else .next (s.failedFrame inp f)
  else .next s

/-- BOOT: firmware starts (R479), and with it the server (R392). -/
def execBoot (load : Option (List Byte)) (s : State) : Host.Outcome State Fault Refusal := .next (s.boot load).serveEarly

/-- DICTIONARY_CARRIER_POST: a host posts a message of four words to CP0 (R437), which takes it once firmware serves (R392). -/
def execDictionaryCarrierPost (e w0 w1 w2 w3 : Nat) (waits : Bool) (h : Hint) (s : State) : Host.Outcome State Fault Refusal :=
  if (e = 6 ∨ e = 7) ∧ s.canReach (mbInit e) then
    if (s.chan e 1).full then .next (s.raise (stMb e) [0])
    else
      let s := s.mbSend e 1 [w0 % 2 ^ 32, w1 % 2 ^ 32, w2 % 2 ^ 32, w3 % 2 ^ 32]
      .next (if s.up then s.carrierTake e waits h else s)
  else .next s

/-! ## Services (R389–R398) -/

/-- One request served. -/
def State.request (s : State) (c : OdCaller) (svc : Nat) (k : OdKey) (data : List Byte) (h : Hint) : State :=
  s.serve { c := c, svc := svc, k := k, data := data, h := h }

/-- The pending value's key of an object. -/
def key_ (idx sub : Nat) : OdKey := ⟨idx, sub, false⟩

/-- OD_READ (R389). -/
def execOdRead (c : OdCaller) (k : OdKey) (s : State) : Host.Outcome State Fault Refusal := .next (s.request c 1 k [] {})

/-- OD_WRITE (R391). -/
def execOdWrite (c : OdCaller) (k : OdKey) (v : List Byte) (h : Hint) (s : State) : Host.Outcome State Fault Refusal :=
  .next (s.request c 2 k v h)

/-- OD_BROADCAST_WRITE: a Write with Node 0xFFFF (R385). -/
def execOdBroadcastWrite (c : OdCaller) (k : OdKey) (v : List Byte) (h : Hint) (s : State) : Host.Outcome State Fault Refusal :=
  .next (s.request { c with node := 0xFFFF } 2 k v h)

/-- OD_INFO (R390). -/
def execOdInfo (c : OdCaller) (k : OdKey) (s : State) : Host.Outcome State Fault Refusal := .next (s.request c 3 k [] {})

/-- OD_UPLOAD_START (R398). -/
def execOdUploadStart (c : OdCaller) (k : OdKey) (s : State) : Host.Outcome State Fault Refusal := .next (s.request c 4 k [] {})

/-- OD_UPLOAD_SEGMENT (R398). -/
def execOdUploadSegment (c : OdCaller) (k : OdKey) (ofs : Nat) (s : State) : Host.Outcome State Fault Refusal :=
  .next (s.request c 5 k (u32 ofs) {})

/-- OD_DOWNLOAD_START (R396). -/
def execOdDownloadStart (c : OdCaller) (k : OdKey) (total crc : Nat) (s : State) : Host.Outcome State Fault Refusal :=
  .next (s.request c 6 k (u32 total ++ u32 crc) {})

/-- OD_DOWNLOAD_SEGMENT (R396, R397). -/
def execOdDownloadSegment (c : OdCaller) (k : OdKey) (ofs : Nat) (v : List Byte) (h : Hint) (s : State) :
    Host.Outcome State Fault Refusal := .next (s.request c 7 k (u32 ofs ++ v) h)

/-- OD_TRANSFER_ABORT (R397). -/
def execOdTransferAbort (c : OdCaller) (k : OdKey) (s : State) : Host.Outcome State Fault Refusal := .next (s.request c 8 k [] {})

/-- OD_OPEN_SESSION (R383). -/
def execOdOpenSession (c : OdCaller) (level : Nat) (token : List Byte) (s : State) : Host.Outcome State Fault Refusal :=
  .next (s.request c 9 (key_ 0 0) (u8 level ++ token) {})

/-- OD_CLOSE_SESSION (R383). -/
def execOdCloseSession (c : OdCaller) (s : State) : Host.Outcome State Fault Refusal := .next (s.request c 0xA (key_ 0 0) [] {})

/-- OD_UNSUPPORTED_SERVICE (R389): a service code outside 1 to 10. -/
def execOdUnsupportedService (c : OdCaller) (k : OdKey) (svc : Nat) (v : List Byte) (s : State) : Host.Outcome State Fault Refusal :=
  .next (if svc = 0 ∨ 0xA < svc then s.request c svc k v {} else s)

/-! ## Timeouts (R383, R384, R397, R398) -/

/-- OD_FORWARD_TIMEOUT: a forwarded request, or a broadcast's part, has had no answer for OdTimeout (R384, R385). -/
def execOdForwardTimeout (c : OdCaller) (node : Nat) (s : State) : Host.Outcome State Fault Refusal :=
  match s.od.fwd.find? (fun e => e.caller == c && e.node == node) with
  | some e => .next (if s.up then s.forwardDone e none else s)
  | none => .next s

/-- SESSION_EXPIRY (R383). -/
def execSessionExpiry (num : Nat) (s : State) : Host.Outcome State Fault Refusal :=
  .next (s.modOd (fun o => { o with sessions := o.sessions.filter (fun x => x.num != num) }))

/-- TRANSFER_IDLE_TIMEOUT: no segment for 10 s (R397). -/
def execTransferIdleTimeout (key : Nat) (s : State) : Host.Outcome State Fault Refusal :=
  .next (if s.od.transfers.any (fun t => t.key == key) then s.abandon key else s)

/-- UPLOAD_SNAPSHOT_TIMEOUT: no segment read for 10 s (R398). -/
def execUploadSnapshotTimeout (path : Path) (source key : Nat) (s : State) : Host.Outcome State Fault Refusal :=
  .next (s.modOd (fun o => { o with
    snaps := o.snaps.filter (fun x => !(x.key == key && sameSource x.path path x.source source)) }))

/-! ## The store (R399, R400) -/

/-- STORE_COMMIT: within 2 s of the first uncommitted write; `ok`: the flash took it. -/
def execStoreCommit (ok : Bool) (s : State) : Host.Outcome State Fault Refusal :=
  .next (if s.up && s.od.dirty then s.commitStore ok else s)

/-- STORE_RETRY: 60 s after a failed commit. -/
def execStoreRetry (ok : Bool) (s : State) : Host.Outcome State Fault Refusal :=
  .next (if s.up && s.od.commitFailed then s.commitStore ok else s)

/-! ## Objects whose write is an operation -/

/-- A Write request that carries a value of an object. -/
def State.writeReq (s : State) (c : OdCaller) (idx sub : Nat) (v : List Byte) (h : Hint) : State :=
  s.request c 2 (key_ idx sub) v h

/-- STORE_NOW (R399). -/
def execStoreNow (c : OdCaller) (ok : Bool) (s : State) : Host.Outcome State Fault Refusal :=
  .next (s.writeReq c 0x1110 3 (u8 1) { ok := ok })

/-- RESTORE_DEFAULTS (R400). -/
def execRestoreDefaults (c : OdCaller) (s : State) : Host.Outcome State Fault Refusal := .next (s.writeReq c 0x1110 4 (u8 1) {})

/-- PLAN_CHECK (R39). -/
def execPlanCheck (c : OdCaller) (q : Port) (s : State) : Host.Outcome State Fault Refusal :=
  .next (s.writeReq c (portIndex q 0x2010) 0x10 (u8 1) {})

/-- LASER_ENABLE (R75). -/
def execLaserEnable (c : OdCaller) (l : Port) (s : State) : Host.Outcome State Fault Refusal :=
  .next (s.writeReq c (portIndex l 0x2100) 1 (u8 1) {})

/-- LASER_DISABLE (R76). -/
def execLaserDisable (c : OdCaller) (l : Port) (s : State) : Host.Outcome State Fault Refusal :=
  .next (s.writeReq c (portIndex l 0x2100) 1 (u8 0) {})

/-- BANK_LOAD: BankA or BankB of a decimation channel (R151). -/
def execBankLoad (c : OdCaller) (q : Port) (ch b : Nat) (v : List Byte) (s : State) : Host.Outcome State Fault Refusal :=
  .next (s.writeReq c (decIndex q ch) (0xA + b % 2) v {})

/-- BANK_SELECT (R152). -/
def execBankSelect (c : OdCaller) (q : Port) (ch b : Nat) (s : State) : Host.Outcome State Fault Refusal :=
  .next (s.writeReq c (decIndex q ch) 8 (u8 b) {})

/-- SHAPE_CAL (R187). -/
def execShapeCal (c : OdCaller) (q : Port) (s : State) : Host.Outcome State Fault Refusal :=
  .next (s.writeReq c (portIndex q 0x4011) 0xA (u8 1) {})

/-- PROGRAM_IMAGE (R232): a Write of ProgramImage; `hdr` is what the image's header says (log 41). -/
def execProgramImage (c : OdCaller) (p : Nat) (v : List Byte) (hdr : ImageHeader) (s : State) : Host.Outcome State Fault Refusal :=
  .next (s.writeReq c (0x9010 + p % 4) 1 v { hdr := some hdr })

/-- PROGRAM_RUN (R233). -/
def execProgramRun (c : OdCaller) (p : Nat) (s : State) : Host.Outcome State Fault Refusal := .next (s.writeReq c (0x9010 + p % 4) 3 (u8 1) {})

/-- PROGRAM_STOP (R233). -/
def execProgramStop (c : OdCaller) (p : Nat) (s : State) : Host.Outcome State Fault Refusal := .next (s.writeReq c (0x9010 + p % 4) 3 (u8 0) {})

/-- TRIGGER_TIME (R244). -/
def execTriggerTime (c : OdCaller) (d t : Nat) (s : State) : Host.Outcome State Fault Refusal :=
  .next (s.writeReq c (0x5100 + d % 16) 0xF (u64 t) {})

/-- CAPTURE_ARM (R250). -/
def execCaptureArm (c : OdCaller) (d : Nat) (s : State) : Host.Outcome State Fault Refusal := .next (s.writeReq c (0x5100 + d % 16) 1 (u8 1) {})

/-- CAPTURE_DISARM (R253). -/
def execCaptureDisarm (c : OdCaller) (d : Nat) (s : State) : Host.Outcome State Fault Refusal := .next (s.writeReq c (0x5100 + d % 16) 1 (u8 0) {})

/-- CAPTURE_RELEASE (R256). -/
def execCaptureRelease (c : OdCaller) (d : Nat) (s : State) : Host.Outcome State Fault Refusal :=
  .next (s.writeReq c (0x5100 + d % 16) 0x16 (u8 1) {})

/-- EXPORT_RAW: ExportJob 1 (R255). -/
def execExportRaw (c : OdCaller) (d : Nat) (s : State) : Host.Outcome State Fault Refusal := .next (s.writeReq c (0x5100 + d % 16) 0x17 (u8 1) {})

/-- EXPORT_CASK_PCIE: ExportJob 2 (R255). -/
def execExportCaskPcie (c : OdCaller) (d : Nat) (s : State) : Host.Outcome State Fault Refusal :=
  .next (s.writeReq c (0x5100 + d % 16) 0x17 (u8 2) {})

/-- EXPORT_CASK_TRUNK: ExportJob 3 (R255). -/
def execExportCaskTrunk (c : OdCaller) (d : Nat) (s : State) : Host.Outcome State Fault Refusal :=
  .next (s.writeReq c (0x5100 + d % 16) 0x17 (u8 3) {})

/-- EXPORT_ABORT: ExportJob 0 (R255). -/
def execExportAbort (c : OdCaller) (d : Nat) (s : State) : Host.Outcome State Fault Refusal := .next (s.writeReq c (0x5100 + d % 16) 0x17 (u8 0) {})

/-- RANK_RETIRE (R284). -/
def execRankRetire (c : OdCaller) (rank : Nat) (s : State) : Host.Outcome State Fault Refusal := .next (s.writeReq c 0x5083 1 (u8 rank) {})

/-- MEAS_ARM: MeasArm, or TIU_CTRL.ARM with ENABLE as it stands (R326, R333). -/
def execMeasArm (v : Via) (s : State) : Host.Outcome State Fault Refusal :=
  match v with
  | .od c => .next (s.writeReq c 0x1240 6 (u8 1) {})
  | .reg init => .next (s.put init 0x38 4 (s.reg 0x38 4 % 2 + 2))

/-- MEAS_MODE_OFF (R327). -/
def execMeasModeOff (c : OdCaller) (s : State) : Host.Outcome State Fault Refusal := .next (s.writeReq c 0x1240 1 (u8 0) {})

/-- EPOCH_REQUEST (R348); `spans`: what the manager has read of the spans between other nodes (R362). -/
def execEpochRequest (c : OdCaller) (lead : Nat) (spans : List SpanInfo) (s : State) : Host.Outcome State Fault Refusal :=
  .next (s.writeReq c 0x7000 7 (u16 lead) { spans := spans })

/-- FAULT_CLEAR (R356). -/
def execFaultClear (c : OdCaller) (key : Nat) (s : State) : Host.Outcome State Fault Refusal := .next (s.writeReq c 0x7000 0x11 (u32 key) {})

/-- FORCE_TAKEOVER (R367). -/
def execForceTakeover (c : OdCaller) (q : Port) (s : State) : Host.Outcome State Fault Refusal :=
  .next (s.writeReq c (portIndex q 0x7010) 0x13 (u8 1) {})

/-- INJECT_INPUT: InjectInput or HK_INJ (R446). -/
def execInjectInput (v : Via) (e : Nat) (s : State) : Host.Outcome State Fault Refusal :=
  match v with
  | .od c => .next (s.writeReq c 0x8000 7 (u8 e) {})
  | .reg init => .next (s.put init 0x40 0x14 e)

/-- HK_SELF_CAL: SelfCalStart, HK_CTRL.SELF_CAL, or HkCalPeriod (R447, R448). -/
def execHkSelfCal (v : Option Via) (s : State) : Host.Outcome State Fault Refusal :=
  match v with
  | some (.od c) => .next (s.writeReq c 0x8020 1 (u8 1) {})
  | some (.reg init) => .next (s.put init 0x40 0 (s.reg 0x40 0 ||| 5))
  | none => .next (if s.hkOn && s.nat 0x8020 5 != 0 then s.selfCalStart.getD s else s)

/-- SYS_CAL_ZERO (R449). -/
def execSysCalZero (c : OdCaller) (input : Nat) (s : State) : Host.Outcome State Fault Refusal := .next (s.writeReq c 0x8020 7 (u8 input) {})

/-- SYS_CAL_FULL (R449). -/
def execSysCalFull (c : OdCaller) (input : Nat) (s : State) : Host.Outcome State Fault Refusal := .next (s.writeReq c 0x8020 8 (u8 input) {})

/-- ATTEST_CHALLENGE (R469). -/
def execAttestChallenge (c : OdCaller) (v : List Byte) (s : State) : Host.Outcome State Fault Refusal := .next (s.writeReq c 0x1002 1 v {})

/-- DEVICE_CERTIFICATE (R468). -/
def execDeviceCertificate (c : OdCaller) (v : List Byte) (s : State) : Host.Outcome State Fault Refusal := .next (s.writeReq c 0x1001 1 v {})

/-- OWNER_KEY (R470); `ok`: the flash took the owner record. -/
def execOwnerKey (c : OdCaller) (v : List Byte) (ok : Bool) (s : State) : Host.Outcome State Fault Refusal :=
  .next (s.writeReq c 0x1400 1 v { ok := ok })

/-- OWNER_UNLOCK: a kind 3 token (R473). -/
def execOwnerUnlock (c : OdCaller) (v : List Byte) (s : State) : Host.Outcome State Fault Refusal := .next (s.writeReq c 0x1400 5 v {})

/-- OWNER_RELEASE: a kind 5 token (R473). -/
def execOwnerRelease (c : OdCaller) (v : List Byte) (s : State) : Host.Outcome State Fault Refusal := .next (s.writeReq c 0x1400 5 v {})

/-- OWNER_TRANSFER: a kind 4 token and the new key (R473). -/
def execOwnerTransfer (c : OdCaller) (v : List Byte) (s : State) : Host.Outcome State Fault Refusal := .next (s.writeReq c 0x1400 6 v {})

/-- OWNER_LOCK (R474). -/
def execOwnerLock (c : OdCaller) (s : State) : Host.Outcome State Fault Refusal := .next (s.writeReq c 0x1400 4 (u8 1) {})

/-- UPDATE_TOKEN (R483). -/
def execUpdateToken (c : OdCaller) (v : List Byte) (s : State) : Host.Outcome State Fault Refusal := .next (s.writeReq c 0x1410 4 v {})

/-- UPDATE_DISARM: UpdateApply 0 (R484). -/
def execUpdateDisarm (c : OdCaller) (s : State) : Host.Outcome State Fault Refusal := .next (s.writeReq c 0x1410 5 (u8 0) {})

/-- UPDATE_APPLY_RESTART: UpdateApply 1 (R484). -/
def execUpdateApplyRestart (c : OdCaller) (s : State) : Host.Outcome State Fault Refusal := .next (s.writeReq c 0x1410 5 (u8 1) {})

/-- UPDATE_APPLY_NEXT_START: UpdateApply 2 (R484). -/
def execUpdateApplyNextStart (c : OdCaller) (s : State) : Host.Outcome State Fault Refusal := .next (s.writeReq c 0x1410 5 (u8 2) {})

/-- UPDATE_FORCE_FALLBACK: UpdateApply 3 (R484). -/
def execUpdateForceFallback (c : OdCaller) (s : State) : Host.Outcome State Fault Refusal := .next (s.writeReq c 0x1410 5 (u8 3) {})

/-- CONFIRM: a write of 1 to Confirm, or the automatic confirm once firmware's own conditions hold (R486). -/
def execConfirm (who : Option OdCaller) (s : State) : Host.Outcome State Fault Refusal :=
  match who with
  | some c => .next (s.writeReq c 0x1410 7 (u8 1) {})
  | none => .next (if s.up && s.ident.imageState == 1 && s.autoConfirmOk then s.confirm.2 else s)

/-- SAFE_HOLD_CLEAR (R503). -/
def execSafeHoldClear (c : OdCaller) (s : State) : Host.Outcome State Fault Refusal := .next (s.writeReq c 0x1300 0x11 (u8 0) {})

/-- RESET_REQUEST (R502). -/
def execResetRequest (c : OdCaller) (s : State) : Host.Outcome State Fault Refusal := .next (s.writeReq c 0x1300 6 (u8 1) {})

/-- STANDBY_REQUEST: StandbyRequest or PWR_STBY.REQ (R504); `commitOk`: the flash took the commit. -/
def execStandbyRequest (v : Via) (commitOk : Bool) (s : State) : Host.Outcome State Fault Refusal :=
  match v with
  | .od c => .next (s.writeReq c 0x1300 7 (u8 1) { ok := commitOk })
  | .reg init => .next (s.put init 0x49 0x14 1)

end Sys2Proof.Machine
end

