-- ==== Sys2Proof/Machine/Dispatch.lean ====
section
/-! DEFINITION. One arm per command: a direct call of its meaning. -/
namespace Sys2Proof.Machine

/-- The effect of a command on everything but the queue. -/
def exec (i : Instr) (s : State) : Host.Outcome State Fault Refusal :=
  match i with
  | .tideEdge res ma mb => Sys2Proof.Machine.execTideEdge res ma mb s
  | .firstTideStart res => Sys2Proof.Machine.execFirstTideStart res s
  | .tideSlip res ma mb => Sys2Proof.Machine.execTideSlip res ma mb s
  | .launch q j => Sys2Proof.Machine.execLaunch q j s
  | .planCheck c q => Sys2Proof.Machine.execPlanCheck c q s
  | .stageDeadlineOverrun stage => Sys2Proof.Machine.execStageDeadlineOverrun stage s
  | .laserEnable c l => Sys2Proof.Machine.execLaserEnable c l s
  | .laserDisable c l => Sys2Proof.Machine.execLaserDisable c l s
  | .laserSettleExpiry q => Sys2Proof.Machine.execLaserSettleExpiry q s
  | .portStopComplete q => Sys2Proof.Machine.execPortStopComplete q s
  | .biasTrackEntry q => Sys2Proof.Machine.execBiasTrackEntry q s
  | .biasReacquire q => Sys2Proof.Machine.execBiasReacquire q s
  | .biasAcquireFail q => Sys2Proof.Machine.execBiasAcquireFail q s
  | .pumpRampDone q => Sys2Proof.Machine.execPumpRampDone q s
  | .latencyCalibrationDone q mean1 mean2 => Sys2Proof.Machine.execLatencyCalibrationDone q mean1 mean2 s
  | .enterLive q => Sys2Proof.Machine.execEnterLive q s
  | .launchMissing q ell => Sys2Proof.Machine.execLaunchMissing q ell s
  | .laserFollowStep q => Sys2Proof.Machine.execLaserFollowStep q s
  | .laserFollowPilotFound q => Sys2Proof.Machine.execLaserFollowPilotFound q s
  | .laserFollowSweepFail q => Sys2Proof.Machine.execLaserFollowSweepFail q s
  | .interlockOpen => Sys2Proof.Machine.execInterlockOpen s
  | .interlockClose => Sys2Proof.Machine.execInterlockClose s
  | .txMute init q v => Sys2Proof.Machine.execTxMute init q v s
  | .rxForegroundCal q kiln => Sys2Proof.Machine.execRxForegroundCal q kiln s
  | .rxForegroundCalDone q kiln pass res => Sys2Proof.Machine.execRxForegroundCalDone q kiln pass res s
  | .rxBackgroundCalRun q kiln res => Sys2Proof.Machine.execRxBackgroundCalRun q kiln res s
  | .rxCalStale q kiln => Sys2Proof.Machine.execRxCalStale q kiln s
  | .rxCalHold init q v => Sys2Proof.Machine.execRxCalHold init q v s
  | .swashLaunchRecords q r => Sys2Proof.Machine.execSwashLaunchRecords q r s
  | .swRestart init q v => Sys2Proof.Machine.execSwRestart init q v s
  | .swAlignHold init q v => Sys2Proof.Machine.execSwAlignHold init q v s
  | .decimatedRecord q c lost => Sys2Proof.Machine.execDecimatedRecord q c lost s
  | .bankLoad c q ch b v => Sys2Proof.Machine.execBankLoad c q ch b v s
  | .bankSelect c q ch b => Sys2Proof.Machine.execBankSelect c q ch b s
  | .bankSwap q c => Sys2Proof.Machine.execBankSwap q c s
  | .lauterRecord q lost => Sys2Proof.Machine.execLauterRecord q lost s
  | .kilnShot q r unlocked => Sys2Proof.Machine.execKilnShot q r unlocked s
  | .kilnAccumulationStart q => Sys2Proof.Machine.execKilnAccumulationStart q s
  | .kilnAccumulationComplete q => Sys2Proof.Machine.execKilnAccumulationComplete q s
  | .kilnFitDispatch q => Sys2Proof.Machine.execKilnFitDispatch q s
  | .kilnFitComplete q poison => Sys2Proof.Machine.execKilnFitComplete q poison s
  | .kilnFitOverrun q fitted poison => Sys2Proof.Machine.execKilnFitOverrun q fitted poison s
  | .kilnProfileAssembly q => Sys2Proof.Machine.execKilnProfileAssembly q s
  | .kilnAccRestart init q v => Sys2Proof.Machine.execKilnAccRestart init q v s
  | .shapeCal c q => Sys2Proof.Machine.execShapeCal c q s
  | .shapeCalDone q => Sys2Proof.Machine.execShapeCalDone q s
  | .freqRefCalRun q count => Sys2Proof.Machine.execFreqRefCalRun q count s
  | .detectionDispatch q => Sys2Proof.Machine.execDetectionDispatch q s
  | .detectionCoreEnd q c => Sys2Proof.Machine.execDetectionCoreEnd q c s
  | .trackingDispatch => Sys2Proof.Machine.execTrackingDispatch s
  | .trackRecord q => Sys2Proof.Machine.execTrackRecord q s
  | .coreAbortTimeout c => Sys2Proof.Machine.execCoreAbortTimeout c s
  | .coreException c cause fitted => Sys2Proof.Machine.execCoreException c cause fitted s
  | .coreStopTimeout c => Sys2Proof.Machine.execCoreStopTimeout c s
  | .brewStreamInput q => Sys2Proof.Machine.execBrewStreamInput q s
  | .programImage c p v hdr => Sys2Proof.Machine.execProgramImage c p v hdr s
  | .programRun c p => Sys2Proof.Machine.execProgramRun c p s
  | .programStop c p => Sys2Proof.Machine.execProgramStop c p s
  | .vectorMultiplyAccumulate c op complex signedA signedB dst a b m => Sys2Proof.Machine.execVectorMultiplyAccumulate c op complex signedA signedB dst a b m s
  | .vectorArithmeticLogic c op wide signed dst a b d m => Sys2Proof.Machine.execVectorArithmeticLogic c op wide signed dst a b d m s
  | .accumulatorMove c src op m => Sys2Proof.Machine.execAccumulatorMove c src op m s
  | .search c isMax wide signed src base m => Sys2Proof.Machine.execSearch c isMax wide signed src base m s
  | .searchReset c isMax wide signed m => Sys2Proof.Machine.execSearchReset c isMax wide signed m s
  | .searchRead c dstV dstI m => Sys2Proof.Machine.execSearchRead c dstV dstI m s
  | .scalarOperation c op signed dst dst2 a b m => Sys2Proof.Machine.execScalarOperation c op signed dst dst2 a b m s
  | .memoryMove c mem m => Sys2Proof.Machine.execMemoryMove c mem m s
  | .addressGeneratorSetup c n g m => Sys2Proof.Machine.execAddressGeneratorSetup c n g m s
  | .branchCallReturn c j cond m => Sys2Proof.Machine.execBranchCallReturn c j cond m s
  | .hardwareLoop c last count m => Sys2Proof.Machine.execHardwareLoop c last count m s
  | .waitForEvent c m => Sys2Proof.Machine.execWaitForEvent c m s
  | .halt c m => Sys2Proof.Machine.execHalt c m s
  | .queueCoreDma c desc m => Sys2Proof.Machine.execQueueCoreDma c desc m s
  | .waitDmaCompletion c left m => Sys2Proof.Machine.execWaitDmaCompletion c left m s
  | .coreDmaComplete c err => Sys2Proof.Machine.execCoreDmaComplete c err s
  | .publishOutputRecord c bytes m => Sys2Proof.Machine.execPublishOutputRecord c bytes m s
  | .ringEntryWrite q ok => Sys2Proof.Machine.execRingEntryWrite q ok s
  | .gapMarkerWrite q c => Sys2Proof.Machine.execGapMarkerWrite q c s
  | .triggerDetection q => Sys2Proof.Machine.execTriggerDetection q s
  | .triggerEvtInput n => Sys2Proof.Machine.execTriggerEvtInput n s
  | .triggerTime c d t => Sys2Proof.Machine.execTriggerTime c d t s
  | .triggerTrunkMessage inp f => Sys2Proof.Machine.execTriggerTrunkMessage inp f s
  | .triggerQueueServe q => Sys2Proof.Machine.execTriggerQueueServe q s
  | .captureFreeze d => Sys2Proof.Machine.execCaptureFreeze d s
  | .captureArm c d => Sys2Proof.Machine.execCaptureArm c d s
  | .captureDisarm c d => Sys2Proof.Machine.execCaptureDisarm c d s
  | .captureRelease c d => Sys2Proof.Machine.execCaptureRelease c d s
  | .exportRaw c d => Sys2Proof.Machine.execExportRaw c d s
  | .exportCaskPcie c d => Sys2Proof.Machine.execExportCaskPcie c d s
  | .exportCaskTrunk c d => Sys2Proof.Machine.execExportCaskTrunk c d s
  | .exportAbort c d => Sys2Proof.Machine.execExportAbort c d s
  | .exportJobEnd d ok errs => Sys2Proof.Machine.execExportJobEnd d ok errs s
  | .dramTraining fails => Sys2Proof.Machine.execDramTraining fails s
  | .zqShortCal => Sys2Proof.Machine.execZqShortCal s
  | .refreshDue ch cs queued => Sys2Proof.Machine.execRefreshDue ch cs queued s
  | .postponedRefreshIssue ch cs => Sys2Proof.Machine.execPostponedRefreshIssue ch cs s
  | .dramTemperaturePoll status => Sys2Proof.Machine.execDramTemperaturePoll status s
  | .dramRead init addr flips wrong act => Sys2Proof.Machine.execDramRead init addr flips wrong act s
  | .dramWrite init addr data tag poison flips act => Sys2Proof.Machine.execDramWrite init addr data tag poison flips act s
  | .dramPartialWrite init addr data tag poison tflips flips wrong act => Sys2Proof.Machine.execDramPartialWrite init addr data tag poison tflips flips wrong act s
  | .powerDownEntry ch cs => Sys2Proof.Machine.execPowerDownEntry ch cs s
  | .scrubLine flips wrong act => Sys2Proof.Machine.execScrubLine flips wrong act s
  | .ceWindowExpiry => Sys2Proof.Machine.execCeWindowExpiry s
  | .rankRetire c rank => Sys2Proof.Machine.execRankRetire c rank s
  | .migrationCopyEnd ch errs => Sys2Proof.Machine.execMigrationCopyEnd ch errs s
  | .caskSubmit init e v => Sys2Proof.Machine.execCaskSubmit init e v s
  | .caskJobStart e => Sys2Proof.Machine.execCaskJobStart e s
  | .caskJobEnd e errs => Sys2Proof.Machine.execCaskJobEnd e errs s
  | .caskAbort init e => Sys2Proof.Machine.execCaskAbort init e s
  | .caskDisableFlush init e => Sys2Proof.Machine.execCaskDisableFlush init e s
  | .ocxoWarm rdyMs freqs upS => Sys2Proof.Machine.execOcxoWarm rdyMs freqs upS s
  | .ocxoAlarm rdyFell => Sys2Proof.Machine.execOcxoAlarm rdyFell s
  | .pllLock which => Sys2Proof.Machine.execPllLock which s
  | .pllLossOfLock which => Sys2Proof.Machine.execPllLossOfLock which s
  | .synthUnlock p => Sys2Proof.Machine.execSynthUnlock p s
  | .synthRelock p => Sys2Proof.Machine.execSynthRelock p s
  | .servoSample dtMs => Sys2Proof.Machine.execServoSample dtMs s
  | .timeLock => Sys2Proof.Machine.execTimeLock s
  | .timeHoldover at_ => Sys2Proof.Machine.execTimeHoldover at_ s
  | .holdoverLimit => Sys2Proof.Machine.execHoldoverLimit s
  | .rtcWriteBack => Sys2Proof.Machine.execRtcWriteBack s
  | .gnssWaitExpiry => Sys2Proof.Machine.execGnssWaitExpiry s
  | .ptpSyncSend tw te tl => Sys2Proof.Machine.execPtpSyncSend tw te tl s
  | .pdelayReqSend => Sys2Proof.Machine.execPdelayReqSend s
  | .announceSend => Sys2Proof.Machine.execAnnounceSend s
  | .ptpEventFrame q kind domain seq t1 t2 t3 t4 corr res => Sys2Proof.Machine.execPtpEventFrame q kind domain seq t1 t2 t3 t4 corr res s
  | .todSentence kind sumOk statusA second at_ => Sys2Proof.Machine.execTodSentence kind sumOk statusA second at_ s
  | .ppsEdge => Sys2Proof.Machine.execPpsEdge s
  | .tiuEvent inp t rising => Sys2Proof.Machine.execTiuEvent inp t rising s
  | .lmonEvent q => Sys2Proof.Machine.execLmonEvent q s
  | .tiuShortPulse inp => Sys2Proof.Machine.execTiuShortPulse inp s
  | .tiuDeadTimeDrop inp t rising => Sys2Proof.Machine.execTiuDeadTimeDrop inp t rising s
  | .tiuStuck inp => Sys2Proof.Machine.execTiuStuck inp s
  | .measArm v => Sys2Proof.Machine.execMeasArm v s
  | .measModeOff c => Sys2Proof.Machine.execMeasModeOff c s
  | .interpCalRun inp one1 two1 one2 two2 => Sys2Proof.Machine.execInterpCalRun inp one1 two1 one2 two2 s
  | .interpCalStale inp at_ => Sys2Proof.Machine.execInterpCalStale inp at_ s
  | .tiuTsAuxRead init wd => Sys2Proof.Machine.execTiuTsAuxRead init wd s
  | .ibendFrameReceive inp f ok at_ waits h => Sys2Proof.Machine.execIbendFrameReceive inp f ok at_ waits h s
  | .keepaliveSend => Sys2Proof.Machine.execKeepaliveSend s
  | .linkLoss d pcs => Sys2Proof.Machine.execLinkLoss d pcs s
  | .linkUp d peer => Sys2Proof.Machine.execLinkUp d peer s
  | .topologyFrame inp f beyond => Sys2Proof.Machine.execTopologyFrame inp f beyond s
  | .ringRestore d => Sys2Proof.Machine.execRingRestore d s
  | .heartbeatReceive inp f => Sys2Proof.Machine.execHeartbeatReceive inp f s
  | .managerTimeout => Sys2Proof.Machine.execManagerTimeout s
  | .managerListenEnd => Sys2Proof.Machine.execManagerListenEnd s
  | .joinFrame inp f answer => Sys2Proof.Machine.execJoinFrame inp f answer s
  | .epochRequest c lead spans => Sys2Proof.Machine.execEpochRequest c lead spans s
  | .prepare inp f => Sys2Proof.Machine.execPrepare inp f s
  | .acknowledgement inp f => Sys2Proof.Machine.execAcknowledgement inp f s
  | .cancel inp f => Sys2Proof.Machine.execCancel inp f s
  | .epochAnswerDeadline => Sys2Proof.Machine.execEpochAnswerDeadline s
  | .epochApply => Sys2Proof.Machine.execEpochApply s
  | .resynchronise spans => Sys2Proof.Machine.execResynchronise spans s
  | .faultReport inp f => Sys2Proof.Machine.execFaultReport inp f s
  | .faultClear c key => Sys2Proof.Machine.execFaultClear c key s
  | .pairStatus inp f => Sys2Proof.Machine.execPairStatus inp f s
  | .partnerUnreachable q => Sys2Proof.Machine.execPartnerUnreachable q s
  | .pilotFrameReceive q syms arr => Sys2Proof.Machine.execPilotFrameReceive q syms arr s
  | .pilotLoss q drops at_ => Sys2Proof.Machine.execPilotLoss q drops at_ s
  | .takeoverApply q => Sys2Proof.Machine.execTakeoverApply q s
  | .forceTakeover c q => Sys2Proof.Machine.execForceTakeover c q s
  | .breakPositionReport q => Sys2Proof.Machine.execBreakPositionReport q s
  | .pairYield q => Sys2Proof.Machine.execPairYield q s
  | .pairRestoreHold x => Sys2Proof.Machine.execPairRestoreHold x s
  | .handoffReceive q inp f => Sys2Proof.Machine.execHandoffReceive q inp f s
  | .handoffAck q inp f => Sys2Proof.Machine.execHandoffAck q inp f s
  | .handoffTimeout q track => Sys2Proof.Machine.execHandoffTimeout q track s
  | .keyExchangeFrame d f => Sys2Proof.Machine.execKeyExchangeFrame d f s
  | .keyExchangeTimeout d => Sys2Proof.Machine.execKeyExchangeTimeout d s
  | .keyExchangeRetry d => Sys2Proof.Machine.execKeyExchangeRetry d s
  | .rekey d => Sys2Proof.Machine.execRekey d s
  | .rekeyRetry d => Sys2Proof.Machine.execRekeyRetry d s
  | .oldAssociationExpiry d => Sys2Proof.Machine.execOldAssociationExpiry d s
  | .chnDisable init => Sys2Proof.Machine.execChnDisable init s
  | .odRead c k => Sys2Proof.Machine.execOdRead c k s
  | .odWrite c k v h => Sys2Proof.Machine.execOdWrite c k v h s
  | .odBroadcastWrite c k v h => Sys2Proof.Machine.execOdBroadcastWrite c k v h s
  | .odInfo c k => Sys2Proof.Machine.execOdInfo c k s
  | .odUploadStart c k => Sys2Proof.Machine.execOdUploadStart c k s
  | .odUploadSegment c k ofs => Sys2Proof.Machine.execOdUploadSegment c k ofs s
  | .odDownloadStart c k total crc => Sys2Proof.Machine.execOdDownloadStart c k total crc s
  | .odDownloadSegment c k ofs v h => Sys2Proof.Machine.execOdDownloadSegment c k ofs v h s
  | .odTransferAbort c k => Sys2Proof.Machine.execOdTransferAbort c k s
  | .odOpenSession c level token => Sys2Proof.Machine.execOdOpenSession c level token s
  | .odCloseSession c => Sys2Proof.Machine.execOdCloseSession c s
  | .odUnsupportedService c k svc v => Sys2Proof.Machine.execOdUnsupportedService c k svc v s
  | .odForwardTimeout c node => Sys2Proof.Machine.execOdForwardTimeout c node s
  | .sessionExpiry num => Sys2Proof.Machine.execSessionExpiry num s
  | .transferIdleTimeout key => Sys2Proof.Machine.execTransferIdleTimeout key s
  | .uploadSnapshotTimeout path source key => Sys2Proof.Machine.execUploadSnapshotTimeout path source key s
  | .storeCommit ok => Sys2Proof.Machine.execStoreCommit ok s
  | .storeNow c ok => Sys2Proof.Machine.execStoreNow c ok s
  | .storeRetry ok => Sys2Proof.Machine.execStoreRetry ok s
  | .restoreDefaults c => Sys2Proof.Machine.execRestoreDefaults c s
  | .dictionaryCarrierPost e w0 w1 w2 w3 waits h => Sys2Proof.Machine.execDictionaryCarrierPost e w0 w1 w2 w3 waits h s
  | .registerWrite a v => Sys2Proof.Machine.execRegisterWrite a v s
  | .seqStatusWrite a v => Sys2Proof.Machine.execSeqStatusWrite a v s
  | .tideNumLoRead init wd => Sys2Proof.Machine.execTideNumLoRead init wd s
  | .indDataRead init wd bad => Sys2Proof.Machine.execIndDataRead init wd bad s
  | .indDataWrite init v => Sys2Proof.Machine.execIndDataWrite init v s
  | .mbPost init e d len => Sys2Proof.Machine.execMbPost init e d len s
  | .mbRxHdrRead init wd e src => Sys2Proof.Machine.execMbRxHdrRead init wd e src s
  | .mbDbPendRead init wd e => Sys2Proof.Machine.execMbDbPendRead init wd e s
  | .mbDbClr init e v => Sys2Proof.Machine.execMbDbClr init e v s
  | .mbDbRing init e v => Sys2Proof.Machine.execMbDbRing init e v s
  | .endpointReset e => Sys2Proof.Machine.execEndpointReset e s
  | .semRead init wd n => Sys2Proof.Machine.execSemRead init wd n s
  | .semWrite init n v => Sys2Proof.Machine.execSemWrite init n v s
  | .pcieReset => Sys2Proof.Machine.execPcieReset s
  | .exportRingEntry => Sys2Proof.Machine.execExportRingEntry s
  | .exportVector n => Sys2Proof.Machine.execExportVector n s
  | .exportRingRpWrite init n v => Sys2Proof.Machine.execExportRingRpWrite init n v s
  | .spiWriteFrame b => Sys2Proof.Machine.execSpiWriteFrame b s
  | .spiReadFrame b => Sys2Proof.Machine.execSpiReadFrame b s
  | .spiResetFrame => Sys2Proof.Machine.execSpiResetFrame s
  | .spiFrameAbort b n => Sys2Proof.Machine.execSpiFrameAbort b n s
  | .hkSlotConversion slot vp vn vref => Sys2Proof.Machine.execHkSlotConversion slot vp vn vref s
  | .hkScanPassStart => Sys2Proof.Machine.execHkScanPassStart s
  | .auxDataRead init wd done => Sys2Proof.Machine.execAuxDataRead init wd done s
  | .injectInput v e => Sys2Proof.Machine.execInjectInput v e s
  | .hkSelfCal v => Sys2Proof.Machine.execHkSelfCal v s
  | .hkSelfCalDone o1 o2 g1 g2 => Sys2Proof.Machine.execHkSelfCalDone o1 o2 g1 g2 s
  | .hkSelfCalStale => Sys2Proof.Machine.execHkSelfCalStale s
  | .sysCalZero c input => Sys2Proof.Machine.execSysCalZero c input s
  | .sysCalFull c input => Sys2Proof.Machine.execSysCalFull c input s
  | .sysCalDone s1 s2 => Sys2Proof.Machine.execSysCalDone s1 s2 s
  | .refinLost => Sys2Proof.Machine.execRefinLost s
  | .refrdy => Sys2Proof.Machine.execRefrdy s
  | .bridgeConversionEnd n runs => Sys2Proof.Machine.execBridgeConversionEnd n runs s
  | .bridgeResult n => Sys2Proof.Machine.execBridgeResult n s
  | .bridgeBreakDetect n drive vs vp vn => Sys2Proof.Machine.execBridgeBreakDetect n drive vs vp vn s
  | .dacTrimRun q res => Sys2Proof.Machine.execDacTrimRun q res s
  | .attestChallenge c v => Sys2Proof.Machine.execAttestChallenge c v s
  | .deviceCertificate c v => Sys2Proof.Machine.execDeviceCertificate c v s
  | .ownerKey c v ok => Sys2Proof.Machine.execOwnerKey c v ok s
  | .ownerUnlock c v => Sys2Proof.Machine.execOwnerUnlock c v s
  | .ownerRelease c v => Sys2Proof.Machine.execOwnerRelease c v s
  | .ownerTransfer c v => Sys2Proof.Machine.execOwnerTransfer c v s
  | .ownerLock c => Sys2Proof.Machine.execOwnerLock c s
  | .updateToken c v => Sys2Proof.Machine.execUpdateToken c v s
  | .updateDisarm c => Sys2Proof.Machine.execUpdateDisarm c s
  | .updateApplyRestart c => Sys2Proof.Machine.execUpdateApplyRestart c s
  | .updateApplyNextStart c => Sys2Proof.Machine.execUpdateApplyNextStart c s
  | .updateForceFallback c => Sys2Proof.Machine.execUpdateForceFallback c s
  | .imageInstall vbatOk => Sys2Proof.Machine.execImageInstall vbatOk s
  | .confirm who => Sys2Proof.Machine.execConfirm who s
  | .confirmTimeout => Sys2Proof.Machine.execConfirmTimeout s
  | .fallback => Sys2Proof.Machine.execFallback s
  | .boot load => Sys2Proof.Machine.execBoot load s
  | .porstAssert => Sys2Proof.Machine.execPorstAssert s
  | .porstRelease straps pins => Sys2Proof.Machine.execPorstRelease straps pins s
  | .sysrst lowNs => Sys2Proof.Machine.execSysrst lowNs s
  | .brownOut => Sys2Proof.Machine.execBrownOut s
  | .domainSwitchOn d => Sys2Proof.Machine.execDomainSwitchOn d s
  | .safeHoldClear c => Sys2Proof.Machine.execSafeHoldClear c s
  | .resetRequest c => Sys2Proof.Machine.execResetRequest c s
  | .bwfResetReq init => Sys2Proof.Machine.execBwfResetReq init s
  | .standbyRequest v commitOk => Sys2Proof.Machine.execStandbyRequest v commitOk s
  | .wakeN lowNs => Sys2Proof.Machine.execWakeN lowNs s
  | .rtcAlarmWake => Sys2Proof.Machine.execRtcAlarmWake s
  | .vmainOkFall => Sys2Proof.Machine.execVmainOkFall s
  | .mainLossDelay commitOk => Sys2Proof.Machine.execMainLossDelay commitOk s
  | .vmainOkRise => Sys2Proof.Machine.execVmainOkRise s
  | .thermalPoll centre edge => Sys2Proof.Machine.execThermalPoll centre edge s
  | .tamperEdge input commitOk => Sys2Proof.Machine.execTamperEdge input commitOk s
  | .vbatLoss => Sys2Proof.Machine.execVbatLoss s
  | .fatalFault unit inst num => Sys2Proof.Machine.execFatalFault unit inst num s
  | .containedFault unit inst num => Sys2Proof.Machine.execContainedFault unit inst num s
  | .correctedFault => Sys2Proof.Machine.execCorrectedFault s
  | .faultLogDrain => Sys2Proof.Machine.execFaultLogDrain s
  | .bwfLogRead init wd => Sys2Proof.Machine.execBwfLogRead init wd s
  | .watchdogKick init v => Sys2Proof.Machine.execWatchdogKick init v s
  | .mgmtWatchdogKick init v => Sys2Proof.Machine.execMgmtWatchdogKick init v s
  | .watchdogFirstExpiry cp => Sys2Proof.Machine.execWatchdogFirstExpiry cp s
  | .watchdogSecondExpiry cp => Sys2Proof.Machine.execWatchdogSecondExpiry cp s
  | .mgmtWatchdogExpiry => Sys2Proof.Machine.execMgmtWatchdogExpiry s
  | .fabricTransactionTimeout init addr write => Sys2Proof.Machine.execFabricTransactionTimeout init addr write s
  | .fullResetRelease straps pins => Sys2Proof.Machine.execFullResetRelease straps pins s
  | .freqRefCalPeriod q => Sys2Proof.Machine.execFreqRefCalPeriod q s
  | .localPortLinkChange isUp => Sys2Proof.Machine.execLocalPortLinkChange isUp s
  | .resetRequestNoTide => Sys2Proof.Machine.execResetRequestNoTide s

end Sys2Proof.Machine
end

