-- ==== Sys2Proof/Safety.lean ====
section
/-! DEFINITION. What a safe state and a safe step are, and the terms the statements use. -/
namespace Sys2Proof.Machine
open Sys2Proof

/-- A step answers a next state: the block neither faults nor refuses. -/
def Completes (s : State) (i : Instr) : Prop := ∃ t, exec i s = .next t

/-- The memory keeps its canonical form (R406; log 6). -/
abbrev State.memOk (s : State) : Prop := Memory.wf s.mem = true

/-! ## Dictionary requests -/

/-- The server takes the caller's request now, at privilege `lv` or above, as a new request for this node (R382, R383, R389,
R391 to R393): firmware runs, the caller's path is up, no request waits before it, no response to the transaction is kept, and the
request names no other node. -/
abbrev Asks (s : State) (c : OdCaller) (lv : Nat) : Prop :=
  s.up = true ∧ s.pathUp c.path = true ∧ c.waits = false ∧ s.od.queue = [] ∧ c.node = 0 ∧ (s.level c).any (fun l => decide (lv ≤ l)) = true ∧
  s.od.kept.find? (fun x => sameSource x.path c.path x.source c.source && x.transaction == c.transaction) = none

/-- The same for a write of the object `key`, no download of which is open (R393). -/
abbrev Serves (s : State) (c : OdCaller) (lv key : Nat) : Prop :=
  Asks s c lv ∧ s.od.transfers.any (fun t => t.key == key) = false

/-- The state once the request has been counted (R395). -/
def State.asked (s : State) : State := s.modOd (fun o => { o with requests := (o.requests + 1) % 2 ^ 64 })

/-- The caller's request has been answered with a status (R388, R394): the newest kept response says so. -/
abbrev Answered (t : State) (c : OdCaller) (st : Nat) : Prop :=
  (t.od.kept.head?.map fun k => (k.path, k.source, k.transaction, k.response[1]?)) =
    some (c.path, c.source, c.transaction, some (BitVec.ofNat 8 st))

/-- The answer's data (R388): what follows the 16 bytes of its header. -/
abbrev AnswerData (t : State) (v : List Byte) : Prop := (t.od.kept.head?.map fun k => k.response.drop 16) = some v

/-- The path, source and bytes of a response; none for any other output. -/
def Output.answer? : Output → Option (Path × Nat × List Byte)
  | .response p src b => some (p, src, b)
  | _ => none

/-- The port and frame of a frame; none for any other output. -/
def Output.frame? : Output → Option (LinkPort × Frame)
  | .frame p _ f _ => some (p, f)
  | _ => none

/-! ## Register accesses -/

/-- The initiator reads a window: its path exists and the window's domain is on (R408 to R410). -/
abbrev Reads (s : State) (init w : Nat) : Prop := s.canReach init = true ∧ (winDomain w).any s.domain = true

/-- The initiator writes a window: it reaches it, and a host path only the windows of R410. -/
abbrev Writes (s : State) (init w : Nat) : Prop :=
  Reads s init w ∧ (hostInit init = false ∨ hostWritable w = true)

/-! ## Conditions of single rules -/

/-- Step 3 of R75 is passed: an active plan, a passed foreground calibration (R100), no pilot exchange (R357). -/
def State.rampReady (s : State) (q : Port) : Bool := (s.port q).hasPlan && (s.port q).rx.fgPass && s.pn q 0x7010 1 != 1

/-! ## Invariants -/

/-- No SEQ bit of a status register is older than 127 settings (R413). -/
def SeqReg.agesOk (r : SeqReg) : Prop := ∀ e ∈ r.set, (r.num + 256 - e.2 % 256) % 256 ≤ 127

/-- What every step keeps: the memory's canonical form, the ages of the SEQ bits (R413), and SecurityVersion in OTP and in the
running image at most 64 (R478, R480). -/
def State.inv (s : State) : Prop :=
  s.memOk ∧ (∀ e ∈ s.stats, e.2.agesOk) ∧ s.otp.secVersion ≤ 64 ∧ hdrField s.ident.running 16 4 ≤ 64

/-! ## Ports -/

/-- The port of a command that acts on one port alone. -/
def portOf (i : Instr) : Option Port :=
  match i with
  | .launch q _ | .biasTrackEntry q | .biasReacquire q | .biasAcquireFail q | .pumpRampDone q | .enterLive q
  | .latencyCalibrationDone q _ _ | .launchMissing q _ | .rxForegroundCal q _ | .rxForegroundCalDone q _ _ _
  | .rxBackgroundCalRun q _ _ | .rxCalStale q _ | .swashLaunchRecords q _ | .decimatedRecord q _ _ | .bankSwap q _
  | .lauterRecord q _ | .kilnShot q .. | .kilnAccumulationStart q | .kilnAccumulationComplete q | .kilnFitDispatch q
  | .kilnFitComplete q _ | .kilnFitOverrun q _ _ | .kilnProfileAssembly q | .shapeCalDone q .. | .freqRefCalRun q _
  | .freqRefCalPeriod q | .detectionDispatch q | .detectionCoreEnd q _ | .trackRecord q | .brewStreamInput q
  | .ringEntryWrite q _ | .gapMarkerWrite q _ | .synthUnlock q | .synthRelock q | .lmonEvent q | .dacTrimRun q _
  | .breakPositionReport q | .partnerUnreachable q | .handoffTimeout q _ | .triggerQueueServe q => some q
  | _ => none

/-! ## Frames -/

/-- The parts of the state. -/
inductive Part where
  | pending | free | out | power | aon | bwf | stats | regs | cfgOfs | od | host | mbox | tide | pa | pb |
  time | chain | flash | otp | ident | brew | hk | dram | cask | caps | mem
  deriving DecidableEq, Repr

/-- Every part. -/
def Part.all : List Part :=
  [.pending, .free, .out, .power, .aon, .bwf, .stats, .regs, .cfgOfs, .od, .host, .mbox, .tide, .pa, .pb,
   .time, .chain, .flash, .otp, .ident, .brew, .hk, .dram, .cask, .caps, .mem]

/-- A part is the same in two states. -/
def Part.same (p : Part) (s t : State) : Prop :=
  match p with
  | .pending => t.pending = s.pending
  | .free => t.free = s.free
  | .out => t.out = s.out
  | .power => t.power = s.power
  | .aon => t.aon = s.aon
  | .bwf => t.bwf = s.bwf
  | .stats => t.stats = s.stats
  | .regs => t.regs = s.regs
  | .cfgOfs => t.cfgOfs = s.cfgOfs
  | .od => t.od = s.od
  | .host => t.host = s.host
  | .mbox => t.mbox = s.mbox
  | .tide => t.tide = s.tide
  | .pa => t.pa = s.pa
  | .pb => t.pb = s.pb
  | .time => t.time = s.time
  | .chain => t.chain = s.chain
  | .flash => t.flash = s.flash
  | .otp => t.otp = s.otp
  | .ident => t.ident = s.ident
  | .brew => t.brew = s.brew
  | .hk => t.hk = s.hk
  | .dram => t.dram = s.dram
  | .cask => t.cask = s.cask
  | .caps => t.caps = s.caps
  | .mem => t.mem = s.mem

/-- The parts that a command of the Tide, the launch, the optics, the receive and signal path, the Kiln, detection or
tracking may change; every part for a command of another family. -/
def signalParts (i : Instr) : List Part :=
  match i with
  | .tideEdge .. | .tideSlip .. => Part.all.filter (fun p => !([.pending, .otp]).contains p)
  | .firstTideStart .. => [.out, .bwf, .stats, .regs, .od, .tide, .pa, .pb, .time, .chain, .brew, .hk, .mem]
  | .launch .. => [.out, .pa, .pb, .time]
  | .planCheck .. | .bankLoad .. | .shapeCal .. => [.free, .out, .stats, .od, .pa, .pb, .chain, .ident]
  | .stageDeadlineOverrun .. => [.out, .bwf, .stats, .od, .host, .tide, .pa, .pb, .chain, .brew]
  | .laserEnable .. | .laserDisable .. | .bankSelect .. => [.free, .out, .stats, .regs, .od, .pa, .pb, .chain,
    .ident]
  | .laserSettleExpiry .. | .biasTrackEntry .. | .biasReacquire .. | .enterLive .. | .laserFollowStep .. |
    .laserFollowPilotFound .. | .laserFollowSweepFail .. | .rxCalStale .. | .kilnAccumulationStart .. |
    .freqRefCalRun .. | .synthRelock .. | .dacTrimRun .. | .freqRefCalPeriod .. => [.pa, .pb]
  | .portStopComplete .. | .rxForegroundCal .. => [.regs, .pa, .pb]
  | .biasAcquireFail .. | .launchMissing .. | .rxForegroundCalDone .. => [.out, .bwf, .stats, .pa, .pb]
  | .pumpRampDone .. | .rxBackgroundCalRun .. | .bankSwap .. | .synthUnlock .. => [.out, .stats, .pa, .pb]
  | .latencyCalibrationDone .. => [.out, .bwf, .stats, .pa, .pb, .flash]
  | .interlockOpen .. => [.out, .power, .stats, .regs, .pa, .pb]
  | .interlockClose .. => [.power]
  | .txMute .. | .rxCalHold .. | .swRestart .. | .swAlignHold .. | .kilnAccRestart .. => [.out, .stats, .regs,
    .cfgOfs, .host, .pa, .pb]
  | .swashLaunchRecords .. => [.free, .out, .bwf, .stats, .host, .pa, .pb, .time]
  | .decimatedRecord .. => [.out, .bwf, .stats, .host, .pa, .pb, .chain]
  | .lauterRecord .. => [.out, .bwf, .stats, .host, .pa, .pb, .mem]
  | .kilnShot .. => [.out, .stats, .pa, .pb, .time]
  | .kilnAccumulationComplete .. => [.out, .stats, .pa, .pb, .brew]
  | .kilnFitDispatch .. | .trackingDispatch .. => [.pa, .pb, .brew]
  | .kilnFitComplete .. | .kilnFitOverrun .. => [.out, .bwf, .stats, .pa, .pb, .brew]
  | .kilnProfileAssembly .. => [.out, .stats, .od, .host, .pa, .pb, .chain]
  | .shapeCalDone .. => [.pa, .pb, .flash]
  | .detectionDispatch .. => [.pa, .pb, .brew, .mem]
  | .detectionCoreEnd .. => [.host, .pa, .pb, .brew, .mem]
  | .trackRecord .. => [.out, .stats, .host, .pa, .pb, .chain, .brew]
  | .coreAbortTimeout .. => [.brew]
  | .coreException .. | .coreStopTimeout .. => [.out, .bwf, .stats, .host, .pa, .pb, .brew, .mem]
  | .brewStreamInput .. => [.out, .stats, .pa, .pb, .brew, .mem]
  | _ => Part.all

/-- The parts that a command of the Brewhouse, the Cellar, the DRAM or the Cask may change; every part for another. -/
def storageParts (i : Instr) : List Part :=
  match i with
  | .programImage .. | .programRun .. | .programStop .. => [.free, .out, .stats, .od, .chain, .ident, .brew]
  | .vectorMultiplyAccumulate .. | .vectorArithmeticLogic .. | .accumulatorMove .. | .search .. |
    .searchReset .. | .searchRead .. | .scalarOperation .. | .memoryMove .. | .addressGeneratorSetup .. |
    .branchCallReturn .. | .hardwareLoop .. | .waitForEvent .. | .halt .. | .queueCoreDma .. |
    .waitDmaCompletion .. | .publishOutputRecord .. => [.free, .out, .bwf, .stats, .host, .pa, .pb, .brew, .mem]
  | .coreDmaComplete .. => [.out, .bwf, .stats, .host, .pa, .pb, .brew, .mem]
  | .ringEntryWrite .. | .gapMarkerWrite .. => [.free, .out, .bwf, .stats, .pa, .pb, .dram, .caps, .mem]
  | .triggerDetection .. => [.out, .stats, .pa, .pb, .caps]
  | .triggerEvtInput .. => [.out, .stats, .pa, .pb, .time, .caps]
  | .triggerTime .. | .captureArm .. | .captureDisarm .. | .captureRelease .. => [.free, .out, .stats, .od, .pa,
    .pb, .chain, .ident, .caps]
  | .triggerTrunkMessage .. => [.out, .stats, .pa, .pb, .chain, .caps]
  | .triggerQueueServe .. => [.free, .out, .bwf, .stats, .pa, .pb, .chain, .dram, .caps, .mem]
  | .captureFreeze .. => [.out, .stats, .od, .caps]
  | .exportRaw .. | .exportCaskPcie .. | .exportCaskTrunk .. | .exportAbort .. => [.free, .out, .bwf, .stats,
    .regs, .od, .host, .pa, .pb, .chain, .ident, .dram, .cask, .caps, .mem]
  | .exportJobEnd .. => [.free, .out, .bwf, .stats, .regs, .od, .host, .pa, .pb, .chain, .dram, .cask, .caps,
    .mem]
  | .dramTraining .. => [.out, .bwf, .stats, .regs, .flash, .dram]
  | .zqShortCal .. => [.out]
  | .refreshDue .. | .postponedRefreshIssue .. | .powerDownEntry .. => [.out, .dram]
  | .dramTemperaturePoll .. => [.free, .out, .stats, .dram]
  | .dramRead .. => [.free, .out, .bwf, .stats, .host, .dram]
  | .dramWrite .. | .dramPartialWrite .. => [.free, .out, .bwf, .stats, .host, .dram, .mem]
  | .scrubLine .. => [.free, .out, .bwf, .stats, .dram, .mem]
  | .ceWindowExpiry .. => [.dram]
  | .rankRetire .. => [.free, .out, .bwf, .stats, .od, .chain, .ident, .dram]
  | .migrationCopyEnd .. => [.free, .out, .bwf, .stats, .flash, .dram, .mem]
  | .caskSubmit .. => [.out, .stats, .regs, .cfgOfs, .host, .cask]
  | .caskJobStart .. => [.free, .out, .bwf, .stats, .host, .pa, .pb, .dram, .cask, .mem]
  | .caskJobEnd .. => [.free, .out, .bwf, .stats, .regs, .host, .pa, .pb, .chain, .dram, .cask, .caps, .mem]
  | .caskAbort .. | .caskDisableFlush .. => [.free, .out, .bwf, .stats, .regs, .cfgOfs, .host, .pa, .pb, .chain,
    .dram, .cask, .caps, .mem]
  | _ => Part.all

/-- The parts that a command of the oscillators, the time, the chain or the paired spans may change; every part for another. -/
def timeParts (i : Instr) : List Part :=
  match i with
  | .ocxoWarm .. => [.power, .time]
  | .ocxoAlarm .. => [.out, .power, .bwf, .stats]
  | .pllLock .. => [.power]
  | .pllLossOfLock .. => Part.all.filter (fun p => !([.pending, .flash, .otp]).contains p)
  | .servoSample .. => [.free, .time]
  | .timeLock .. | .timeHoldover .. | .holdoverLimit .. | .gnssWaitExpiry .. | .todSentence .. | .ppsEdge .. |
    .tiuEvent .. | .tiuDeadTimeDrop .. | .tiuStuck .. | .interpCalRun .. => [.out, .stats, .time]
  | .rtcWriteBack .. => [.aon]
  | .ptpSyncSend .. | .pdelayReqSend .. | .ptpEventFrame .. => [.out, .time]
  | .announceSend .. => [.out]
  | .lmonEvent .. => [.out, .stats, .pa, .pb, .time]
  | .tiuShortPulse .. | .interpCalStale .. => [.time]
  | .measArm .. => [.free, .out, .stats, .regs, .cfgOfs, .od, .host, .time, .chain, .ident]
  | .measModeOff .. => [.free, .out, .stats, .od, .time, .chain, .ident]
  | .tiuTsAuxRead .. => [.free, .out, .stats, .host, .time]
  | .ibendFrameReceive .. => Part.all.filter (fun p => !([.pending]).contains p)
  | .keepaliveSend .. => [.out, .chain]
  | .linkLoss .. | .heartbeatReceive .. | .joinFrame .. => [.out, .bwf, .stats, .chain]
  | .linkUp .. | .ringRestore .. | .oldAssociationExpiry .. | .localPortLinkChange .. => [.chain]
  | .topologyFrame .. | .managerTimeout .. | .managerListenEnd .. | .acknowledgement .. | .cancel .. |
    .epochAnswerDeadline .. | .faultReport .. => [.out, .stats, .chain]
  | .epochRequest .. | .forceTakeover .. => [.free, .out, .stats, .od, .pa, .pb, .chain, .ident]
  | .prepare .. | .resynchronise .. | .pairRestoreHold .. => [.out, .stats, .od, .pa, .pb, .chain]
  | .epochApply .. | .takeoverApply .. => [.out, .stats, .regs, .od, .tide, .pa, .pb, .chain, .brew, .caps]
  | .faultClear .. => [.free, .out, .stats, .od, .chain, .ident]
  | .pairStatus .. | .handoffReceive .. | .handoffAck .. => [.out, .stats, .pa, .pb, .chain]
  | .partnerUnreachable .. | .breakPositionReport .. | .handoffTimeout .. => [.pa, .pb]
  | .pilotFrameReceive .. | .pilotLoss .. => [.out, .bwf, .stats, .pa, .pb, .time]
  | .pairYield .. => [.out, .stats, .regs, .od, .pa, .pb, .caps]
  | .keyExchangeFrame .. => [.free, .out, .bwf, .stats, .chain, .ident]
  | .keyExchangeTimeout .. => [.out, .bwf, .stats, .chain, .ident]
  | .keyExchangeRetry .. | .rekey .. | .rekeyRetry .. => [.free, .out, .chain]
  | .chnDisable .. => [.out, .stats, .regs, .cfgOfs, .host, .mbox]
  | _ => Part.all

/-- The parts that a command of the dictionary, the host interface, housekeeping, identity, update, power or faults may
change; every part for another. -/
def hostParts (i : Instr) : List Part :=
  match i with
  | .odRead .. | .odInfo .. | .odUploadStart .. | .odUploadSegment .. | .odTransferAbort .. | .odOpenSession ..
    | .odCloseSession .. | .odUnsupportedService .. | .restoreDefaults .. | .attestChallenge .. |
    .updateToken .. => [.free, .out, .stats, .od, .chain, .ident]
  | .odWrite .. | .odBroadcastWrite .. | .odDownloadSegment .. | .dictionaryCarrierPost .. | .mbPost .. |
    .boot .. => Part.all.filter (fun p => !([.pending]).contains p)
  | .odDownloadStart .. | .deviceCertificate .. | .ownerKey .. | .ownerUnlock .. | .ownerRelease .. |
    .ownerTransfer .. | .ownerLock .. | .updateDisarm .. => [.free, .out, .stats, .od, .chain, .flash, .ident]
  | .odForwardTimeout .. => [.out, .stats, .od, .mbox, .chain, .mem]
  | .sessionExpiry .. | .uploadSnapshotTimeout .. => [.od]
  | .transferIdleTimeout .. => [.od, .ident]
  | .storeCommit .. | .storeRetry .. => [.out, .bwf, .stats, .od, .flash, .ident]
  | .storeNow .. => [.free, .out, .bwf, .stats, .od, .chain, .flash, .ident]
  | .registerWrite .. | .seqStatusWrite .. | .spiWriteFrame .. | .spiFrameAbort .. | .standbyRequest .. =>
    Part.all.filter (fun p => !([.pending, .otp]).contains p)
  | .tideNumLoRead .. => [.free, .out, .stats, .host, .tide]
  | .indDataRead .. => [.free, .out, .stats, .regs, .host]
  | .indDataWrite .. => [.out, .stats, .regs, .cfgOfs, .host, .pa, .pb, .brew, .mem]
  | .mbRxHdrRead .. | .mbDbPendRead .. | .semRead .. => [.free, .out, .stats, .host, .mbox]
  | .mbDbClr .. | .mbDbRing .. | .semWrite .. => [.out, .stats, .host, .mbox]
  | .endpointReset .. => [.out, .stats, .mbox]
  | .pcieReset .. => [.out, .stats, .regs, .od, .host, .mbox, .ident]
  | .exportRingEntry .. | .exportRingRpWrite .. => [.out, .stats, .host]
  | .exportVector .. => [.out, .host]
  | .spiReadFrame .. => [.free, .out, .bwf, .stats, .regs, .host, .mbox, .tide, .time, .hk]
  | .spiResetFrame .. => [.out, .stats, .od, .mbox, .ident]
  | .hkSlotConversion .. => [.out, .stats, .regs, .hk]
  | .hkScanPassStart .. | .hkSelfCalStale .. | .refrdy .. | .bridgeConversionEnd .. | .bridgeBreakDetect .. =>
    [.hk]
  | .auxDataRead .. => [.free, .out, .stats, .host, .hk]
  | .injectInput .. | .hkSelfCal .. => [.free, .out, .stats, .regs, .cfgOfs, .od, .host, .chain, .ident, .hk]
  | .hkSelfCalDone .. | .refinLost .. => [.out, .bwf, .stats, .hk]
  | .sysCalZero .. | .sysCalFull .. => [.free, .out, .stats, .od, .chain, .ident, .hk]
  | .sysCalDone .. => [.out, .stats, .od, .hk]
  | .bridgeResult .. => [.free, .out, .stats, .pa, .pb, .hk]
  | .updateApplyRestart .. | .updateApplyNextStart .. | .updateForceFallback .. => [.free, .out, .power, .stats,
    .od, .chain, .flash, .ident]
  | .imageInstall .. | .fallback .. => [.flash, .ident]
  | .confirm .. => [.free, .out, .stats, .od, .chain, .flash, .otp, .ident]
  | .confirmTimeout .. => [.power]
  | .porstAssert .. | .sysrst .. | .brownOut .. | .bwfResetReq .. | .mainLossDelay .. | .thermalPoll .. |
    .tamperEdge .. | .vbatLoss .. | .fatalFault .. | .watchdogSecondExpiry .. | .mgmtWatchdogExpiry .. |
    .resetRequestNoTide .. => Part.all.filter (fun p => !([.pending, .flash, .otp]).contains p)
  | .porstRelease .. | .fullResetRelease .. => [.out, .power, .aon, .stats]
  | .domainSwitchOn .. => [.power, .regs, .od, .brew]
  | .safeHoldClear .. => [.free, .out, .aon, .stats, .od, .chain, .ident]
  | .resetRequest .. => [.free, .out, .power, .stats, .od, .chain, .ident]
  | .wakeN .. | .rtcAlarmWake .. | .vmainOkRise .. => [.power, .aon]
  | .vmainOkFall .. | .watchdogFirstExpiry .. => [.out, .power, .bwf, .stats]
  | .containedFault .. | .correctedFault .. => [.out, .bwf, .stats]
  | .faultLogDrain .. => [.out, .bwf, .stats, .chain]
  | .bwfLogRead .. => [.free, .out, .bwf, .stats, .host]
  | .watchdogKick .. => [.out, .power, .stats, .regs, .cfgOfs, .host]
  | .mgmtWatchdogKick .. => [.out, .stats, .regs, .cfgOfs, .host]
  | .fabricTransactionTimeout .. => [.out, .bwf, .stats, .host]
  | _ => Part.all

/-- The command may bring a request to the dictionary server, which serves those that wait before it (R392). -/
def asksServer (i : Instr) : Bool :=
  match i with
  | .planCheck .. | .laserEnable .. | .laserDisable .. | .bankLoad .. | .bankSelect .. | .shapeCal .. |
    .programImage .. | .programRun .. | .programStop .. | .triggerTime .. | .captureArm .. | .captureDisarm .. |
    .captureRelease .. | .exportRaw .. | .exportCaskPcie .. | .exportCaskTrunk .. | .exportAbort .. |
    .rankRetire .. | .measArm .. | .measModeOff .. | .epochRequest .. | .faultClear .. | .forceTakeover .. |
    .odRead .. | .odWrite .. | .odBroadcastWrite .. | .odInfo .. | .odUploadStart .. | .odUploadSegment .. |
    .odDownloadStart .. | .odDownloadSegment .. | .odTransferAbort .. | .odOpenSession .. | .odCloseSession .. |
    .odUnsupportedService .. | .storeNow .. | .restoreDefaults .. | .injectInput .. | .hkSelfCal .. |
    .sysCalZero .. | .sysCalFull .. | .attestChallenge .. | .deviceCertificate .. | .ownerKey .. |
    .ownerUnlock .. | .ownerRelease .. | .ownerTransfer .. | .ownerLock .. | .updateToken .. | .updateDisarm ..
    | .updateApplyRestart .. | .updateApplyNextStart .. | .updateForceFallback .. | .confirm .. |
    .safeHoldClear .. | .resetRequest .. | .standbyRequest .. => true
  | _ => false

end Sys2Proof.Machine
end

