-- ==== Sys2Proof/Certificates/Slice0/Obligations.lean ====
section
/-! DEFINITION. Statements for the provers. -/

open Sys2Proof Sys2Proof.Machine

/-- A step runs the command at the front of the queue on the state with the queue's rest, and idles on an empty queue;
the queue and the idling are the model's own (log 1). -/
def Obligations.StepRunsFront : Prop :=
  (∀ (s : State) (i : Instr) (rest : List Instr), s.pending = i :: rest → step s = exec i { s with pending := rest }) ∧
  (∀ s : State, s.pending = [] → step s = .next s)

/-- A Tide edge begins the next Tide number, the first Tide's start the first number whose instant local time has not
passed, and a Tide slip the first such number of the corrected local time; in each case the edge is the number times
the period plus the residual, which is kept. A slip is counted and shown. A reset that was asked for comes at the edge
instead. Each clause that runs a command concludes that exec answers a next state, under conditions on the state and
the operands alone. -/
def Obligations.TideCommands : Prop :=
  (∀ (res : Nat) (ma mb : PortMeas) (s : State), s.up = true → s.tide.running = true → s.power.resetAsked = false → ∃
  t, exec (.tideEdge res ma mb) s = .next t ∧ t.tide.num = (s.tide.num + 1) % 2 ^ 48 ∧ t.tide.edge = t.tide.num *
  s.periodNs + res % 8 ∧ t.tide.residual = res % 8 ∧ t.tide.running = true ∧ (t.stat stTide).has 0 = true) ∧
  (∀ (res : Nat) (ma mb : PortMeas) (s : State), s.up = true → s.tide.running = true → s.power.resetAsked = true → ∃
  t, exec (.tideEdge res ma mb) s = .next t ∧ t.aon.cause = 5 ∧ t.power.phase = Phase.held ∧ t.tide = ({} : Tide) ∧
  t.od = ({} : Od)) ∧
  (∀ (res : Nat) (s : State), s.up = true → s.tide.running = false → s.role = 0 ∨ s.time.state = 2 → ∃ t, exec
  (.firstTideStart res) s = .next t ∧ t.tide.num = ceilDiv s.time.now (max 1 s.periodNs) ∧ t.tide.edge = t.tide.num *
  s.periodNs + res % 8 ∧ t.tide.residual = res % 8 ∧ t.tide.running = true ∧ (t.stat stTide).has 0 = true) ∧
  (∀ (res : Nat) (ma mb : PortMeas) (s : State), s.up = true → s.tide.running = true → s.beyondSlip s.time.theta =
  true → s.power.resetAsked = false → ∃ t, exec (.tideSlip res ma mb) s = .next t ∧ t.tide.num = ceilDiv ((max
  s.time.now ((s.tide.num + 1) * s.periodNs) : Nat) - s.time.theta).toNat (max 1 s.periodNs) ∧ t.tide.edge =
  t.tide.num * s.periodNs + res % 8 ∧ t.tide.residual = res % 8 ∧ t.tide.running = true ∧ (t.stat stTide).has 0 = true
  ∧ t.tide.slipCount = satAdd 0xFFFFFFFF s.tide.slipCount 1 ∧ (t.stat stTide).has 1 = true ∧ t.time.theta = 0) ∧
  (∀ (res : Nat) (ma mb : PortMeas) (s : State), s.up = true → s.tide.running = true → s.beyondSlip s.time.theta =
  true → s.power.resetAsked = true → ∃ t, exec (.tideSlip res ma mb) s = .next t ∧ t.aon.cause = 5 ∧ t.power.phase =
  Phase.held ∧ t.tide = ({} : Tide) ∧ t.od = ({} : Od))

/-- A launch leaves at the range sample of R29 in the slot of R31 and waits for its record; a written PlanCheck
reports a code for the pending plan. A stage that still works at its deadline is counted and aborted. Each clause that
runs a command concludes that exec answers a next state, under conditions on the state and the operands alone. -/
def Obligations.LaunchPlan : Prop :=
  (∀ (q : Port) (j : Nat) (s : State), s.up = true → s.tide.running = true → (s.port q).hasPlan = true → s.pn q 0x7010
  1 ≠ 1 → j < (s.plan q).m → s.suppresses q j = false → ∃ t, exec (.launch q j) s = .next t ∧ (t.port q).lastJ = j ∧
  (t.port q).lastSlot = (slotsOf (s.plan q).mask).getD ((s.tide.num * (s.plan q).m + j) % (slotsOf (s.plan
  q).mask).length) 0 ∧ ∃ (l : Launch) (d : Drive), (t.port q).flight = (s.port q).flight ++ [l] ∧ l.time = s.tide.edge
  + 8 * (j * (125000 * (s.plan q).p) / (s.plan q).m + (s.plan q).phi) ∧ l.j = j ∧ l.tide = s.tide.num ∧ t.out =
  Output.launch q l.time d :: s.out) ∧
  (∀ (c : OdCaller) (q : Port) (s : State), Serves s c 1 (objKey (portIndex q 0x2010) 0x10) → ∃ t, exec (.planCheck c
  q) s = .next t ∧ Answered t c 0 ∧ (t.port q).planResult ≠ 255 ∧ (t.port q).chkInterval = (2 * (s.pnat 0x2000 1) *
  1000000000 + s.pnat (portIndex q 0x2010) 1) / (2 * max 1 (s.pnat (portIndex q 0x2010) 1))) ∧
  (∀ (stage : Nat) (s : State), s.up = true → s.tide.running = true → 1 ≤ stage → stage ≤ 5 → s.stageBusy stage = true
  → s.tide.overrunNow.getD (stage - 1) false = false → s.tide.overrun.length = 5 → ∃ t, exec (.stageDeadlineOverrun
  stage) s = .next t ∧ t.tide.overrun.getD (stage - 1) 0 = satAdd 0xFFFFFFFF (s.tide.overrun.getD (stage - 1) 0) 1 ∧
  (t.stat stTide).has 2 = true ∧ (stage = 1 → ∀ q : Port, (t.port q).det.work.any (fun (w : DetWork) => decide
  (w.lrec.last.nth + 2 ≤ s.tide.edges)) = false) ∧ (stage = 2 → ∀ q : Port, (t.port q).trk.work.any (fun (w : Nat ×
  DetRec) => decide (w.2.nth + 2 ≤ s.tide.edges)) = false) ∧ (s.tide.overrunRun.getD (stage - 1) 0 = 15 →
  s.tide.overrunRaised.getD (stage - 1) false = false → t.bwf.contained = satAdd 0xFFFFFFFF s.bwf.contained 1))

/-- The settle time's end starts Acquire, or with manual biases sets their codes; Track, and manual biases at once,
lead to the pump ramp where the port has a plan, a passed foreground calibration and no pilot exchange, and otherwise
to Ready; the pump at its setpoint, which PumpLimit bounds, leads to calibration where no latency is accepted; two
agreeing blocks give the latency, kept in flash; the edge then brings Live, with a restart of the points and of the
decimation and Lauter histories. LaserEnable turns the laser on, a port in state 0 settles, and one interlocked with
its laser on goes on at the ramp or in Ready. Each clause that runs a command concludes that exec answers a next
state, under conditions on the state and the operands alone. -/
def Obligations.OpticsBringUp : Prop :=
  (∀ (q : Port) (s : State), s.up = true → (s.port q).opt.state = 1 → (s.port q).opt.stopping = false → s.pn q 0x2100
  0x30 = 1 → ∃ t, exec (.laserSettleExpiry q) s = .next t ∧ (t.port q).opt.state = 2 ∧ (t.port q).opt.bias = 1) ∧
  (∀ (q : Port) (s : State), s.up = true → (s.port q).opt.state = 1 → (s.port q).opt.stopping = false → s.pn q 0x2100
  0x30 = 0 → ∃ t, exec (.laserSettleExpiry q) s = .next t ∧ (t.port q).opt.state = (if s.rampReady q then 4 else 3) ∧
  (t.port q).opt.biasPH = s.pn q 0x2100 0x31 ∧ (t.port q).opt.biasI = s.pn q 0x2100 0x32 ∧ (t.port q).opt.biasQ = s.pn
  q 0x2100 0x33) ∧
  (∀ (q : Port) (s : State), s.up = true → (s.port q).opt.bias = 1 → 8 ≤ (s.port q).opt.inRun → (s.port q).opt.state =
  2 → (s.port q).opt.stopping = false → ∃ t, exec (.biasTrackEntry q) s = .next t ∧ (t.port q).opt.bias = 2 ∧ (t.port
  q).opt.state = (if s.rampReady q then 4 else 3)) ∧
  (∀ (q : Port) (s : State), s.up = true → (s.port q).opt.state = 4 → (s.port q).opt.stopping = false → ∃ t, exec
  (.pumpRampDone q) s = .next t ∧ (t.port q).opt.pump = min (s.pn q 0x2100 0x40) (s.pn q 0x2100 0x42) ∧ (t.port
  q).opt.state = (if (s.port q).opt.latOk then 4 else 5) ∧ (s.pn q 0x2100 0x42 < s.pn q 0x2100 0x40 → (t.stat (stTx
  q)).has 3 = true)) ∧
  (∀ (q : Port) (mean1 mean2 : Int) (s : State), s.up = true → (s.port q).opt.state = 5 → (s.port q).opt.stopping =
  false → (s.port q).opt.atSet = false → (s.port q).opt.calFail = false → (mean1 - mean2).natAbs ≤ 200 → ∃ t, exec
  (.latencyCalibrationDone q mean1 mean2) s = .next t ∧ (t.port q).opt.latOk = true ∧ (t.port q).opt.latPs = (mean1 +
  mean2) / 2 ∧ lookup (latencyKey q) t.flash.cal = some [(mean1 + mean2) / 2]) ∧
  (∀ (q : Port) (s : State), s.up = true → s.tide.running = true → (s.port q).opt.state = 4 ∨ (s.port q).opt.state = 5
  → (s.port q).opt.atSet = true → (s.port q).opt.stopping = false → (s.port q).hasPlan = true → (s.port q).rx.fgPass =
  true → ∃ t, exec (.enterLive q) s = .next t ∧ (t.port q).opt.state = 6 ∧ ((s.port q).opt.liveKind ≠ 1 → (t.port
  q).sw.pend = Restart.full) ∧ ((s.port q).opt.liveKind = 1 → (t.port q).sw.pend ≠ Restart.none) ∧ (t.port q).clr.dec0
  = true ∧ (t.port q).clr.dec1 = true ∧ (t.port q).clr.laut = true) ∧
  (∀ (c : OdCaller) (l : Port) (s : State), Serves s c 1 (objKey (portIndex l 0x2100) 1) → s.laserShare = false ∨ l =
  Port.a → s.laserRefused l = false → ∃ t, exec (.laserEnable c l) s = .next t ∧ Answered t c 0 ∧ (t.port l).laser.en
  = true ∧ ((s.served l).all (fun q => !(s.port q).opt.sweeping && !(s.port q).opt.fine) = true → (t.port l).laser =
  (⟨true, min 0xFFFF (s.pn l 0x2100 2), s.pn l 0x2100 3⟩ : LaserSet)) ∧ (∀ (q : Port), q ∈ s.served l → s.txOn q =
  true → (s.port q).opt.state = 0 → (s.port q).opt.stopping = false → (t.port q).opt.state = 1) ∧ (∀ (q : Port), q ∈
  s.served l → s.txOn q = true → (s.port q).opt.state = 7 → (s.port q).opt.stopping = false → (s.port q).opt.laserKept
  = true → (t.port q).opt.state = (if s.rampReady q then 4 else 3)))

/-- LaserDisable stops the ports its laser serves, and turns the laser off where none is on; a stop's end leaves the
port in state 0, or settling where LaserEnable was written meanwhile. A loop that loses Track takes the port to state
2 with its laser unchanged; an Acquire and a latency calibration that fail raise their contained faults. The
interlock's opening takes every powered port to state 7 with its pump at 0, counted and shown, its launches in flight
dark, and turns a laser with InterlockLaserOff off; its closing changes no port. A missing launch is counted and
shown, sixteen in a row raise the contained fault. A following port steps its laser through the sweep, ends it in fine
tracking, with a restart to come, where the far pilot is found, and takes the partner as absent after three sweeps.
Each clause that runs a command concludes that exec answers a next state, under conditions on the state and the
operands alone. -/
def Obligations.OpticsDown : Prop :=
  (∀ (q : Port) (s : State), s.up = true → (s.port q).opt.stopping = true → (s.port q).opt.restart = false → ∃ t, exec
  (.portStopComplete q) s = .next t ∧ (t.port q).opt.state = 0 ∧ (t.port q).opt.stopping = false ∧ (t.port q).opt.pump
  = 0 ∧ bitOf (t.reg (winTx q) 0) 0 = false) ∧
  (∀ (q : Port) (s : State), s.up = true → (s.port q).opt.stopping = true → (s.port q).opt.restart = true → ∃ t, exec
  (.portStopComplete q) s = .next t ∧ (t.port q).opt.state = 1 ∧ (t.port q).opt.stopping = false ∧ (t.port q).opt.pump
  = 0) ∧
  (∀ (q : Port) (s : State), s.up = true → (s.port q).opt.bias = 2 → 64 ≤ (s.port q).opt.overRun → 4 ≤ (s.port
  q).opt.state → (s.port q).opt.state ≤ 6 → (s.port q).opt.stopping = false → ∃ t, exec (.biasReacquire q) s = .next t
  ∧ (t.port q).opt.bias = 1 ∧ (t.port q).opt.state = 2 ∧ (t.port q).opt.pump = 0 ∧ (t.port q).laser = (s.port
  q).laser) ∧
  (∀ (q : Port) (s : State), s.up = true → (s.port q).opt.bias = 1 → ∃ t, exec (.biasAcquireFail q) s = .next t ∧
  (t.port q).opt.bias = 4 ∧ (t.port q).opt.state = (s.port q).opt.state ∧ t.bwf.contained = satAdd 0xFFFFFFFF
  s.bwf.contained 1) ∧
  (∀ (q : Port) (mean1 mean2 : Int) (s : State), s.up = true → (s.port q).opt.state = 5 → (s.port q).opt.stopping =
  false → (s.port q).opt.atSet = false → (s.port q).opt.calFail = false → 200 < (mean1 - mean2).natAbs → 4 ≤ (s.port
  q).opt.calTries → ∃ t, exec (.latencyCalibrationDone q mean1 mean2) s = .next t ∧ (t.port q).opt.calFail = true ∧
  (t.port q).opt.state = 5 ∧ t.bwf.contained = satAdd 0xFFFFFFFF s.bwf.contained 1) ∧
  (∀ (s : State), s.power.ilockOpen = false → ∃ t, exec (.interlockOpen) s = .next t ∧ t.power.ilockOpen = true ∧ (∀
  (q : Port), s.txOn q = true → (t.port q).opt.state = 7 ∧ (t.port q).opt.pump = 0 ∧ (t.port q).opt.ilockCount =
  satAdd 0xFFFFFFFF (s.port q).opt.ilockCount 1 ∧ (t.stat (stTx q)).has 0 = true ∧ (∀ l ∈ (t.port q).flight, l.dark =
  true)) ∧ (∀ (l : Port), s.pn l 0x2100 8 = 1 → (t.port l).laser = ({} : LaserSet))) ∧
  (∀ (s : State), ∃ t, exec (.interlockClose) s = .next t ∧ t.power.ilockOpen = false ∧ (∀ (q : Port), t.port q =
  s.port q)) ∧
  (∀ (q : Port) (ell : Nat) (s : State), s.live q = true → (s.port q).flight.any (fun l => l.ell == ell && !l.measured
  && !l.missing) = true → ∃ t, exec (.launchMissing q ell) s = .next t ∧ (t.stat (stTx q)).has 2 = true ∧ (t.port
  q).opt.missCount = satAdd 0xFFFFFFFF (s.port q).opt.missCount 1 ∧ (∀ l ∈ (t.port q).flight, l.ell = ell → l.missing
  = true) ∧ (15 ≤ (s.port q).opt.missRun → (s.port q).opt.missRaised = false → t.bwf.contained = satAdd 0xFFFFFFFF
  s.bwf.contained 1)) ∧
  (∀ (q : Port) (s : State), s.up = true → s.follows q = true → (s.laserSet (s.laserOf q)).en = true → (s.port
  q).opt.fine = false → (s.port q).pair.state ≠ 4 → (s.port q).opt.sweeping = false → ∃ t, exec (.laserFollowStep q) s
  = .next t ∧ (t.port q).opt.sweeping = true ∧ (t.port q).opt.sweepStep = 0 ∧ (t.laserSet (s.laserOf q)).last =
  s.sweepLevel (s.laserOf q) 0) ∧
  (∀ (q : Port) (s : State), s.up = true → s.follows q = true → (s.laserSet (s.laserOf q)).en = true → (s.port
  q).opt.fine = false → (s.port q).pair.state ≠ 4 → (s.port q).opt.sweeping = true → (s.port q).opt.sweepStep < 30 → ∃
  t, exec (.laserFollowStep q) s = .next t ∧ (t.port q).opt.sweepStep = (s.port q).opt.sweepStep + 1 ∧ (t.port
  q).opt.sweepPass = (s.port q).opt.sweepPass ∧ (t.laserSet (s.laserOf q)).last = s.sweepLevel (s.laserOf q) ((s.port
  q).opt.sweepStep + 1)) ∧
  (∀ (q : Port) (s : State), s.up = true → s.follows q = true → (s.port q).opt.sweeping = true → ∃ t, exec
  (.laserFollowPilotFound q) s = .next t ∧ (t.port q).opt.sweeping = false ∧ (t.port q).opt.fine = true ∧ (∀ r, r ∈
  s.served (s.laserOf q) → (t.port r).restartNext = true)) ∧
  (∀ (q : Port) (s : State), s.up = true → (s.port q).opt.sweeping = true → 3 ≤ (s.port q).opt.sweepPass → ∃ t, exec
  (.laserFollowSweepFail q) s = .next t ∧ (t.port q).opt.sweeping = false ∧ (t.port q).opt.absent = true) ∧
  (∀ (c : OdCaller) (l : Port) (s : State), Serves s c 1 (objKey (portIndex l 0x2100) 1) → s.laserShare = false ∨ l =
  Port.a → ∃ t, exec (.laserDisable c l) s = .next t ∧ Answered t c 0 ∧ (∀ (q : Port), q ∈ s.served l → (s.port
  q).opt.state ≠ 0 → (s.port q).opt.state ≠ 7 → (t.port q).opt.stopping = true ∧ (t.port q).opt.restart = false) ∧ (∀
  (q : Port), q ∈ s.served l → (s.port q).opt.state = 7 → (t.port q).opt.state = 7 ∧ (t.port q).opt.laserKept = false)
  ∧ ((s.served l).all (fun q => ((s.port q).opt.state == 0 || (s.port q).opt.state == 7) && !(s.port q).opt.stopping)
  = true → (t.port l).laser.en = false))

/-- Of the Rayleigh and of the Kiln converters alike: setting ENABLE starts a foreground calibration; a pass ends it
with its corrections in use, a first failure repeats it, a second ends it failed with a contained fault of the block,
number 2; each failure sets CAL_FAIL. A background run over 1,024 tone windows of every slot that agrees with the one
before is accepted with their mean as the target, without a step of the correction in use; one that does not agree
counts a failure, sets CAL_FAIL and changes neither. CAL_HOLD holds a run off. After 65,536 Tides without an accepted
run the converters are stale, of Rayleigh converters CAL_STALE reads 1, and an accepted run ends that. Each clause
that runs a command concludes that exec answers a next state, under conditions on the state and the operands alone. -/
def Obligations.ReceiveCalibration : Prop :=
  (∀ (q : Port) (s : State), s.rxOn q false = true → bitOf (s.reg (winRx q) 0) 0 = false → ∃ t, exec (.rxForegroundCal
  q false) s = .next t ∧ bitOf (t.reg (winRx q) 0) 0 = true ∧ (t.port q).rx.fgRunning = true ∧ (t.port q).rx.fgPass =
  false ∧ (t.port q).rx.fgTries = 0) ∧
  (∀ (q : Port) (res : List Int) (s : State), s.rxOn q false = true → (s.port q).rx.fgRunning = true → ∃ t, exec
  (.rxForegroundCalDone q false true res) s = .next t ∧ (t.port q).rx.fgRunning = false ∧ (t.port q).rx.fgPass = true
  ∧ (t.port q).rx.cal.use = res ∧ (t.port q).rx.cal.state = 1 ∧ (t.port q).rx.cal.tides = 0) ∧
  (∀ (q : Port) (res : List Int) (s : State), s.rxOn q false = true → (s.port q).rx.fgRunning = true → (s.port
  q).rx.fgTries = 0 → ∃ t, exec (.rxForegroundCalDone q false false res) s = .next t ∧ (t.port q).rx.fgRunning = true
  ∧ (t.port q).rx.fgPass = (s.port q).rx.fgPass ∧ (t.port q).rx.fgTries = 1 ∧ (t.stat (stRx q)).has 3 = true ∧
  t.bwf.contained = s.bwf.contained) ∧
  (∀ (q : Port) (res : List Int) (s : State), s.rxOn q false = true → (s.port q).rx.fgRunning = true → (s.port
  q).rx.fgTries = 1 → ∃ t, exec (.rxForegroundCalDone q false false res) s = .next t ∧ (t.port q).rx.fgRunning = false
  ∧ (t.port q).rx.fgPass = (s.port q).rx.fgPass ∧ (t.port q).rx.cal.state = 2 ∧ (t.stat (stRx q)).has 3 = true ∧
  t.bwf.contained = satAdd 0xFFFFFFFF s.bwf.contained 1 ∧ (bitOf (s.reg 0x48 0) 0 = true → s.bwf.log.length < 64 →
  t.bwf.log = s.bwf.log ++ [(faultKey s.node (winRx q) 1 0 2, s.time.now)])) ∧
  (∀ (q : Port) (s : State), s.rxOn q true = true → bitOf (s.reg (winKiln q) 0) 0 = false → ∃ t, exec
  (.rxForegroundCal q true) s = .next t ∧ bitOf (t.reg (winKiln q) 0) 0 = true ∧ (t.port q).rx.kfgRunning = true ∧
  (t.port q).rx.kfgPass = false ∧ (t.port q).rx.kfgTries = 0) ∧
  (∀ (q : Port) (res : List Int) (s : State), s.rxOn q true = true → (s.port q).rx.kfgRunning = true → ∃ t, exec
  (.rxForegroundCalDone q true true res) s = .next t ∧ (t.port q).rx.kfgRunning = false ∧ (t.port q).rx.kfgPass = true
  ∧ (t.port q).rx.kCal.use = res ∧ (t.port q).rx.kCal.state = 1 ∧ (t.port q).rx.kCal.tides = 0) ∧
  (∀ (q : Port) (res : List Int) (s : State), s.rxOn q true = true → (s.port q).rx.kfgRunning = true → (s.port
  q).rx.kfgTries = 0 → ∃ t, exec (.rxForegroundCalDone q true false res) s = .next t ∧ (t.port q).rx.kfgRunning = true
  ∧ (t.port q).rx.kfgPass = (s.port q).rx.kfgPass ∧ (t.port q).rx.kfgTries = 1 ∧ (t.stat (stKAdc q)).has 2 = true ∧
  t.bwf.contained = s.bwf.contained) ∧
  (∀ (q : Port) (res : List Int) (s : State), s.rxOn q true = true → (s.port q).rx.kfgRunning = true → (s.port
  q).rx.kfgTries = 1 → ∃ t, exec (.rxForegroundCalDone q true false res) s = .next t ∧ (t.port q).rx.kfgRunning =
  false ∧ (t.port q).rx.kfgPass = (s.port q).rx.kfgPass ∧ (t.port q).rx.kCal.state = 2 ∧ (t.stat (stKAdc q)).has 2 =
  true ∧ t.bwf.contained = satAdd 0xFFFFFFFF s.bwf.contained 1 ∧ (bitOf (s.reg 0x48 0) 0 = true → s.bwf.log.length <
  64 → t.bwf.log = s.bwf.log ++ [(faultKey s.node (winKiln q) 1 0 2, s.time.now)])) ∧
  (∀ (q : Port) (res r0 : List Int) (s : State), s.rxOn q false = true → (s.port q).rx.fgPass = true → (s.port
  q).rx.bgOn = true → (∀ k : Nat, k < 8 → 1024 ≤ (s.port q).rx.windows.getD k 0) → (s.port q).rx.cal.window = true →
  bitOf (s.reg (winRx q) 0) 1 = false → (s.port q).rx.cal.prev = some r0 → runsAgree rxTol r0 res = true → ∃ t, exec
  (.rxBackgroundCalRun q false res) s = .next t ∧ (t.port q).rx.cal.target = runsMean r0 res ∧ (t.port q).rx.cal.use =
  (s.port q).rx.cal.use ∧ (t.port q).rx.cal.state = 1 ∧ (t.port q).rx.cal.time = s.time.now ∧ (t.port q).rx.cal.tides
  = 0 ∧ (t.port q).rx.cal.prev = none) ∧
  (∀ (q : Port) (res r0 : List Int) (s : State), s.rxOn q false = true → (s.port q).rx.fgPass = true → (s.port
  q).rx.bgOn = true → (∀ k : Nat, k < 8 → 1024 ≤ (s.port q).rx.windows.getD k 0) → (s.port q).rx.cal.window = true →
  bitOf (s.reg (winRx q) 0) 1 = false → (s.port q).rx.cal.prev = some r0 → runsAgree rxTol r0 res = false → ∃ t, exec
  (.rxBackgroundCalRun q false res) s = .next t ∧ (t.port q).rx.cal.target = (s.port q).rx.cal.target ∧ (t.port
  q).rx.cal.use = (s.port q).rx.cal.use ∧ (t.port q).rx.cal.fails = satAdd 0xFFFFFFFF (s.port q).rx.cal.fails 1 ∧
  (t.stat (stRx q)).has 3 = true) ∧
  (∀ (q : Port) (res : List Int) (s : State), bitOf (s.reg (winRx q) 0) 1 = true → ∃ t, exec (.rxBackgroundCalRun q
  false res) s = .next t ∧ t = s) ∧
  (∀ (q : Port) (s : State), s.rxOn q false = true → 65536 ≤ (s.port q).rx.cal.tides → ∃ t, exec (.rxCalStale q false)
  s = .next t ∧ (t.port q).rx.cal.state = 3 ∧ bitOf (t.portBits (winRx q) 8) 8 = true) ∧
  (∀ (q : Port) (res r0 : List Int) (s : State), s.rxOn q true = true → (s.port q).rx.kfgPass = true → (s.port
  q).rx.bgOn = true → 1024 ≤ (s.port q).rx.kWindows → (s.port q).rx.kCal.window = true → bitOf (s.reg (winRx q) 0) 1 =
  false → (s.port q).rx.kCal.prev = some r0 → runsAgree rxTol r0 res = true → ∃ t, exec (.rxBackgroundCalRun q true
  res) s = .next t ∧ (t.port q).rx.kCal.target = runsMean r0 res ∧ (t.port q).rx.kCal.use = (s.port q).rx.kCal.use ∧
  (t.port q).rx.kCal.state = 1 ∧ (t.port q).rx.kCal.time = s.time.now ∧ (t.port q).rx.kCal.tides = 0 ∧ (t.port
  q).rx.kCal.prev = none) ∧
  (∀ (q : Port) (res r0 : List Int) (s : State), s.rxOn q true = true → (s.port q).rx.kfgPass = true → (s.port
  q).rx.bgOn = true → 1024 ≤ (s.port q).rx.kWindows → (s.port q).rx.kCal.window = true → bitOf (s.reg (winRx q) 0) 1 =
  false → (s.port q).rx.kCal.prev = some r0 → runsAgree rxTol r0 res = false → ∃ t, exec (.rxBackgroundCalRun q true
  res) s = .next t ∧ (t.port q).rx.kCal.target = (s.port q).rx.kCal.target ∧ (t.port q).rx.kCal.use = (s.port
  q).rx.kCal.use ∧ (t.port q).rx.kCal.fails = satAdd 0xFFFFFFFF (s.port q).rx.kCal.fails 1 ∧ (t.stat (stKAdc q)).has 2
  = true) ∧
  (∀ (q : Port) (res : List Int) (s : State), bitOf (s.reg (winRx q) 0) 1 = true → ∃ t, exec (.rxBackgroundCalRun q
  true res) s = .next t ∧ t = s) ∧
  (∀ (q : Port) (s : State), s.rxOn q true = true → 65536 ≤ (s.port q).rx.kCal.tides → ∃ t, exec (.rxCalStale q true)
  s = .next t ∧ (t.port q).rx.kCal.state = 3)

/-- A write by an initiator that may make it stores MUTE, CAL_HOLD and ALIGN_HOLD as written; RESTART brings a full
restart of every point at the next launch; ACC_RESTART discards the accumulation in progress. Each clause that runs a
command concludes that exec answers a next state, under conditions on the state and the operands alone. -/
def Obligations.ControlBits : Prop :=
  (∀ (init : Nat) (q : Port) (v : Nat) (s : State), Writes s init (winTx q) → ∃ t, exec (.txMute init q v) s = .next t
  ∧ bitOf (t.reg (winTx q) 0) 1 = bitOf v 1 ∧ bitOf (t.reg (winTx q) 0) 0 = bitOf v 0) ∧
  (∀ (init : Nat) (q : Port) (v : Nat) (s : State), Writes s init (winRx q) → ∃ t, exec (.rxCalHold init q v) s =
  .next t ∧ bitOf (t.reg (winRx q) 0) 1 = bitOf v 1) ∧
  (∀ (init : Nat) (q : Port) (v : Nat) (s : State), Writes s init (winRx q) → ∃ t, exec (.swAlignHold init q v) s =
  .next t ∧ bitOf (t.reg (winRx q) 0x200) 1 = bitOf v 1 ∧ bitOf (t.reg (winRx q) 0x200) 0 = bitOf v 0) ∧
  (∀ (init : Nat) (q : Port) (v : Nat) (s : State), Writes s init (winRx q) → ∃ t, exec (.swRestart init q v) s =
  .next t ∧ (t.port q).sw.pend = Restart.full) ∧
  (∀ (init : Nat) (q : Port) (v : Nat) (s : State), Writes s init (winKiln q) → ∃ t, exec (.kilnAccRestart init q v) s
  = .next t ∧ (t.port q).kiln.acc = none)

/-- The oldest launch in flight gives its record, with a word for each output point, and becomes the Swash engine's
latest launch. The oldest due output of a decimation channel is put out for its boundary launch, and what is due later
stays due. A requested bank becomes the active one at a boundary launch, counted and shown; BankSelect requests the
other bank or cancels, and BankA and BankB take coefficients while inactive. A Tide's finished Lauter sums give a
record with a group for each set of points. Each clause that runs a command concludes that exec answers a next state,
under conditions on the state and the operands alone. -/
def Obligations.SwashAndDecimation : Prop :=
  (∀ (q : Port) (r : SlotRecord) (l : Launch) (rest : List Launch) (s : State), (s.port q).flight = l :: rest → s.rxOn
  q false = true → bitOf (s.reg (winRx q) 0x200) 0 = true → ∃ t, exec (.swashLaunchRecords q r) s = .next t ∧ (t.port
  q).flight = rest ∧ (t.port q).sw.lastLaunch = some l ∧ t.time.now = max s.time.now (l.time + 8 * (l.cfg.w +
  l.cfg.c)) ∧ ((t.port q).sw.out.head?.map fun (o : SwLaunch) => (o.l.ell, o.words.length)) = some (l.ell, l.cfg.n)) ∧
  (∀ (q : Port) (c t0 : Nat) (lost more : List Nat) (b : SwLaunch) (rest : List SwLaunch) (s : State), s.rxOn q false
  = true → bitOf (s.reg (winRx q) 0x300) 0 = true → c < 2 → (s.dec q c).due = t0 :: more → (s.port q).sw.out.dropWhile
  (fun (x : SwLaunch) => x.l.time != t0) = b :: rest → ∃ t, exec (.decimatedRecord q c lost) s = .next t ∧ (t.dec q
  c).lastOut = some b.l.ell ∧ (t.dec q c).due = more.filter (fun u => decide (t0 < u)) ∧ (t.dec q c).active = (s.dec q
  c).active ∧ (lost ≠ [] → (t.stat (stDec q)).has 0 = true)) ∧
  (∀ (q : Port) (c b : Nat) (x : SwLaunch) (s : State), s.rxOn q false = true → (s.dec q c).want = some b → (s.port
  q).sw.out.head? = some x → x.l.ell % presetD (if c = 0 then x.l.cfg.dec0 else x.l.cfg.dec1).preset = 0 → (s.dec q
  c).wantAt ≠ some x.l.time → ∃ t, exec (.bankSwap q c) s = .next t ∧ (t.dec q c).active = b ∧ (t.dec q c).want = none
  ∧ (t.dec q c).swaps = satAdd 0xFFFFFFFF (s.dec q c).swaps 1 ∧ (t.stat (stDec q)).has 2 = true) ∧
  (∀ (q : Port) (lost : List Nat) (k : LautSum) (s : State), s.rxOn q false = true → bitOf (s.reg (winRx q) 0x310) 0 =
  true → (s.port q).laut.done = some k → ∃ t, exec (.lauterRecord q lost) s = .next t ∧ (t.port q).laut.done = none ∧
  (t.port q).laut.cur = (s.port q).laut.cur ∧ ((t.port q).lautRec.map fun (r : LautRec) => (r.last, r.groups)) = some
  (k.last, (lautGroups k lost (s.pn q 0x3130 5) ((s.port q).laut.coef k.last)).map fun (x : Bool × Nat × List Nat) =>
  x.2) ∧ (lost ≠ [] → (t.stat (stLt q)).has 1 = true)) ∧
  (∀ (c : OdCaller) (q : Port) (ch b : Nat) (s : State), ch < 2 → b < 2 → Serves s c 1 (objKey (decIndex q ch) 8) →
  s.nat (decIndex q ch) 2 ≠ 0 → ∃ t, exec (.bankSelect c q ch b) s = .next t ∧ Answered t c 0 ∧ (t.dec q ch).want =
  (if b = (s.dec q ch).active then none else some b)) ∧
  (∀ (c : OdCaller) (q : Port) (ch b : Nat) (v : List Byte) (s : State), ch < 2 → b < 2 → Serves s c 1 (objKey
  (decIndex q ch) (0xA + b)) → s.nat (decIndex q ch) 2 ≠ 0 → (s.dec q ch).active ≠ b → v.length = 24 * presetD (s.nat
  (decIndex q ch) 2) → v.length ≤ 1024 → bankOk (presetD (s.nat (decIndex q ch) 2)) ((pieces 4 (6 * presetD (s.nat
  (decIndex q ch) 2) + 1) v).map fun (x : List Byte) => toSigned 32 (leNat x)) = true → ∃ t, exec (.bankLoad c q ch b
  v) s = .next t ∧ Answered t c 0 ∧ (if b = 0 then (t.dec q ch).bankA else (t.dec q ch).bankB) = (pieces 4 (6 *
  presetD (s.nat (decIndex q ch) 2) + 1) v).map fun (x : List Byte) => toSigned 32 (leNat x))

/-- An accumulation starts with the first slot 0 launch of a Live port; a shot without clip, darkness, tuning, miss or
unlock is accepted and adds its power codes, any other is dropped; a full accumulation queues its fit. Each clause
that runs a command concludes that exec answers a next state, under conditions on the state and the operands alone. -/
def Obligations.KilnAccumulation : Prop :=
  (∀ (q : Port) (l : Launch) (s : State), (s.port q).kiln.flight.getLast? = some l → s.kilnRuns q = true → s.kilnOn q
  = true → (s.port q).kiln.waiting = true → (s.port q).kiln.acc = none → (s.port q).kiln.waitAt ≤ l.time → s.live q =
  true → l.dark = false → (s.port q).syn.locked = true → ∃ t, exec (.kilnAccumulationStart q) s = .next t ∧ (t.port
  q).kiln.waiting = false ∧ (t.port q).kiln.flight = (s.port q).kiln.flight ∧ ((t.port q).kiln.acc.map fun (a :
  KilnAcc) => (a.cfg, a.start, a.accepted, a.dropped, a.buf)) = some (s.kilnCfg q, l.time, 0, 0, (s.port
  q).kiln.next)) ∧
  (∀ (q : Port) (r : KilnRecord) (l : Launch) (rest : List Launch) (a : KilnAcc) (s : State), (s.port q).kiln.flight =
  l :: rest → s.kilnRuns q = true → (s.port q).kiln.acc = some a → a.accepted + a.dropped < 2 ^ a.cfg.shots → a.start
  ≤ l.time → l.dark = false → l.tuning = false → l.missing = false → l.synOff = false → (s.kilnClipped q l r).1 =
  false → ∃ t, exec (.kilnShot q r false) s = .next t ∧ (t.port q).kiln.flight = rest ∧ ((t.port q).kiln.acc.map fun
  (b : KilnAcc) => (b.accepted, b.dropped, b.last, b.cells)) = some (a.accepted + 1, a.dropped, l.time, (a.add
  (s.shotCodes q a.cfg.mode16 a.cfg.bins a.cfg.shift r)).cells) ∧ t.time.now = max s.time.now (l.time + 8 * l.cfg.w)) ∧
  (∀ (q : Port) (r : KilnRecord) (unlocked : Bool) (l : Launch) (rest : List Launch) (a : KilnAcc) (s : State),
  (s.port q).kiln.flight = l :: rest → s.kilnRuns q = true → (s.port q).kiln.acc = some a → a.accepted + a.dropped < 2
  ^ a.cfg.shots → a.start ≤ l.time → (s.kilnClipped q l r).1 = true ∨ l.dark = true ∨ l.tuning = true ∨ l.missing =
  true ∨ l.synOff = true ∨ unlocked = true → ∃ t, exec (.kilnShot q r unlocked) s = .next t ∧ (t.port q).kiln.flight =
  rest ∧ ((t.port q).kiln.acc.map fun (b : KilnAcc) => (b.accepted, b.dropped, b.cells)) = some (a.accepted, a.dropped
  + 1, a.cells) ∧ (t.stat (stKiln q)).has 2 = true) ∧
  (∀ (q : Port) (a : KilnAcc) (s : State), s.kilnRuns q = true → (s.port q).kiln.acc = some a → a.accepted + a.dropped
  = 2 ^ a.cfg.shots → ∃ t, exec (.kilnAccumulationComplete q) s = .next t ∧ (t.port q).kiln.acc = none ∧ (t.port
  q).kiln.waiting = s.kilnOn q ∧ (t.port q).kiln.next = 1 - a.buf ∧ (t.port q).kiln.seq = ((s.port q).kiln.seq + 1) %
  2 ^ 32 ∧ ((t.port q).kiln.fits.getLast?.map (fun (f : KilnFit) => f.acc)) = some a ∧ t.brew.fitQueue =
  s.brew.fitQueue ++ [q] ∧ (t.stat (stKiln q)).has 0 = true)

/-- A queued fit is split over the fit pool's cores, which then work on it, ends with a result per bin, or is overrun
by the next accumulation, counted and shown; its cores are free then, and its profile is assembled and leaves the
queue. ShapeCal starts a shape calibration and the period's end a frequency measurement; both accept the mean of two
runs that agree. Each clause that runs a command concludes that exec answers a next state, under conditions on the
state and the operands alone. -/
def Obligations.KilnFits : Prop :=
  (∀ (q : Port) (rest : List Port) (f : KilnFit) (more : List KilnFit) (s : State), s.brewOn = true → s.brew.fitQueue
  = q :: rest → (s.port q).kiln.fits = f :: more → f.ranges = none → f.bins = none → s.poolCores 4 ≠ [] →
  (s.brew.cores.all fun (k : Core) => k.work != some (Work.fit .a) && k.work != some (Work.fit .b)) = true → ∃ t, exec
  (.kilnFitDispatch q) s = .next t ∧ t.brew.fitQueue = rest ∧ (((t.port q).kiln.fits.head?.bind (fun (f : KilnFit) =>
  f.ranges)).map fun (r : List (Nat × Nat × Nat)) => r.map (fun (x : Nat × Nat × Nat) => x.1)) = some (s.poolCores 4)
  ∧ (∀ c ∈ s.poolCores 4, c < s.brew.cores.length → (t.brew.cores.getD c {}).running = true ∧ (t.brew.cores.getD c
  {}).work = some (Work.fit q))) ∧
  (∀ (q : Port) (poison : List Nat) (f : KilnFit) (more : List KilnFit) (s : State), s.brewOn = true → (s.port
  q).kiln.fits = f :: more → f.ranges.isSome = true → f.bins = none → ∃ t, exec (.kilnFitComplete q poison) s = .next
  t ∧ ((t.port q).kiln.fits.map fun (g : KilnFit) => (g.bins.isSome, g.over_)).head? = some (true, false) ∧ (t.port
  q).kiln.fits.tail = more ∧ (∀ k ∈ t.brew.cores, k.work ≠ some (Work.fit q))) ∧
  (∀ (q : Port) (fitted poison : List Nat) (f g : KilnFit) (more : List KilnFit) (s : State), s.up = true → (s.port
  q).kiln.fits = f :: g :: more → f.bins = none → ∃ t, exec (.kilnFitOverrun q fitted poison) s = .next t ∧ ((t.port
  q).kiln.fits.map fun (g : KilnFit) => (g.bins.isSome, g.over_)).head? = some (true, true) ∧ (t.port q).kiln.overruns
  = satAdd 0xFFFFFFFF (s.port q).kiln.overruns 1 ∧ (t.stat (stKiln q)).has 1 = true ∧ (∀ k ∈ t.brew.cores, k.work ≠
  some (Work.fit q))) ∧
  (∀ (q : Port) (f : KilnFit) (rest : List KilnFit) (b : List BinFit) (s : State), s.up = true → (s.port q).kiln.fits
  = f :: rest → f.bins = some b → s.fitLate f = false → ∃ t, exec (.kilnProfileAssembly q) s = .next t ∧ (t.port
  q).kiln.fits = rest ∧ (t.port q).kiln.lastTime = f.acc.last ∧ (t.port q).kiln.lastAccepted = f.acc.accepted ∧
  (t.port q).kiln.lastDropped = f.acc.dropped ∧ (t.port q).kiln.coilT = f.coilT) ∧
  (∀ (c : OdCaller) (q : Port) (s : State), Serves s c 1 (objKey (portIndex q 0x4011) 0xA) → s.live q = true → (s.port
  q).rx.kfgPass = true → s.kilnOn q = false → (s.port q).kiln.shapeRun = false → ∃ t, exec (.shapeCal c q) s = .next t
  ∧ Answered t c 0 ∧ (t.port q).kiln.shapeRun = true) ∧
  (∀ (q : Port) (run1 run2 : List Nat) (s : State), s.up = true → (s.port q).kiln.shapeRun = true → (s.port
  q).kiln.shapeRuns = [run2, run1] → run1.length = kilnCh (s.pn q 0x4010 5 == 16) → run2.length = kilnCh (s.pn q
  0x4010 5 == 16) → (run1 ++ run2).all (0 < ·) = true → ((shapeNorm run1).zip (shapeNorm run2)).all (fun (z :
  Machine.Num × Machine.Num) => (z.1.div z.2).le (Machine.Num.exp10 (Machine.Num.dec 2 2)) && (z.2.div z.1).le
  (Machine.Num.exp10 (Machine.Num.dec 2 2))) = true → ∃ t, exec (.shapeCalDone q) s = .next t ∧ (t.port
  q).kiln.shapeRun = false ∧ (t.port q).kiln.shape (s.pn q 0x4010 5 == 16) = some (((shapeNorm run1).zip (shapeNorm
  run2)).map fun (z : Machine.Num × Machine.Num) => ((z.1.add z.2).scale (-1)).toF32)) ∧
  (∀ (q : Port) (count : Nat) (r0 : List Int) (s : State), s.up = true → (s.port q).kiln.freqRun = true → (s.port
  q).syn.on = true → (s.port q).syn.locked = true → (s.port q).kiln.freq.prev = some r0 → runsAgree [500] r0
  [((Machine.Num.ofNat (256 * count)).sub (s.synHz q)).nearest] = true → ∃ t, exec (.freqRefCalRun q count) s = .next
  t ∧ (t.port q).kiln.freqRun = false ∧ (t.port q).kiln.eSyn = (runsMean r0 [((Machine.Num.ofNat (256 * count)).sub
  (s.synHz q)).nearest]).getD 0 0 ∧ (t.port q).kiln.freq.state = 1) ∧
  (∀ (q : Port) (s : State), s.up = true → (s.port q).syn.on = true → ∃ t, exec (.freqRefCalPeriod q) s = .next t ∧
  (t.port q).kiln.freqRun = true ∧ (t.port q).kiln.freq.prev = none)

/-- On a core that is ready and whose moves have addresses, a vector instruction writes its accumulator, vector or
search registers with the value the rules give, and the core goes to its next instruction. Each clause that runs a
command concludes that exec answers a next state, under conditions on the state and the operands alone. -/
def Obligations.VectorInstructions : Prop :=
  (∀ (c : Nat) (op : MacOp) (complex signedA signedB : Bool) (dst : Nat) (a b : VSrc) (m : Moves) (s : State),
  s.coreReady c = true → (s.core c).movesOk m = true → c < s.brew.cores.length → ∃ t, exec (.vectorMultiplyAccumulate
  c op complex signedA signedB dst a b m) s = .next t ∧ (t.core c).a = setAt (s.core c).a dst ((upTo 8).map fun (i :
  Nat) => wrapS 48 (match op with | MacOp.mul => (if complex then (if i % 2 = 0 then (laneInt 16 signedA (laneOf 16
  ((s.core c).vec ((s.core c).loaded m.x) ((s.core c).loaded m.y) a) (i / 2 * 2))) * (laneInt 16 signedB (laneOf 16
  ((s.core c).vec ((s.core c).loaded m.x) ((s.core c).loaded m.y) b) (i / 2 * 2))) - (laneInt 16 signedA (laneOf 16
  ((s.core c).vec ((s.core c).loaded m.x) ((s.core c).loaded m.y) a) (i / 2 * 2 + 1))) * (laneInt 16 signedB (laneOf
  16 ((s.core c).vec ((s.core c).loaded m.x) ((s.core c).loaded m.y) b) (i / 2 * 2 + 1))) else (laneInt 16 signedA
  (laneOf 16 ((s.core c).vec ((s.core c).loaded m.x) ((s.core c).loaded m.y) a) (i / 2 * 2))) * (laneInt 16 signedB
  (laneOf 16 ((s.core c).vec ((s.core c).loaded m.x) ((s.core c).loaded m.y) b) (i / 2 * 2 + 1))) + (laneInt 16
  signedA (laneOf 16 ((s.core c).vec ((s.core c).loaded m.x) ((s.core c).loaded m.y) a) (i / 2 * 2 + 1))) * (laneInt
  16 signedB (laneOf 16 ((s.core c).vec ((s.core c).loaded m.x) ((s.core c).loaded m.y) b) (i / 2 * 2)))) else
  (laneInt 16 signedA (laneOf 16 ((s.core c).vec ((s.core c).loaded m.x) ((s.core c).loaded m.y) a) i)) * (laneInt 16
  signedB (laneOf 16 ((s.core c).vec ((s.core c).loaded m.x) ((s.core c).loaded m.y) b) i))) | MacOp.add => (((s.core
  c).a.getD dst []).getD i 0) + (if complex then (if i % 2 = 0 then (laneInt 16 signedA (laneOf 16 ((s.core c).vec
  ((s.core c).loaded m.x) ((s.core c).loaded m.y) a) (i / 2 * 2))) * (laneInt 16 signedB (laneOf 16 ((s.core c).vec
  ((s.core c).loaded m.x) ((s.core c).loaded m.y) b) (i / 2 * 2))) - (laneInt 16 signedA (laneOf 16 ((s.core c).vec
  ((s.core c).loaded m.x) ((s.core c).loaded m.y) a) (i / 2 * 2 + 1))) * (laneInt 16 signedB (laneOf 16 ((s.core
  c).vec ((s.core c).loaded m.x) ((s.core c).loaded m.y) b) (i / 2 * 2 + 1))) else (laneInt 16 signedA (laneOf 16
  ((s.core c).vec ((s.core c).loaded m.x) ((s.core c).loaded m.y) a) (i / 2 * 2))) * (laneInt 16 signedB (laneOf 16
  ((s.core c).vec ((s.core c).loaded m.x) ((s.core c).loaded m.y) b) (i / 2 * 2 + 1))) + (laneInt 16 signedA (laneOf
  16 ((s.core c).vec ((s.core c).loaded m.x) ((s.core c).loaded m.y) a) (i / 2 * 2 + 1))) * (laneInt 16 signedB
  (laneOf 16 ((s.core c).vec ((s.core c).loaded m.x) ((s.core c).loaded m.y) b) (i / 2 * 2)))) else (laneInt 16
  signedA (laneOf 16 ((s.core c).vec ((s.core c).loaded m.x) ((s.core c).loaded m.y) a) i)) * (laneInt 16 signedB
  (laneOf 16 ((s.core c).vec ((s.core c).loaded m.x) ((s.core c).loaded m.y) b) i))) | MacOp.sub => (((s.core
  c).a.getD dst []).getD i 0) - (if complex then (if i % 2 = 0 then (laneInt 16 signedA (laneOf 16 ((s.core c).vec
  ((s.core c).loaded m.x) ((s.core c).loaded m.y) a) (i / 2 * 2))) * (laneInt 16 signedB (laneOf 16 ((s.core c).vec
  ((s.core c).loaded m.x) ((s.core c).loaded m.y) b) (i / 2 * 2))) - (laneInt 16 signedA (laneOf 16 ((s.core c).vec
  ((s.core c).loaded m.x) ((s.core c).loaded m.y) a) (i / 2 * 2 + 1))) * (laneInt 16 signedB (laneOf 16 ((s.core
  c).vec ((s.core c).loaded m.x) ((s.core c).loaded m.y) b) (i / 2 * 2 + 1))) else (laneInt 16 signedA (laneOf 16
  ((s.core c).vec ((s.core c).loaded m.x) ((s.core c).loaded m.y) a) (i / 2 * 2))) * (laneInt 16 signedB (laneOf 16
  ((s.core c).vec ((s.core c).loaded m.x) ((s.core c).loaded m.y) b) (i / 2 * 2 + 1))) + (laneInt 16 signedA (laneOf
  16 ((s.core c).vec ((s.core c).loaded m.x) ((s.core c).loaded m.y) a) (i / 2 * 2 + 1))) * (laneInt 16 signedB
  (laneOf 16 ((s.core c).vec ((s.core c).loaded m.x) ((s.core c).loaded m.y) b) (i / 2 * 2)))) else (laneInt 16
  signedA (laneOf 16 ((s.core c).vec ((s.core c).loaded m.x) ((s.core c).loaded m.y) a) i)) * (laneInt 16 signedB
  (laneOf 16 ((s.core c).vec ((s.core c).loaded m.x) ((s.core c).loaded m.y) b) i))))) ∧ (t.core c).pc = (s.core
  c).past.pc) ∧
  (∀ (c : Nat) (op : AluOp) (wide signed : Bool) (dst : Nat) (a b d : VSrc) (m : Moves) (s : State), s.coreReady c =
  true → (s.core c).movesOk m = true → c < s.brew.cores.length → ∃ t, exec (.vectorArithmeticLogic c op wide signed
  dst a b d m) s = .next t ∧ (t.core c).v = (Core.doMove (s.laneFree 9) (s.core c) (Core.doMove (s.laneFree 8) (s.core
  c)
  { s.core c with v := setAt (s.core c).v dst (fromLanes (if wide then 32 else 16) ((upTo (128 / (if wide then 32 else 16))).map fun (i : Nat) => aluLane op (if wide then 32 else 16) signed (s.laneFree i) (laneOf (if wide then 32 else 16) ((s.core c).vec ((s.core c).loaded m.x) ((s.core c).loaded m.y) a) i) (laneOf (if wide then 32 else 16) ((s.core c).vec ((s.core c).loaded m.x) ((s.core c).loaded m.y) b) i) (laneOf (if wide then 32 else 16) ((s.core c).vec ((s.core c).loaded m.x) ((s.core c).loaded m.y) d) i))) }
  m.x) m.y).v ∧ (t.core c).pc = (s.core c).past.pc) ∧
  (∀ (c src dst shift : Nat) (wide high saturate signed : Bool) (m : Moves) (s : State), s.coreReady c = true →
  (s.core c).movesOk m = true → c < s.brew.cores.length → ∃ t, exec (.accumulatorMove c src (.move dst shift wide high
  saturate signed) m) s = .next t ∧ (t.core c).v = (Core.doMove (s.laneFree 9) (s.core c) (Core.doMove (s.laneFree 8)
  (s.core c)
  { s.core c with v := setAt (s.core c).v dst (fromLanes (if wide then 32 else 16) ((upTo (128 / (if wide then 32 else 16))).map fun (i : Nat) => (narrow (if wide then 32 else 16) signed saturate (asr (((s.core c).a.getD src []).getD (if wide && high then i + 4 else i) 0) (shift % 48))).1)) }
  m.x) m.y).v ∧ (t.core c).pc = (s.core c).past.pc) ∧
  (∀ (c src : Nat) (m : Moves) (s : State), s.coreReady c = true → (s.core c).movesOk m = true → c <
  s.brew.cores.length → ∃ t, exec (.accumulatorMove c src .clear m) s = .next t ∧ (t.core c).a = setAt (s.core c).a
  src (List.replicate 8 0) ∧ (t.core c).pc = (s.core c).past.pc) ∧
  (∀ (c src : Nat) (m : Moves) (s : State), s.coreReady c = true → (s.core c).movesOk m = true → c <
  s.brew.cores.length → ∃ t, exec (.accumulatorMove c src .laneSum m) s = .next t ∧ (t.core c).a = setAt (s.core c).a
  src (setAt ((s.core c).a.getD src []) 0 (wrapS 48 (sumI ((s.core c).a.getD src [])))) ∧ (t.core c).pc = (s.core
  c).past.pc) ∧
  (∀ (c : Nat) (wide signed : Bool) (src : VSrc) (base : Nat) (m : Moves) (s : State), s.coreReady c = true → (s.core
  c).movesOk m = true → c < s.brew.cores.length → ∃ t, exec (.search c true wide signed src base m) s = .next t ∧
  (s.core c).best ≤ (t.core c).best ∧ (∀ i : Nat, i < 128 / (if wide then 32 else 16) → laneInt (if wide then 32 else
  16) signed (laneOf (if wide then 32 else 16) ((s.core c).vec ((s.core c).loaded m.x) ((s.core c).loaded m.y) src) i)
  ≤ (t.core c).best) ∧ ((t.core c).best = (s.core c).best ∨ ∃ i : Nat, i < 128 / (if wide then 32 else 16) ∧ (t.core
  c).best = laneInt (if wide then 32 else 16) signed (laneOf (if wide then 32 else 16) ((s.core c).vec ((s.core
  c).loaded m.x) ((s.core c).loaded m.y) src) i) ∧ (t.core c).bestIdx = ((s.core c).s.getD base 0 + i) % 2 ^ 32) ∧
  (t.core c).pc = (s.core c).past.pc) ∧
  (∀ (c : Nat) (wide signed : Bool) (src : VSrc) (base : Nat) (m : Moves) (s : State), s.coreReady c = true → (s.core
  c).movesOk m = true → c < s.brew.cores.length → ∃ t, exec (.search c false wide signed src base m) s = .next t ∧
  (t.core c).best ≤ (s.core c).best ∧ (∀ i : Nat, i < 128 / (if wide then 32 else 16) → (t.core c).best ≤ laneInt (if
  wide then 32 else 16) signed (laneOf (if wide then 32 else 16) ((s.core c).vec ((s.core c).loaded m.x) ((s.core
  c).loaded m.y) src) i)) ∧ ((t.core c).best = (s.core c).best ∨ ∃ i : Nat, i < 128 / (if wide then 32 else 16) ∧
  (t.core c).best = laneInt (if wide then 32 else 16) signed (laneOf (if wide then 32 else 16) ((s.core c).vec
  ((s.core c).loaded m.x) ((s.core c).loaded m.y) src) i) ∧ (t.core c).bestIdx = ((s.core c).s.getD base 0 + i) % 2 ^
  32) ∧ (t.core c).pc = (s.core c).past.pc) ∧
  (∀ (c : Nat) (isMax wide : Bool) (m : Moves) (s : State), s.coreReady c = true → (s.core c).movesOk m = true → c <
  s.brew.cores.length → ∃ t, exec (.searchReset c isMax wide true m) s = .next t ∧ (t.core c).best = (if isMax then
  -((2 ^ ((if wide then 32 else 16) - 1) : Nat) : Int) else ((2 ^ ((if wide then 32 else 16) - 1) : Nat) : Int) - 1) ∧
  (t.core c).bestIdx = 0xFFFFFFFF ∧ (t.core c).pc = (s.core c).past.pc) ∧
  (∀ (c : Nat) (isMax wide : Bool) (m : Moves) (s : State), s.coreReady c = true → (s.core c).movesOk m = true → c <
  s.brew.cores.length → ∃ t, exec (.searchReset c isMax wide false m) s = .next t ∧ (t.core c).best = (if isMax then 0
  else ((2 ^ (if wide then 32 else 16) : Nat) : Int) - 1) ∧ (t.core c).bestIdx = 0xFFFFFFFF ∧ (t.core c).pc = (s.core
  c).past.pc) ∧
  (∀ (c dstV dstI : Nat) (m : Moves) (s : State), s.coreReady c = true → (s.core c).movesOk m = true → c <
  s.brew.cores.length → ∃ t, exec (.searchRead c dstV dstI m) s = .next t ∧ (t.core c).s = setAt (setAt (s.core c).s
  dstV (ofSigned 32 (s.core c).best)) dstI (s.core c).bestIdx ∧ (t.core c).pc = (s.core c).past.pc)

/-- On a core that is ready and whose moves have addresses, a scalar operation, a move, a cluster memory access and an
address generator's set-up write what the rules give; a store reaches cluster memory at the computed address alone.
Each clause that runs a command concludes that exec answers a next state, under conditions on the state and the
operands alone. -/
def Obligations.ScalarAndMemoryInstructions : Prop :=
  (∀ (c : Nat) (op : ScalarOp) (signed : Bool) (dst dst2 a b : Nat) (m : Moves) (s : State), s.coreReady c = true →
  (s.core c).movesOk m = true → c < s.brew.cores.length → ∃ t, exec (.scalarOperation c op signed dst dst2 a b m) s =
  .next t ∧ (t.core c).s = (if op = ScalarOp.mul ∨ op = ScalarOp.div then setAt (setAt (s.core c).s dst (scalarResult
  op signed (s.laneFree 0) (s.laneFree 1) ((s.core c).s.getD a 0) ((s.core c).s.getD b 0)).1) dst2 (scalarResult op
  signed (s.laneFree 0) (s.laneFree 1) ((s.core c).s.getD a 0) ((s.core c).s.getD b 0)).2 else setAt (s.core c).s dst
  (scalarResult op signed (s.laneFree 0) (s.laneFree 1) ((s.core c).s.getD a 0) ((s.core c).s.getD b 0)).1) ∧ (t.core
  c).pc = (s.core c).past.pc) ∧
  (∀ (c : Nat) (m : Moves) (s : State), s.coreReady c = true → (s.core c).movesOk m = true → c < s.brew.cores.length →
  ∃ t, exec (.memoryMove c none m) s = .next t ∧ t.core c = Core.doMove (s.laneFree 9) (s.core c) (Core.doMove
  (s.laneFree 8) (s.core c) (s.core c).past m.x) m.y ∧ t.mem = s.mem) ∧
  (∀ (c : Nat) (z : ScalarMem) (m : Moves) (s : State), s.coreReady c = true → (s.core c).movesOk m = true → c <
  s.brew.cores.length → s.clusterOk (s.core c).owner (ofSigned 32 (((s.core c).s.getD z.addr 0 : Nat) + z.ofs))
  z.bytes = true → z.bytes < 4 ∨ (ofSigned 32 (((s.core c).s.getD z.addr 0 : Nat) + z.ofs)) % z.bytes = 0 → z.store =
  false → ∃ t, exec (.memoryMove c (some z) m) s = .next t ∧ (t.core c).s = setAt (s.core c).s z.reg (leNat (s.read
  (clusterBase + (ofSigned 32 (((s.core c).s.getD z.addr 0 : Nat) + z.ofs))) z.bytes)) ∧ t.mem = s.mem ∧ (t.core c).pc
  = (s.core c).past.pc) ∧
  (∀ (c : Nat) (z : ScalarMem) (m : Moves) (s : State), s.coreReady c = true → (s.core c).movesOk m = true → c <
  s.brew.cores.length → s.clusterOk (s.core c).owner (ofSigned 32 (((s.core c).s.getD z.addr 0 : Nat) + z.ofs))
  z.bytes = true → z.bytes < 4 ∨ (ofSigned 32 (((s.core c).s.getD z.addr 0 : Nat) + z.ofs)) % z.bytes = 0 → z.store =
  true → ∃ t, exec (.memoryMove c (some z) m) s = .next t ∧ t.mem = memWrite s.mem (clusterBase + (ofSigned 32
  (((s.core c).s.getD z.addr 0 : Nat) + z.ofs))) (leBytes z.bytes ((s.core c).s.getD z.reg 0)) ∧ (t.core c).s =
  (s.core c).s ∧ (t.core c).pc = (s.core c).past.pc) ∧
  (∀ (c n : Nat) (g : AgSetup) (m : Moves) (s : State), s.coreReady c = true → (s.core c).movesOk m = true → c <
  s.brew.cores.length → ∃ t, exec (.addressGeneratorSetup c n g m) s = .next t ∧ (t.core c).ag = (Core.doMove
  (s.laneFree 9) (s.core c) (Core.doMove (s.laneFree 8) (s.core c) { s.core c with ag := setAt (s.core c).ag n g }
  m.x) m.y).ag ∧ (t.core c).pc = (s.core c).past.pc)

/-- Branches, calls and returns set the program counter and the return stack; a hardware loop is entered, or with a
count of 0 skipped (the model's choice, log 172); a wait for an event and one for DMA hold the core, a halt ends its
work or goes on to the one that waits. The DMA queue takes a descriptor with the work that queued it; the oldest one
completes by writing X, Y, cluster memory or the pool and leaves the queue, and a customer program's descriptor that
reads the pool or Kiln SRAM raises the exception instead. A customer program's record joins its output queue. Each
clause that runs a command concludes that exec answers a next state, under conditions on the state and the operands
alone. -/
def Obligations.ControlInstructions : Prop :=
  (∀ (c : Nat) (j : Jump) (cond : Cond) (m : Moves) (s : State), s.coreReady c = true → (s.core c).movesOk m = true →
  c < s.brew.cores.length → (s.core c).holds cond = false → ∃ t, exec (.branchCallReturn c j cond m) s = .next t ∧
  (t.core c).pc = (s.core c).past.pc ∧ (t.core c).rets = (s.core c).rets) ∧
  (∀ (c : Nat) (a : Nat) (cond : Cond) (m : Moves) (s : State), s.coreReady c = true → (s.core c).movesOk m = true → c
  < s.brew.cores.length → (s.core c).holds cond = true → ∃ t, exec (.branchCallReturn c (.branch a) cond m) s = .next
  t ∧ (t.core c).pc = a % 4096 ∧ (t.core c).rets = (s.core c).rets) ∧
  (∀ (c : Nat) (a : Nat) (cond : Cond) (m : Moves) (s : State), s.coreReady c = true → (s.core c).movesOk m = true → c
  < s.brew.cores.length → (s.core c).holds cond = true → (s.core c).rets.length < 16 → ∃ t, exec (.branchCallReturn c
  (.call a) cond m) s = .next t ∧ (t.core c).pc = a % 4096 ∧ (t.core c).rets = (s.core c).past.pc :: (s.core c).rets) ∧
  (∀ (c a : Nat) (r : List Nat) (cond : Cond) (m : Moves) (s : State), s.coreReady c = true → (s.core c).movesOk m =
  true → c < s.brew.cores.length → (s.core c).holds cond = true → (s.core c).rets = a :: r → ∃ t, exec
  (.branchCallReturn c .ret cond m) s = .next t ∧ (t.core c).pc = a ∧ (t.core c).rets = r) ∧
  (∀ (c last count : Nat) (m : Moves) (s : State), s.coreReady c = true → (s.core c).movesOk m = true → c <
  s.brew.cores.length → (s.core c).past.loops.length < 4 → (s.core c).s.getD count 0 ≠ 0 → ∃ t, exec (.hardwareLoop c
  last count m) s = .next t ∧ (t.core c).loops = (⟨(s.core c).past.pc, last % 4096, (s.core c).s.getD count 0⟩ :
  CoreLoop) :: (s.core c).past.loops ∧ (t.core c).pc = (s.core c).past.pc) ∧
  (∀ (c last count : Nat) (m : Moves) (s : State), s.coreReady c = true → (s.core c).movesOk m = true → c <
  s.brew.cores.length → (s.core c).past.loops.length < 4 → (s.core c).s.getD count 0 = 0 → ∃ t, exec (.hardwareLoop c
  last count m) s = .next t ∧ (t.core c).loops = (s.core c).past.loops ∧ (t.core c).pc = (last + 1) % 4096) ∧
  (∀ (c : Nat) (m : Moves) (s : State), s.coreReady c = true → (s.core c).movesOk m = true → c < s.brew.cores.length →
  ∃ t, exec (.waitForEvent c m) s = .next t ∧ (t.core c).waitEvent = true ∧ (t.core c).running = true ∧ (t.core c).pc
  = (s.core c).past.pc) ∧
  (∀ (c : Nat) (m : Moves) (s : State), s.coreReady c = true → (s.core c).movesOk m = true → c < s.brew.cores.length →
  ∃ t, exec (.halt c m) s = .next t ∧ ((s.core c).again = none → (t.core c).running = false ∧ (t.core c).work = none)
  ∧ (∀ (p d : Nat), (s.core c).work = some (Work.customer p) → (s.core c).again = some d → (t.core c).running = true ∧
  (t.core c).work = some (Work.customer p) ∧ (t.core c).due = some d ∧ (t.core c).again = none)) ∧
  (∀ (c : Nat) (d : DmaDesc) (m : Moves) (s : State), s.coreReady c = true → (s.core c).movesOk m = true → c <
  s.brew.cores.length → (s.core c).dma.length < 4 → ∃ t, exec (.queueCoreDma c d m) s = .next t ∧ (t.core c).dma =
  (s.core c).dma ++ [((s.core c).owner, d)] ∧ (t.core c).pc = (s.core c).past.pc) ∧
  (∀ (c left : Nat) (m : Moves) (s : State), s.coreReady c = true → (s.core c).movesOk m = true → c <
  s.brew.cores.length → ∃ t, exec (.waitDmaCompletion c left m) s = .next t ∧ (t.core c).waitDma = some left ∧ (t.core
  c).pc = (s.core c).past.pc) ∧
  (∀ (c : Nat) (p : Option Nat) (d : DmaDesc) (rest : List (Option Nat × DmaDesc)) (b : List Byte) (s : State),
  s.brewOn = true → c < 16 → c < s.brew.cores.length → (s.core c).dma = (p, d) :: rest → s.dmaRead c p d.src d.srcAddr
  d.len = some b → d.src < 5 → d.dst = 0 → d.dstAddr + b.length ≤ coreMemSize → ∃ t, exec (.coreDmaComplete c false) s
  = .next t ∧ (t.core c).x = memWrite (s.core c).x d.dstAddr b ∧ (t.core c).y = (s.core c).y ∧ (t.core c).dma = rest ∧
  t.mem = s.mem) ∧
  (∀ (c : Nat) (p : Option Nat) (d : DmaDesc) (rest : List (Option Nat × DmaDesc)) (b : List Byte) (s : State),
  s.brewOn = true → c < 16 → c < s.brew.cores.length → (s.core c).dma = (p, d) :: rest → s.dmaRead c p d.src d.srcAddr
  d.len = some b → d.src < 5 → d.dst = 1 → d.dstAddr + b.length ≤ coreMemSize → ∃ t, exec (.coreDmaComplete c false) s
  = .next t ∧ (t.core c).y = memWrite (s.core c).y d.dstAddr b ∧ (t.core c).x = (s.core c).x ∧ (t.core c).dma = rest ∧
  t.mem = s.mem) ∧
  (∀ (c : Nat) (p : Option Nat) (d : DmaDesc) (rest : List (Option Nat × DmaDesc)) (b : List Byte) (s : State),
  s.brewOn = true → c < 16 → c < s.brew.cores.length → (s.core c).dma = (p, d) :: rest → s.dmaRead c p d.src d.srcAddr
  d.len = some b → d.src < 5 → d.dst = 2 → s.clusterOk p d.dstAddr b.length = true → ∃ t, exec (.coreDmaComplete c
  false) s = .next t ∧ t.mem = memWrite s.mem (clusterBase + d.dstAddr) b ∧ (t.core c).x = (s.core c).x ∧ (t.core c).y
  = (s.core c).y ∧ (t.core c).dma = rest) ∧
  (∀ (c : Nat) (p : Option Nat) (d : DmaDesc) (rest : List (Option Nat × DmaDesc)) (b : List Byte) (s : State),
  s.brewOn = true → c < 16 → c < s.brew.cores.length → (s.core c).dma = (p, d) :: rest → s.dmaRead c p d.src d.srcAddr
  d.len = some b → d.src < 5 → d.dst = 3 → p = none → d.dstAddr + b.length ≤ 0xC00000 → ∃ t, exec (.coreDmaComplete c
  false) s = .next t ∧ t.mem = memWrite s.mem (poolBase + d.dstAddr) b ∧ (t.core c).x = (s.core c).x ∧ (t.core c).y =
  (s.core c).y ∧ (t.core c).dma = rest) ∧
  (∀ (c q : Nat) (d : DmaDesc) (rest : List (Option Nat × DmaDesc)) (s : State), s.brewOn = true → c < 16 → c <
  s.brew.cores.length → (s.core c).dma = (some q, d) :: rest → d.src = 3 ∨ d.src = 4 → ∃ t, exec (.coreDmaComplete c
  false) s = .next t ∧ t.brew.faults = satAdd 0xFFFFFFFF s.brew.faults 1 ∧ (t.stat stBrew).has 0 = true ∧
  t.bwf.contained = satAdd 0xFFFFFFFF s.bwf.contained 1) ∧
  (∀ (c p : Nat) (b : List Byte) (m : Moves) (s : State), s.coreReady c = true → (s.core c).movesOk m = true → c <
  s.brew.cores.length → (s.core c).work = some (Work.customer p) → p < s.brew.progs.length → (s.core c).stopping =
  false → ∃ t, exec (.publishOutputRecord c b m) s = .next t ∧ (t.brew.progs.getD p {}).outputs = (s.brew.progs.getD p
  {}).outputs ++ [(⟨b, c, (s.core c).due, (s.core c).aborting, false⟩ : OutRec)] ∧ (t.core c).pc = (s.core c).past.pc)

/-- An exception ends a core's work, counts and raises the contained fault; an abort that is not answered stops the
core, a stop that is not answered takes it out of service. A Lauter record is split over the detection pool, whose
cores end with the Tide's detection record; that is dispatched to the tracking pool, where port A takes the lowest
core, and its end advances the tracks of an unevaluated Tide and steps those of an evaluated one. A record goes to the
program that subscribes to it; a program image loads, and ProgramRun and ProgramStop are taken for the next Tide edge.
Each clause that runs a command concludes that exec answers a next state, under conditions on the state and the
operands alone. -/
def Obligations.CoreFaultsAndDispatch : Prop :=
  (∀ (c cause fitted : Nat) (s : State), s.brewOn = true → c < 16 → c < s.brew.cores.length → cause < 3 → (s.core
  c).running = true → ∃ t, exec (.coreException c cause fitted) s = .next t ∧ ((s.core c).again = none ∨ cause = 2 →
  (t.core c).running = false ∧ (t.core c).work = none) ∧ (cause = 2 → (t.core c).out = true) ∧ t.brew.faults = satAdd
  0xFFFFFFFF s.brew.faults 1 ∧ (t.stat stBrew).has 0 = true ∧ t.bwf.contained = satAdd 0xFFFFFFFF s.bwf.contained 1) ∧
  (∀ (c : Nat) (s : State), s.brewOn = true → c < s.brew.cores.length → (s.core c).aborting = true → ∃ t, exec
  (.coreAbortTimeout c) s = .next t ∧ (t.core c).stopping = true ∧ (t.core c).aborting = false ∧ (t.core c).running =
  (s.core c).running) ∧
  (∀ (c : Nat) (s : State), s.brewOn = true → c < s.brew.cores.length → (s.core c).stopping = true → ∃ t, exec
  (.coreStopTimeout c) s = .next t ∧ (t.core c).out = true ∧ (t.core c).running = false ∧ (t.core c).work = none ∧
  t.brew.faults = satAdd 0xFFFFFFFF s.brew.faults 1) ∧
  (∀ (q : Port) (r : LautRec) (s : State), (s.port q).lautRec = some r → s.brewOn = true → (s.detUse q r.last.nth).on
  = true → (s.port q).det.work = none → s.late r.last.nth = false → s.poolCores (1 + Port.num q) ≠ [] → ∃ t, exec
  (.detectionDispatch q) s = .next t ∧ (t.port q).lautRec = none ∧ (t.port q).det.work = some
  ({ lrec := r, busy := splitRanges (s.poolCores (1 + Port.num q)) (min (s.detUse q r.last.nth).ge r.groups.length) }
  : DetWork) ∧ (∀ c ∈ s.poolCores (1 + Port.num q), c < s.brew.cores.length → (t.core c).running = true ∧ (t.core
  c).work = some (Work.detect q))) ∧
  (∀ (q : Port) (c : Nat) (w : DetWork) (x : Nat × Nat × Nat) (s : State), s.brewOn = true → (s.port q).det.work =
  some w → s.late w.lrec.last.nth = false → w.busy.find? (fun (r : Nat × Nat × Nat) => r.1 == c) = some x → c <
  s.brew.cores.length → w.busy.filter (fun (r : Nat × Nat × Nat) => r.1 != c) ≠ [] → (w.lrec.settling ||
  w.lrec.incomplete) = false → ∃ t, exec (.detectionCoreEnd q c) s = .next t ∧ (t.port q).det.work = some
  ({ w with busy := w.busy.filter (fun (r : Nat × Nat × Nat) => r.1 != c), hots := (Detect.evalRange (s.port q).det (s.detSet q) (s.pn q 0x6010 4) w.lrec w.hots x.2.1 x.2.2).2 }
  : DetWork) ∧ (t.core c).running = false ∧ (t.port q).det.cells = (Detect.evalRange (s.port q).det (s.detSet q) (s.pn
  q 0x6010 4) w.lrec w.hots x.2.1 x.2.2).1.cells ∧ t.mem = ((s.modDet q fun (_ : Detect) => (Detect.evalRange (s.port
  q).det (s.detSet q) (s.pn q 0x6010 4) w.lrec w.hots x.2.1 x.2.2).1).detStore q x.2.1 x.2.2).mem) ∧
  (∀ (q : Port) (c : Nat) (w : DetWork) (x : Nat × Nat × Nat) (s : State), s.brewOn = true → (s.port q).det.work =
  some w → s.late w.lrec.last.nth = false → w.busy.find? (fun (r : Nat × Nat × Nat) => r.1 == c) = some x → c <
  s.brew.cores.length → w.busy.filter (fun (r : Nat × Nat × Nat) => r.1 != c) ≠ [] → (w.lrec.settling ||
  w.lrec.incomplete) = true → ∃ t, exec (.detectionCoreEnd q c) s = .next t ∧ (t.port q).det.work = some
  ({ w with busy := w.busy.filter (fun (r : Nat × Nat × Nat) => r.1 != c) } : DetWork) ∧ (t.core c).running = false ∧
  (t.port q).det.cells = (s.port q).det.cells ∧ t.mem = s.mem) ∧
  (∀ (q : Port) (c : Nat) (w : DetWork) (x : Nat × Nat × Nat) (s : State), s.brewOn = true → (s.port q).det.work =
  some w → s.late w.lrec.last.nth = false → w.busy.find? (fun (r : Nat × Nat × Nat) => r.1 == c) = some x → c <
  s.brew.cores.length → w.busy.filter (fun (r : Nat × Nat × Nat) => r.1 != c) = [] → ∃ t, exec (.detectionCoreEnd q c)
  s = .next t ∧ (t.port q).det.work = none ∧ (t.port q).det.doneTo = w.lrec.last.nth + 1 ∧ (t.core c).running = false
  ∧ ((t.port q).det.done.map fun (r : DetRec) => (r.time, r.tide, r.epoch, r.evaluated)) = some (w.lrec.time,
  w.lrec.last.tide, w.lrec.last.epoch, !(w.lrec.settling || w.lrec.incomplete)) ∧ (t.port q).det.trig = (t.port
  q).det.done) ∧
  (∀ (q : Port) (r : DetRec) (s : State), s.brewOn = true → s.poolCores 3 ≠ [] → (s.port q).det.done = some r →
  s.trkOnAt q r.nth = true → (s.port q).trk.doneTo ≤ r.nth → s.late r.nth = false → (s.port q).trk.work = none →
  (s.detOwed .a ++ s.detOwed .b).all (fun (n : Nat) => decide (r.nth < n)) = true → ∃ t, exec (.trackingDispatch) s =
  .next t ∧ (∃ c ∈ s.poolCores 3, (t.port q).trk.work = some (c, r))) ∧
  (∀ (r : DetRec) (s : State), s.brewOn = true → s.poolCores 3 ≠ [] → s.pa.det.done = some r → s.trkOnAt .a r.nth =
  true → s.pa.trk.doneTo ≤ r.nth → s.late r.nth = false → s.pa.trk.work = none → (s.detOwed .a ++ s.detOwed .b).all
  (fun (n : Nat) => decide (r.nth < n)) = true → ∃ t, exec (.trackingDispatch) s = .next t ∧ t.pa.trk.work = some
  ((s.poolCores 3).getD 0 0, r) ∧ ((s.poolCores 3).getD 0 0 < s.brew.cores.length → (t.core ((s.poolCores 3).getD 0
  0)).running = true ∧ (t.core ((s.poolCores 3).getD 0 0)).work = some (Work.track .a))) ∧
  (∀ (q : Port) (c : Nat) (r : DetRec) (s : State), s.brewOn = true → (s.port q).trk.work = some (c, r) → s.late r.nth
  = false → r.evaluated = false → ∃ t, exec (.trackRecord q) s = .next t ∧ (t.port q).trk.work = none ∧ (t.port
  q).trk.doneTo = r.nth + 1 ∧ (t.port q).trk.ending = [] ∧ ((s.port q).trk.dropAt = none → (t.port q).trk.tracks =
  (s.port q).trk.tracks.map fun (k : Track) => { k with x := k.x.add (k.v.mul (Machine.Num.ofRatio r.cfg.p 1000)) }) ∧
  ((s.port q).trk.dropAt.any (fun (k : Nat) => decide (k ≤ r.nth + 1)) = true → (t.port q).trk.tracks = [])) ∧
  (∀ (q : Port) (c : Nat) (r : DetRec) (s : State), s.brewOn = true → (s.port q).trk.work = some (c, r) → s.late r.nth
  = false → r.evaluated = true → ∃ t, exec (.trackRecord q) s = .next t ∧ (t.port q).trk.work = none ∧ (t.port
  q).trk.doneTo = r.nth + 1 ∧ (t.port q).trk.ending = [] ∧ ((s.port q).trk.dropAt = none → (t.port q).trk.tracks =
  (trackStep (s.port q).trk.tracks (s.port q).trk.serial (s.node * 2 ^ 22 + Port.num q * 2 ^ 21) ((r.entries.filter
  fun (e : DetEntry) => decide (e.state < 2)).map fun (e : DetEntry) => (s.groupPos q r e.peak, e.excess)) r.cfg.p
  (s.pn q 0x6030 2) (s.pn q 0x6030 3) (s.pn q 0x6030 6) (s.pn q 0x6030 7) (s.pn q 0x6030 8) (s.pr q 0x6030 4) (s.pr q
  0x6030 5) r.tide r.time).1) ∧ ((s.port q).trk.dropAt.any (fun (k : Nat) => decide (k ≤ r.nth + 1)) = true → (t.port
  q).trk.tracks = []) ∧ (t.port q).trk.serial = (trackStep (s.port q).trk.tracks (s.port q).trk.serial (s.node * 2 ^
  22 + Port.num q * 2 ^ 21) ((r.entries.filter fun (e : DetEntry) => decide (e.state < 2)).map fun (e : DetEntry) =>
  (s.groupPos q r e.peak, e.excess)) r.cfg.p (s.pn q 0x6030 2) (s.pn q 0x6030 3) (s.pn q 0x6030 6) (s.pn q 0x6030 7)
  (s.pn q 0x6030 8) (s.pr q 0x6030 4) (s.pr q 0x6030 5) r.tide r.time).2.2.2) ∧
  (∀ (q : Port) (r : RingRec) (rest : List RingRec) (p : Nat) (g : Program) (s : State), (s.port q).brewIn = r :: rest
  → s.brewOn = true → p < 4 → p < s.brew.progs.length → Program.subscribes (s.program p) q r = true → Program.take
  (s.program p) q r.bytes = some g → ∃ t, exec (.brewStreamInput q) s = .next t ∧ (t.port q).brewIn = rest ∧ t.program
  p = g) ∧
  (∀ (c : OdCaller) (p : Nat) (v : List Byte) (h : ImageHeader) (s : State), p < 4 → p < s.brew.progs.length → Serves
  s c 2 (objKey (0x9010 + p) 1) → (s.program p).state ≠ 2 → h.crcOk = true → h.length ≤ v.length → v.length ≤ 1024 →
  h.code ≤ 32768 → s.ownerState = 0 → ∃ t, exec (.programImage c p v h) s = .next t ∧ Answered t c 0 ∧ (t.program
  p).state = 1 ∧ (t.program p).image = v.take h.length ∧ (t.program p).hdr = h) ∧
  (∀ (c : OdCaller) (p : Nat) (s : State), p < 4 → Serves s c 1 (objKey (0x9010 + p) 3) → s.canRun p = true → ∃ t,
  exec (.programRun c p) s = .next t ∧ Answered t c 0 ∧ t.objPend (0x9010 + p) 3 = u8 1) ∧
  (∀ (c : OdCaller) (p : Nat) (s : State), p < 4 → Serves s c 1 (objKey (0x9010 + p) 3) → ∃ t, exec (.programStop c p)
  s = .next t ∧ Answered t c 0 ∧ t.objPend (0x9010 + p) 3 = u8 0)

/-- The oldest waiting record is written as one entry at the ring's fill position, tag first, and nothing else in
memory changes; where the write cannot be placed the record is dropped and counted; a gap marker is written when
writing resumes. Each clause that runs a command concludes that exec answers a next state, under conditions on the
state and the operands alone. -/
def Obligations.CellarWriting : Prop :=
  (∀ (q : Port) (x : RingRec) (rest : List RingRec) (s : State), (s.port q).celIn = x :: rest → s.celOn q = true →
  (s.ring q x.ring).n ≠ 0 → (s.ring q x.ring).fill + entrySize x.bytes.length ≤ (s.ring q x.ring).segBytes → s.dramOk
  (s.ring q x.ring).base = true → s.dramOk ((s.ring q x.ring).base + (s.ring q x.ring).n * (s.ring q x.ring).segBytes
  - 1) = true → (s.ring q x.ring).dropN = 0 → ∃ t, exec (.ringEntryWrite q true) s = .next t ∧ (t.port q).celIn = rest
  ∧ t.mem = memWrite s.mem ((s.ring q x.ring).base + (s.ring q x.ring).cur * (s.ring q x.ring).segBytes + (s.ring q
  x.ring).fill) (ringTag x.bytes.length x.type (s.ring q x.ring).gapNext q (s.ring q x.ring).count x.time x.launch ++
  padTo 32 x.bytes) ∧ (t.ring q x.ring).count = ((s.ring q x.ring).count + 1) % 2 ^ 64 ∧ (t.ring q x.ring).fill =
  (s.ring q x.ring).fill + entrySize x.bytes.length ∧ (t.ring q x.ring).cur = (s.ring q x.ring).cur ∧ (t.ring q
  x.ring).gapNext = false) ∧
  (∀ (q : Port) (x : RingRec) (rest : List RingRec) (s : State), (s.port q).celIn = x :: rest → s.celOn q = true →
  (s.ring q x.ring).n ≠ 0 → ∃ t, exec (.ringEntryWrite q false) s = .next t ∧ (t.port q).celIn = rest ∧ (t.ring q
  x.ring).dropN = (s.ring q x.ring).dropN + 1 ∧ t.mem = s.mem ∧ ((s.ring q x.ring).dropN = 0 → t.bwf.contained =
  satAdd 0xFFFFFFFF s.bwf.contained 1 ∧ (t.ring q x.ring).dropTime = x.time ∧ (t.ring q x.ring).dropLaunch =
  x.launch)) ∧
  (∀ (q : Port) (c : Nat) (s : State), s.celOn q = true → (s.ring q c).dropN ≠ 0 → (s.ring q c).n ≠ 0 → (s.ring q
  c).fill + entrySize 16 ≤ (s.ring q c).segBytes → s.dramOk (s.ring q c).base = true → s.dramOk ((s.ring q c).base +
  (s.ring q c).n * (s.ring q c).segBytes - 1) = true → ∃ t, exec (.gapMarkerWrite q c) s = .next t ∧ (t.ring q
  c).dropN = 0 ∧ (t.ring q c).gapNext = true ∧ (t.ring q c).count = ((s.ring q c).count + 1) % 2 ^ 64 ∧ t.mem =
  memWrite s.mem ((s.ring q c).base + (s.ring q c).cur * (s.ring q c).segBytes + (s.ring q c).fill) (ringTag 16 0xC
  (s.ring q c).gapNext q (s.ring q c).count (s.ring q c).dropTime (s.ring q c).dropLaunch ++ padTo 32 (leBytes 8
  (s.ring q c).dropN ++ leBytes 8 (s.ring q c).dropTime)) ∧ (t.stat (stCel q)).has 6 = true)

/-- A detection, the oldest event that waits at an event input, a written time and a trunk message each queue a
resolved trigger for the descriptor of their source; the queue serves the first trigger in order, whose armed
descriptor begins to fill with the trigger's launch, range sample and time. Each clause that runs a command concludes
that exec answers a next state, under conditions on the state and the operands alone. -/
def Obligations.CellarTriggers : Prop :=
  (∀ (q p : Port) (d : Nat) (r : DetRec) (e : DetEntry) (x : PlanRun) (s : State), (s.port q).det.trig = some r →
  s.capsOf (1 + Port.num q) = [d] → s.qualifies d r = some e → p = (if s.nat (capIndex d) 3 = 0 then Port.a else if
  s.nat (capIndex d) 3 = 1 then Port.b else q) → bitOf (s.reg (winCel p) 0) 0 = true → (s.port p).hasPlan = true →
  s.tide.running = true → runAt (s.port p).cel.runs r.time = some x → (s.port p).cel.queue.length < 32 → ((runOfOrd
  (s.port p).cel.runs (x.ordOf (r.tide * x.m))).map (fun (y : PlanRun) => y.time (r.tide * x.m))).getD 0 ≤ s.time.now
  + 1000000000 → ∃ t, exec (.triggerDetection q) s = .next t ∧ (t.port q).det.trig = none ∧ ((t.port p).cel.queue.map
  fun (z : Trigger) => (z.d, z.port, z.ell, z.r)) = ((s.port p).cel.queue.map fun (z : Trigger) => (z.d, z.port,
  z.ell, z.r)) ++ [(d, p, r.tide * x.m, r.cfg.r0 + groupCentre2 r e.peak * r.cfg.pitch / 2 + r.cfg.g / 2)]) ∧
  (∀ (n v d : Nat) (more : List Nat) (r : PlanRun) (e : Nat) (s : State), s.up = true → n < 2 → (s.tiu (2 + n)).events
  = v :: more → (s.tiu (2 + n)).stuck = false → s.capsOf (3 + n) = [d] → bitOf (s.reg (winCel (s.timedPort d)) 0) 0 =
  true → (s.port (s.timedPort d)).hasPlan = true → s.tide.running = true → s.resolve (s.timedPort d) (s.nat (capIndex
  d) 7) (ceilDiv v 1000) = some (r, e) → (s.port (s.timedPort d)).cel.queue.length < 32 → ((runOfOrd (s.port
  (s.timedPort d)).cel.runs (r.ordOf e)).map (fun (x : PlanRun) => x.time e)).getD 0 ≤ s.time.now + 1000000000 → ∃ t,
  exec (.triggerEvtInput n) s = .next t ∧ (t.port (s.timedPort d)).cel.queue = (s.port (s.timedPort d)).cel.queue ++
  [(⟨d, 3 + n, (s.timedPort d), r.ordOf e, e, s.nat (capIndex d) 7, r.time e + 4 * s.nat (capIndex d) 7, false, some
  (ceilDiv v 1000)⟩ : Trigger)] ∧ (t.tiu (2 + n)).events = more) ∧
  (∀ (c : OdCaller) (d v : Nat) (r : PlanRun) (e : Nat) (s : State), d < 16 → 0 < v → v < 2 ^ 64 → Serves s c 1
  (objKey (0x5100 + d) 0xF) → s.nat (capIndex d) 2 = 5 → bitOf (s.reg (winCel (s.timedPort d)) 0) 0 = true → (s.port
  (s.timedPort d)).hasPlan = true → s.tide.running = true → s.resolve (s.timedPort d) (s.nat (capIndex d) 7) (v) =
  some (r, e) → (s.port (s.timedPort d)).cel.queue.length < 32 → ((runOfOrd (s.port (s.timedPort d)).cel.runs (r.ordOf
  e)).map (fun (x : PlanRun) => x.time e)).getD 0 ≤ s.time.now + 1000000000 → ∃ t, exec (.triggerTime c d v) s = .next
  t ∧ Answered t c 0 ∧ (t.port (s.timedPort d)).cel.queue = (s.port (s.timedPort d)).cel.queue ++ [(⟨d, 5,
  (s.timedPort d), r.ordOf e, e, s.nat (capIndex d) 7, r.time e + 4 * s.nat (capIndex d) 7, false, some (v)⟩ :
  Trigger)]) ∧
  (∀ (inp : LinkPort) (f : Frame) (d : Nat) (r : PlanRun) (e : Nat) (s : State), s.up = true → s.carries inp = true →
  (s.ingress inp f).1 = true → s.chnOn = true → s.takes f = true → s.capsOf 6 = [d] → (s.cap d).state = 1 ∨ (s.cap
  d).state = 2 → bitOf (s.reg (winCel (s.timedPort d)) 0) 0 = true → (s.port (s.timedPort d)).hasPlan = true →
  s.tide.running = true → s.resolve (s.timedPort d) (s.nat (capIndex d) 7) (f.fields.getD 0 0) = some (r, e) → (s.port
  (s.timedPort d)).cel.queue.length < 32 → ((runOfOrd (s.port (s.timedPort d)).cel.runs (r.ordOf e)).map (fun (x :
  PlanRun) => x.time e)).getD 0 ≤ s.time.now + 1000000000 → ∃ t, exec (.triggerTrunkMessage inp f) s = .next t ∧
  (t.port (s.timedPort d)).cel.queue = (s.port (s.timedPort d)).cel.queue ++ [(⟨d, 6, (s.timedPort d), r.ordOf e, e,
  s.nat (capIndex d) 7, r.time e + 4 * s.nat (capIndex d) 7, true, some (f.fields.getD 0 0)⟩ : Trigger)]) ∧
  (∀ (q : Port) (t0 : Trigger) (rest : List Trigger) (x : Nat × RingEntry) (s : State), (s.port q).cel.queue.map
  s.resolved = t0 :: rest → s.celOn q = true → ((s.ring q 0).entries.filter fun (z : Nat × RingEntry) => z.2.type ==
  1).getLast? = some x → (rest.foldl (fun (m x : Trigger) => if x.before m then x else m) t0).ord ≤ x.2.ord →
  (rest.foldl (fun (m x : Trigger) => if x.before m then x else m) t0).d < s.caps.length → (s.cap (rest.foldl (fun (m
  x : Trigger) => if x.before m then x else m) t0).d).state = 1 → s.ident.holdOff = false → (s.cap (rest.foldl (fun (m
  x : Trigger) => if x.before m then x else m) t0).d).lastAcc = none → s.tooLate (rest.foldl (fun (m x : Trigger) =>
  if x.before m then x else m) t0) = false → ∃ t, exec (.triggerQueueServe q) s = .next t ∧ (t.port q).cel.queue = (t0
  :: rest).erase (rest.foldl (fun (m x : Trigger) => if x.before m then x else m) t0) ∧ (t.cap (rest.foldl (fun (m x :
  Trigger) => if x.before m then x else m) t0).d).state = 2 ∧ (t.cap (rest.foldl (fun (m x : Trigger) => if x.before m
  then x else m) t0).d).ell = (rest.foldl (fun (m x : Trigger) => if x.before m then x else m) t0).ell ∧ (t.cap
  (rest.foldl (fun (m x : Trigger) => if x.before m then x else m) t0).d).r = (rest.foldl (fun (m x : Trigger) => if
  x.before m then x else m) t0).r ∧ (t.cap (rest.foldl (fun (m x : Trigger) => if x.before m then x else m)
  t0).d).time = (rest.foldl (fun (m x : Trigger) => if x.before m then x else m) t0).time ∧ (t.stat (stCel (rest.foldl
  (fun (m x : Trigger) => if x.before m then x else m) t0).port)).has 0 = true)

/-- A capture that is full or whose window has passed freezes; one is armed, and disarmed from armed or, flagged, from
filling; a released one holds no segment any more. An export job starts on a frozen capture; it ends once no engine
job of it runs, leaving the capture frozen or released as AutoRelease says, and a failed or aborted one leaves it
frozen. Each clause that runs a command concludes that exec answers a next state, under conditions on the state and
the operands alone. -/
def Obligations.Captures : Prop :=
  (∀ (d : Nat) (s : State), d < s.caps.length → (s.cap d).state = 2 → (s.cap d).full = true ∨ s.windowDone d = true →
  ∃ t, exec (.captureFreeze d) s = .next t ∧ (t.cap d).state = 3 ∧ t.obj (capIndex d) 1 = [0] ∧ (t.stat (stCel (s.cap
  d).port)).has 1 = true) ∧
  (∀ (c : OdCaller) (d : Nat) (s : State), d < 16 → d < s.caps.length → Serves s c 1 (objKey (0x5100 + d) 1) → (s.cap
  d).state < 2 → ∃ t, exec (.captureArm c d) s = .next t ∧ Answered t c 0 ∧ (t.cap d).state = 1 ∧ t.obj (capIndex d) 1
  = [1]) ∧
  (∀ (c : OdCaller) (d : Nat) (s : State), d < 16 → d < s.caps.length → Serves s c 1 (objKey (0x5100 + d) 1) → (s.cap
  d).state = 1 → ∃ t, exec (.captureDisarm c d) s = .next t ∧ Answered t c 0 ∧ (t.cap d).state = 0) ∧
  (∀ (c : OdCaller) (d : Nat) (s : State), d < 16 → d < s.caps.length → Serves s c 1 (objKey (0x5100 + d) 1) → (s.cap
  d).state = 2 → ∃ t, exec (.captureDisarm c d) s = .next t ∧ Answered t c 0 ∧ (t.cap d).state = 3 ∧ bitOf (t.cap
  d).flags 1 = true) ∧
  (∀ (c : OdCaller) (d : Nat) (s : State), d < 16 → d < s.caps.length → Serves s c 1 (objKey (0x5100 + d) 0x16) →
  (s.cap d).state ≠ 2 → (s.cap d).state ≠ 4 → ∃ t, exec (.captureRelease c d) s = .next t ∧ Answered t c 0 ∧ (t.cap
  d).state = 0 ∧ (∀ (q : Port) (i j : Nat), d ∉ ((t.ring q i).seg j).held)) ∧
  (∀ (c : OdCaller) (d : Nat) (s : State), d < 16 → d < s.caps.length → Serves s c 1 (objKey (0x5100 + d) 0x17) →
  (s.cap d).state = 3 → ∃ t, exec (.exportRaw c d) s = .next t ∧ Answered t c 0 ∧ (t.cap d).state = 4 ∧ (t.cap d).job
  = 1) ∧
  (∀ (c : OdCaller) (d : Nat) (s : State), d < 16 → d < s.caps.length → Serves s c 1 (objKey (0x5100 + d) 0x17) →
  (s.cap d).state = 3 → ∃ t, exec (.exportCaskPcie c d) s = .next t ∧ Answered t c 0 ∧ (t.cap d).state = 4 ∧ (t.cap
  d).job = 2) ∧
  (∀ (c : OdCaller) (d : Nat) (s : State), d < 16 → d < s.caps.length → Serves s c 1 (objKey (0x5100 + d) 0x17) →
  (s.cap d).state = 3 → ∃ t, exec (.exportCaskTrunk c d) s = .next t ∧ Answered t c 0 ∧ (t.cap d).state = 4 ∧ (t.cap
  d).job = 3) ∧
  (∀ (c : OdCaller) (d : Nat) (s : State), d < 16 → d < s.caps.length → Serves s c 1 (objKey (0x5100 + d) 0x17) →
  (s.cap d).state = 4 → ∃ t, exec (.exportAbort c d) s = .next t ∧ Answered t c 0 ∧ (t.cap d).state = 3) ∧
  (∀ (d : Nat) (errs : List (Nat × List Nat)) (s : State), d < s.caps.length → (s.cap d).state = 4 → (s.cap d).job = 1
  ∨ s.cask.jobs.any (fun (x : ExportJob) => x.d == d) = false → ∃ t, exec (.exportJobEnd d true errs) s = .next t ∧
  (t.cap d).state = (if (s.cap d).failed = false ∧ s.nat (capIndex d) 0xD = 1 then 0 else 3)) ∧
  (∀ (d : Nat) (errs : List (Nat × List Nat)) (s : State), d < s.caps.length → (s.cap d).state = 4 → (s.cap d).job ≠ 1
  → s.cask.jobs.any (fun (x : ExportJob) => x.d == d) = true → ∃ t, exec (.exportJobEnd d true errs) s = .next t ∧ t =
  s) ∧
  (∀ (d : Nat) (errs : List (Nat × List Nat)) (s : State), d < s.caps.length → (s.cap d).state = 4 → ∃ t, exec
  (.exportJobEnd d false errs) s = .next t ∧ (t.cap d).state = 3)

/-- Without an error of a transfer or a device, a write by an initiator that reaches the line stores its 32 bytes and
nothing else, a partial write merges its bytes into the line, and a read returns the line's bytes with its tag and
poison flag and changes no byte; a read that reaches no line gives a bus error. Each clause that runs a command
concludes that exec answers a next state, under conditions on the state and the operands alone. -/
def Obligations.DramAccesses : Prop :=
  (∀ (init addr : Nat) (data : List Byte) (tag : Nat) (poison act : Bool) (s : State), s.dramReach init addr true =
  true → data.length = 32 → ∃ t, exec (.dramWrite init addr data tag poison [] act) s = .next t ∧ t.mem = memWrite
  s.mem (32 * (addr / 32)) data ∧ t.lineInfo (addr / 32) = bit poison + 2 * (tag % 8)) ∧
  (∀ (init addr : Nat) (data : List Byte) (tag : Nat) (poison act : Bool) (s : State), s.dramReach init addr true =
  true → addr % 32 + data.length ≤ 32 → ∃ t, exec (.dramPartialWrite init addr data tag poison [] [] none act) s =
  .next t ∧ t.mem = memWrite s.mem (32 * (addr / 32)) ((s.read (32 * (addr / 32)) 32).take (addr % 32) ++ data ++
  (s.read (32 * (addr / 32)) 32).drop (addr % 32 + data.length)) ∧ t.lineInfo (addr / 32) = bit (poison || s.lineInfo
  (addr / 32) % 2 == 1) + 2 * (tag % 8)) ∧
  (∀ (init addr : Nat) (act : Bool) (s : State), s.dramReach init addr false = true → ∃ t, exec (.dramRead init addr
  [] none act) s = .next t ∧ t.mem = s.mem ∧ t.out.head? = some (Output.word init (32 * (addr / 32)) (s.read (32 *
  (addr / 32)) 32) (s.lineInfo (addr / 32) / 2 % 8) (s.lineInfo (addr / 32) % 2 == 1))) ∧
  (∀ (init addr : Nat) (flips : List Nat) (wrong : Option Nat) (act : Bool) (s : State), s.dramReach init addr false =
  false → ∃ t, exec (.dramRead init addr flips wrong act) s = .next t ∧ t.mem = s.mem ∧ t.out.head? = some
  (Output.readData init 0 true))

/-- Training fixes the channels in use and enables the controller, a rank retired under the same configuration
counting as failed (the model's choice, log 175); a calibration goes to every awake rank; refreshes are issued, or
postponed up to eight, and issued later; a failed or hot poll marks its channel hot; a rank enters power-down; the
patrol scrub walks the lines in ascending address (log 50) and starts anew at the end; the correctable error window
restarts; a retirement begins its rank's migration, whose end retires the rank for good in self-refresh. Each clause
that runs a command concludes that exec answers a next state, under conditions on the state and the operands alone. -/
def Obligations.DramUpkeep : Prop :=
  (∀ (fails : Nat) (s : State), s.alive = true → s.domain 2 = true → ∃ t, exec (.dramTraining fails) s = .next t ∧
  t.dram.trained = true ∧ t.dram.chans = usedChans s.cfgChans (fun (ch : Nat) => (upTo s.ranksPer).all fun (cs : Nat)
  => trainRank s.cfgChans s.ranksPer (bitOf s.ddrcCfg 3) (fails ||| (if s.flash.retiredCfg = s.ddrcCfg then
  s.flash.retired else 0)) (3 * ch + cs) != 1) ∧ bitOf (t.reg 0x2A 0) 0 = true) ∧
  (∀ (s : State), s.dram.trained = true → ∃ t, exec (.zqShortCal) s = .next t ∧ t.out = (s.awake.map fun (r : Nat) =>
  Output.dram r 1 0 0).reverse ++ s.out) ∧
  (∀ (ch cs : Nat) (s : State), s.activeRank ch cs = true → (3 * ch + cs) < s.dram.backlog.length →
  s.dram.backlog.getD (3 * ch + cs) 0 < 8 → ∃ t, exec (.refreshDue ch cs true) s = .next t ∧ t.dram.backlog.getD (3 *
  ch + cs) 0 = s.dram.backlog.getD (3 * ch + cs) 0 + 1 ∧ t.out = s.out) ∧
  (∀ (ch cs : Nat) (queued : Bool) (s : State), s.activeRank ch cs = true → queued = false ∨ 8 ≤ s.dram.backlog.getD
  (3 * ch + cs) 0 → ∃ t, exec (.refreshDue ch cs queued) s = .next t ∧ t.dram.backlog = s.dram.backlog ∧ t.out =
  Output.dram (s.rankAt ch cs) 0 0 0 :: s.out ∧ (3 * ch + cs) ∉ t.dram.asleep) ∧
  (∀ (ch cs : Nat) (s : State), s.activeRank ch cs = true → 0 < s.dram.backlog.getD (3 * ch + cs) 0 → ∃ t, exec
  (.postponedRefreshIssue ch cs) s = .next t ∧ t.dram.backlog.getD (3 * ch + cs) 0 = s.dram.backlog.getD (3 * ch + cs)
  0 - 1 ∧ t.out = Output.dram (s.rankAt ch cs) 0 0 0 :: s.out) ∧
  (∀ (ch : Nat) (status : List (Option Bool)) (s : State), s.dram.trained = true → s.nat 0x5081 1 = 0 → ch ∈
  s.dram.chans → s.dram.chans.Nodup → ∃ t, exec (.dramTemperaturePoll status) s = .next t ∧ bitOf t.dram.hot ch =
  (status.getD ch none).getD true ∧ (∀ r ∈ s.awake, Output.dram r 5 0 0 ∈ t.out)) ∧
  (∀ (ch cs : Nat) (s : State), s.activeRank ch cs = true → bitOf (s.reg 0x2A 0) 2 = true → s.nat 0x5081 4 ≠ 0 → (3 *
  ch + cs) ∉ s.dram.asleep → ∃ t, exec (.powerDownEntry ch cs) s = .next t ∧ t.dram.asleep = s.dram.asleep ++ [(3 * ch
  + cs)] ∧ t.out = Output.dram (s.rankAt ch cs) 3 0 0 :: s.out) ∧
  (∀ (act : Bool) (s : State), s.dramOk (32 * s.dram.scrubAt) = true → bitOf (s.reg 0x2A 0) 1 = true → ∃ t, exec
  (.scrubLine [] none act) s = .next t ∧ t.dram.scrubAt = (if (s.dram.scrubAt + 1) * 32 < s.activeMib * 2 ^ 20 then
  s.dram.scrubAt + 1 else 0) ∧ t.dram.passes = (if (s.dram.scrubAt + 1) * 32 < s.activeMib * 2 ^ 20 then s.dram.passes
  else satAdd 0xFFFFFFFF s.dram.passes 1) ∧ t.mem = s.mem) ∧
  (∀ (s : State), s.domain 2 = true → ∃ t, exec (.ceWindowExpiry) s = .next t ∧ t.dram.ce = List.replicate 12 0) ∧
  (∀ (c : OdCaller) (rank : Nat) (s : State), rank < 12 → Serves s c 2 (objKey 0x5083 1) → rank ∈ s.inService →
  s.canMigrate rank = true → ∃ t, exec (.rankRetire c rank) s = .next t ∧ Answered t c 0 ∧ ((t.migOf (rank / 3)).map
  fun (m : Migration) => (m.rank, m.start, m.copied)) = some (rank, s.time.now, 0) ∧ (t.stat stDdrc).has 5 = true ∧
  t.dram.lastMig = some (rank / 3)) ∧
  (∀ (ch : Nat) (errs : List (Nat × List Nat)) (m : Migration) (s : State), s.migOf ch = some m → ∃ t, exec
  (.migrationCopyEnd ch errs) s = .next t ∧ (t.out.filter (fun (o : Output) => o != Output.vector 0)).head? = some
  (Output.dram m.rank 6 0 0) ∧ bitOf t.flash.retired m.rank = true ∧ t.flash.retiredCfg = s.ddrcCfg ∧ ((lookup ch
  t.dram.migs).map fun (m : Migration) => (m.state, m.copied)) = some (3, s.rankMib) ∧ bitOf t.dram.retired m.rank =
  true ∧ (t.stat stDdrc).has 6 = true)

/-- A submitted descriptor joins the engine's queue, the head of the queue becomes the running job as its descriptor
says, a job ends with its status bit, and an abort or a flush ends it and empties the queue. Each clause that runs a
command concludes that exec answers a next state, under conditions on the state and the operands alone. -/
def Obligations.CaskJobs : Prop :=
  (∀ (init e v : Nat) (s : State), e < 3 → Writes s init (0x30 + e) → v < 2 ^ 32 → e < s.cask.engs.length → (s.eng
  e).queue.length < 16 → ∃ t, exec (.caskSubmit init e v) s = .next t ∧ (t.eng e).queue = (s.eng e).queue ++ [s.reg
  (0x30 + e) 0xC % 256 * 2 ^ 32 + v / 64 % 2 ^ 26 * 64] ∧ (t.eng e).job = (s.eng e).job) ∧
  (∀ (e a : Nat) (rest : List Nat) (d : List Byte) (p : Bool) (s : State), s.caskOn e = true → e < s.cask.engs.length
  → (s.eng e).queue = a :: rest → (s.eng e).job = none → (s.fabRead a 64).1 = some (d, p) → ∃ t, exec (.caskJobStart
  e) s = .next t ∧ (t.eng e).queue = rest ∧ (t.eng e).job = some (caskParse a d)) ∧
  (∀ (e : Nat) (errs : List (Nat × List Nat)) (j : CaskJob) (s : State), s.caskOn e = true → e < s.cask.engs.length →
  (s.eng e).job = some j → ∃ t, exec (.caskJobEnd e errs) s = .next t ∧ (t.eng e).job = none ∧ (s.cask.jobs = [] →
  (t.eng e).queue = (s.eng e).queue) ∧ (t.stat (stCask e)).has (caskStatBit (s.caskRun e j.fuel errs j).2.2) = true) ∧
  (∀ (init e : Nat) (j : CaskJob) (s : State), e < 3 → Writes s init (0x30 + e) → e < s.cask.engs.length → (s.eng
  e).job = some j → ∃ t, exec (.caskAbort init e) s = .next t ∧ (t.eng e).job = none ∧ (s.cask.jobs = [] → (t.eng
  e).queue = (s.eng e).queue) ∧ (t.stat (stCask e)).has 2 = true) ∧
  (∀ (init e : Nat) (s : State), e < 3 → Writes s init (0x30 + e) → e < s.cask.engs.length → bitOf (s.reg (0x30 + e)
  0) 0 = true → ∃ t, exec (.caskDisableFlush init e) s = .next t ∧ (t.eng e).job = none ∧ (t.eng e).queue = [] ∧ bitOf
  (t.reg (0x30 + e) 0) 0 = false)

/-- With OCXO_RDY wired the oscillator is warm once that has been high for 1 s; unwired, with GNSS valid or a servo
estimate, once successive frequency measurements are steady; with neither, once WarmupTimeout has passed; a warm-up
changes no fault and no status. An alarm after warm-up sets OCXO_ALARM and is a contained fault, and nothing of the
time base changes. A PLL that locks reads locked; one that was locked and loses lock is a fatal fault. A synthesiser
that loses lock sets both SYN_UNLOCK bits and marks the launches whose Kiln shots have not come; it relocks. Each
clause that runs a command concludes that exec answers a next state, under conditions on the state and the operands
alone. -/
def Obligations.OscillatorAndPlls : Prop :=
  (∀ (rdyMs upS : Nat) (freqs : List Int) (s : State), s.up = true → s.nat 0x1200 8 = 1 → 1000 ≤ rdyMs → ∃ t, exec
  (.ocxoWarm rdyMs freqs upS) s = .next t ∧ t.time.warm = true ∧ t.power.ocxoRdy = (s.power.ocxoRdy || decide (0 <
  rdyMs)) ∧ t.bwf = s.bwf ∧ t.stats = s.stats) ∧
  (∀ (rdyMs upS : Nat) (freqs : List Int) (s : State), s.up = true → s.nat 0x1200 8 ≠ 1 → s.time.gnss = 2 ∨
  s.time.synced = true → s.steady freqs = true → ∃ t, exec (.ocxoWarm rdyMs freqs upS) s = .next t ∧ t.time.warm =
  true ∧ t.power.ocxoRdy = (s.power.ocxoRdy || decide (0 < rdyMs)) ∧ t.bwf = s.bwf ∧ t.stats = s.stats) ∧
  (∀ (rdyMs upS : Nat) (freqs : List Int) (s : State), s.up = true → s.nat 0x1200 8 ≠ 1 → s.time.gnss ≠ 2 →
  s.time.synced = false → s.nat 0x1200 0xB ≤ upS → ∃ t, exec (.ocxoWarm rdyMs freqs upS) s = .next t ∧ t.time.warm =
  true ∧ t.power.ocxoRdy = (s.power.ocxoRdy || decide (0 < rdyMs)) ∧ t.bwf = s.bwf ∧ t.stats = s.stats) ∧
  (∀ (rdyFell : Bool) (s : State), s.up = true → s.time.warm = true → ∃ t, exec (.ocxoAlarm rdyFell) s = .next t ∧
  (t.stat stTime).has 7 = true ∧ t.bwf.contained = satAdd 0xFFFFFFFF s.bwf.contained 1 ∧ t.time = s.time ∧
  t.power.ocxoRdy = (s.power.ocxoRdy && !rdyFell)) ∧
  (∀ (which : Nat) (s : State), s.alive = true → which < 3 → ∃ t, exec (.pllLock which) s = .next t ∧ t.power.pllS =
  (s.power.pllS || which == 0) ∧ t.power.pllD = (s.power.pllD || which == 1) ∧ t.power.pllF = (s.power.pllF || which
  == 2)) ∧
  (∀ (which : Nat) (s : State), s.alive = true → (which = 0 ∧ s.power.pllS = true) ∨ (which = 1 ∧ s.power.pllD = true)
  ∨ (which = 2 ∧ s.power.pllF = true) → ∃ t, exec (.pllLossOfLock which) s = .next t ∧ t = s.fatal 0x38 which 2 3) ∧
  (∀ (p : Port) (s : State), s.alive = true → (s.port p).syn.on = true → (s.port p).syn.locked = true → ∃ t, exec
  (.synthUnlock p) s = .next t ∧ (t.port p).syn.locked = false ∧ (t.stat stTime).has 4 = true ∧ (t.stat (stKiln
  p)).has 5 = true ∧ ∀ l ∈ (t.port p).kiln.flight, l.synOff = true) ∧
  (∀ (p : Port) (s : State), s.alive = true → (s.port p).syn.on = true → ∃ t, exec (.synthRelock p) s = .next t ∧ t =
  s.modPort p (fun (x : PortState) => { x with syn := { x.syn with locked := true } }))

/-- The rate y after a sample is a free value within the servo's limits: no clause says which (log 22). Each clause
that runs a command concludes that exec answers a next state, under conditions on the state and the operands alone. -/
def Obligations.TimeStateAndServo : Prop :=
  (∀ (dtMs : Nat) (o : Int) (s : State), s.up = true → s.time.offset = some o → s.time.tideRan = true ∨ o.natAbs ≤
  s.nat 0x2000 4 → -10000000 ≤ s.time.y → s.time.y ≤ 10000000 → ∃ t, exec (.servoSample dtMs) s = .next t ∧
  t.time.theta = o ∧ t.time.offset = none ∧ t.time.now = s.time.now ∧ t.time.lockRun = (if o.natAbs < s.nat 0x1200 5
  then s.time.lockRun + 1 else 0) ∧ (t.time.y - s.time.y).natAbs ≤ 100 * dtMs ∧ t.time.y.natAbs ≤ 10000000 ∧
  (s.time.state = 3 → t.time.y = s.time.y)) ∧
  (∀ (dtMs : Nat) (o : Int) (s : State), s.up = true → s.time.offset = some o → s.time.tideRan = false → s.nat 0x2000
  4 < o.natAbs → ∃ t, exec (.servoSample dtMs) s = .next t ∧ t.time.theta = 0 ∧ t.time.offset = none ∧ t.time.now =
  (s.time.now - o).toNat) ∧
  (∀ (s : State), s.up = true → s.time.state = 1 ∨ s.time.state = 3 → 16 ≤ s.time.lockRun → ∃ t, exec (.timeLock) s =
  .next t ∧ t.time.state = 2 ∧ (t.stat stTime).has 0 = true) ∧
  (∀ (at_ : Nat) (s : State), s.up = true → s.time.state = 2 → s.gnssSource = false → s.time.syncAt + 8 * s.syncNs ≤
  at_ → ∃ t, exec (.timeHoldover at_) s = .next t ∧ t.time.state = 3 ∧ t.time.lockRun = 0 ∧ t.time.offset = none ∧
  (t.stat stTime).has 0 = true) ∧
  (∀ (at_ : Nat) (s : State), s.up = true → s.time.state = 2 → s.gnssSource = true → s.time.gnss ≠ 2 → s.time.gnssAt +
  3000000000 ≤ at_ → ∃ t, exec (.timeHoldover at_) s = .next t ∧ t.time.state = 3 ∧ t.time.lockRun = 0 ∧ t.time.offset
  = none ∧ (t.stat stTime).has 0 = true) ∧
  (∀ (s : State), s.up = true → s.time.state = 3 → ∃ t, exec (.holdoverLimit) s = .next t ∧ t.time.state = 1 ∧ (t.stat
  stTime).has 0 = true) ∧
  (∀ (s : State), s.up = true → s.time.state = 2 → ∃ t, exec (.rtcWriteBack) s = .next t ∧ t.aon.rtc = (s.time.now -
  s.leapNs).toNat ∧ t.aon.rtcValid = true ∧ t.time = s.time) ∧
  (∀ (s : State), s.up = true → s.role = 2 → s.time.gnss ≠ 2 → s.time.state ≠ 2 → s.nat 0x1200 0xD = 1 → ∃ t, exec
  (.gnssWaitExpiry) s = .next t ∧ t.time.state = 2 ∧ t.time.gmFree = true ∧ t.time.gmOn = true ∧ (t.stat stTime).has 0
  = true)

/-- A grandmaster sends Sync with Follow_Up, which carries the Sync's hardware timestamp corrected by the port's
latency and the same sequence number, and Announce, on its trunks, with EtherType 0x88F7 and class 1; every node sends
peer delay requests on both trunks. A received Follow_Up gives a slave its offset, corrected by the port's latency,
the correction field, the link delay and the asymmetry; a relay sends it on through the other trunk with its
residence, both ports' latencies, the link delay and the asymmetry added to the correction; a peer delay response
gives the link's delay, corrected by the port's latency at both ends; a request is answered with its own times so
corrected. Each clause that runs a command concludes that exec answers a next state, under conditions on the state and
the operands alone. -/
def Obligations.PrecisionTime : Prop :=
  (∀ (tw te tl : Int) (s : State), s.up = true → s.grandmaster = true → (s.chain.w.up = true ∧ s.chain.e.up = true ∧
  s.chain.localUp = false) → ∃ t, exec (.ptpSyncSend tw te tl) s = .next t ∧ t.out = [Output.ptp .e 0x88F7 1
  ptpFollowUp (s.nat 0x1210 1) [s.time.syncSeq, te + s.portLatency .e, 0], Output.ptp .e 0x88F7 1 ptpSync (s.nat
  0x1210 1) [s.time.syncSeq], Output.ptp .w 0x88F7 1 ptpFollowUp (s.nat 0x1210 1) [s.time.syncSeq, tw + s.portLatency
  .w, 0], Output.ptp .w 0x88F7 1 ptpSync (s.nat 0x1210 1) [s.time.syncSeq]] ++ s.out ∧ t.time.syncSeq =
  (s.time.syncSeq + 1) % 0x10000) ∧
  (∀ (s : State), s.up = true → s.chain.w.up = true → s.chain.e.up = true → ∃ t, exec (.pdelayReqSend) s = .next t ∧
  t.out = [Output.ptp .e 0x88F7 1 ptpPdelayReq (s.nat 0x1210 1) [s.time.reqSeq], Output.ptp .w 0x88F7 1 ptpPdelayReq
  (s.nat 0x1210 1) [s.time.reqSeq]] ++ s.out ∧ t.time.reqSeq = (s.time.reqSeq + 1) % 0x10000) ∧
  (∀ (s : State), s.up = true → s.grandmaster = true → (s.chain.w.up = true ∧ s.chain.e.up = true ∧ s.chain.localUp =
  false) → ∃ t, exec (.announceSend) s = .next t ∧ t.out = [Output.ptp .e 0x88F7 1 ptpAnnounce (s.nat 0x1210 1)
  [(s.clockClass : Int), bit (!s.time.gmFree && s.time.state != 1)], Output.ptp .w 0x88F7 1 ptpAnnounce (s.nat 0x1210
  1) [(s.clockClass : Int), bit (!s.time.gmFree && s.time.state != 1)]] ++ s.out) ∧
  (∀ (q : LinkPort) (seq : Nat) (t1 t2 t3 t4 corr res : Int) (s : State), s.up = true → s.ptpPort q = true →
  s.gnssSource = false → q ≠ LinkPort.lan → s.towardManager q = true → ∃ t, exec (.ptpEventFrame q ptpFollowUp (s.nat
  0x1210 1) seq t1 t2 t3 t4 corr res) s = .next t ∧ t.time.offset = some ((t2 - s.portLatency q - t1 - corr -
  s.meanDelay q - s.asymmetry q) / 1000) ∧ t.time.syncAt = (t2 / 1000).toNat) ∧
  (∀ (seq : Nat) (t1 t2 t3 t4 corr res : Int) (s : State), s.up = true → s.chain.w.up = true → s.chain.e.up = true →
  s.chain.iAct = false → ∃ t, exec (.ptpEventFrame .w ptpFollowUp (s.nat 0x1210 1) seq t1 t2 t3 t4 corr res) s = .next
  t ∧ t.out = Output.ptp .e 0x88F7 1 ptpFollowUp (s.nat 0x1210 1) [seq, t1, corr + res + s.portLatency .w +
  s.portLatency .e + s.meanDelay .w + s.asymmetry .w] :: s.out) ∧
  (∀ (q : LinkPort) (seq : Nat) (t1 t2 t3 t4 corr res : Int) (s : State), s.up = true → s.ptpPort q = true → q =
  LinkPort.w → ∃ t, exec (.ptpEventFrame q ptpPdelayFollowUp (s.nat 0x1210 1) seq t1 t2 t3 t4 corr res) s = .next t ∧
  t.time.delayW = (clampI 0 0xFFFFFFFF (((t4 - s.portLatency q - (t1 + s.portLatency q)) - (t3 - t2) - corr) /
  2)).toNat ∧ t.out = s.out) ∧
  (∀ (q : LinkPort) (seq : Nat) (t1 t2 t3 t4 corr res : Int) (s : State), s.up = true → s.ptpPort q = true → q =
  LinkPort.e → ∃ t, exec (.ptpEventFrame q ptpPdelayFollowUp (s.nat 0x1210 1) seq t1 t2 t3 t4 corr res) s = .next t ∧
  t.time.delayE = (clampI 0 0xFFFFFFFF (((t4 - s.portLatency q - (t1 + s.portLatency q)) - (t3 - t2) - corr) /
  2)).toNat ∧ t.out = s.out) ∧
  (∀ (q : LinkPort) (seq : Nat) (t1 t2 t3 t4 corr res : Int) (s : State), s.up = true → s.ptpPort q = true → q ≠
  LinkPort.lan → ∃ t, exec (.ptpEventFrame q ptpPdelayReq (s.nat 0x1210 1) seq t1 t2 t3 t4 corr res) s = .next t ∧
  t.out = [Output.ptp q 0x88F7 1 ptpPdelayFollowUp (s.nat 0x1210 1) [seq, t3 + s.portLatency q], Output.ptp q 0x88F7 1
  ptpPdelayResp (s.nat 0x1210 1) [seq, t2 - s.portLatency q]] ++ s.out ∧ t.time = s.time)

/-- A good sentence that comes within 900 ms after a PPS edge gives the edge its second and, with the third second in
step, makes GNSS valid; any other sentence sets TOD_ERR and changes no second. The GNSS logic takes PPS events oldest
first. While GNSS is valid an edge away from 1 s after the last is ignored, counted and shown, and the third in a row
ends validity; every other edge becomes the last, and the run of good seconds goes on only where it is 1 s after the
one before and that had its second. Each clause that runs a command concludes that exec answers a next state, under
conditions on the state and the operands alone. -/
def Obligations.GnssInputs : Prop :=
  (∀ (kind second at_ p : Nat) (sumOk statusA : Bool) (s : State), s.up = true → s.nat 0x1220 1 = 1 → s.time.edgeAt =
  some p → (kind < 2 ∧ (s.nat 0x1220 3 = 2 ∨ s.nat 0x1220 3 = kind) ∧ sumOk = true ∧ (kind = 0 ∨ statusA = true) ∧ p ≤
  1000 * at_ ∧ 1000 * at_ ≤ p + 900000000000) → s.time.edgeSkip = false → s.time.sec = none → ∃ t, exec (.todSentence
  kind sumOk statusA second at_) s = .next t ∧ t.time.sec = some second ∧ t.time.now = (s.advance at_).time.now ∧
  t.time.ppsRun = (if s.time.stepOk = true ∧ s.time.prevSec.map (· + 1) = some second then s.time.ppsRun + 1 else 0) ∧
  t.time.gnss = (if 3 ≤ (if s.time.stepOk = true ∧ s.time.prevSec.map (· + 1) = some second then s.time.ppsRun + 1
  else 0) then 2 else s.time.gnss) ∧ t.stats = s.stats) ∧
  (∀ (kind second at_ p : Nat) (sumOk statusA : Bool) (s : State), s.up = true → s.nat 0x1220 1 = 1 → s.time.edgeAt =
  some p → ¬ (kind < 2 ∧ (s.nat 0x1220 3 = 2 ∨ s.nat 0x1220 3 = kind) ∧ sumOk = true ∧ (kind = 0 ∨ statusA = true) ∧ p
  ≤ 1000 * at_ ∧ 1000 * at_ ≤ p + 900000000000) → ∃ t, exec (.todSentence kind sumOk statusA second at_) s = .next t ∧
  (t.stat stTime).has 6 = true ∧ t.time.sec = s.time.sec ∧ t.time.gnss = s.time.gnss) ∧
  (∀ (at_ : Nat) (p : Int) (more : List Nat) (s : State), s.up = true → s.nat 0x1220 1 = 1 → (s.tiu 0).events = at_ ::
  more → 0 < s.time.inputs.length → s.time.lastPps = some p → s.time.gnss = 2 → ¬ (p + 999999000000 ≤ ((at_ : Int) -
  s.int 32 0x1220 4) ∧ ((at_ : Int) - s.int 32 0x1220 4) ≤ p + 1000001000000) → ∃ t, exec (.ppsEdge) s = .next t ∧
  t.time.jumpCount = satAdd 0xFFFFFFFF s.time.jumpCount 1 ∧ (t.stat stTime).has 5 = true ∧ t.time.gnss = (if 3 ≤
  s.time.jumps + 1 then 1 else 2) ∧ t.time.offset = s.time.offset ∧ t.time.lastPps = (if 3 ≤ s.time.jumps + 1 then
  some ((at_ : Int) - s.int 32 0x1220 4) else some p) ∧ (t.tiu 0).events = more) ∧
  (∀ (at_ : Nat) (p : Int) (more : List Nat) (s : State), s.up = true → s.nat 0x1220 1 = 1 → (s.tiu 0).events = at_ ::
  more → 0 < s.time.inputs.length → s.time.lastPps = some p → s.time.gnss ≠ 2 ∨ (p + 999999000000 ≤ ((at_ : Int) -
  s.int 32 0x1220 4) ∧ ((at_ : Int) - s.int 32 0x1220 4) ≤ p + 1000001000000) → ∃ t, exec (.ppsEdge) s = .next t ∧
  t.time.edgeAt = some at_ ∧ t.time.edgeSkip = false ∧ t.time.lastPps = some ((at_ : Int) - s.int 32 0x1220 4) ∧
  t.time.prevSec = s.time.sec ∧ t.time.sec = none ∧ t.time.jumps = 0 ∧ t.time.stepOk = decide (p + 999999000000 ≤
  ((at_ : Int) - s.int 32 0x1220 4) ∧ ((at_ : Int) - s.int 32 0x1220 4) ≤ p + 1000001000000) ∧ t.time.gnss = max 1
  s.time.gnss ∧ t.time.ppsRun = (if (p + 999999000000 ≤ ((at_ : Int) - s.int 32 0x1220 4) ∧ ((at_ : Int) - s.int 32
  0x1220 4) ≤ p + 1000001000000) ∧ s.time.sec.isSome = true then s.time.ppsRun else 0) ∧ t.time.jumpCount =
  s.time.jumpCount ∧ (t.tiu 0).events = more) ∧
  (∀ (at_ : Nat) (more : List Nat) (s : State), s.up = true → s.nat 0x1220 1 = 1 → (s.tiu 0).events = at_ :: more → 0
  < s.time.inputs.length → s.time.lastPps = none → s.time.gnss ≠ 2 → ∃ t, exec (.ppsEdge) s = .next t ∧ t.time.edgeAt
  = some at_ ∧ t.time.lastPps = some ((at_ : Int) - s.int 32 0x1220 4) ∧ t.time.stepOk = false ∧ t.time.gnss = max 1
  s.time.gnss ∧ t.time.ppsRun = 0 ∧ t.time.sec = none ∧ (t.tiu 0).events = more)

/-- An event sets the level, begins 20 ns of dead time, waits for its input's consumer and, in a series that runs, is
stamped (mode 1) or ends an interval (mode 2). An edge in dead time is dropped and counted and sets DROP; a short
pulse is counted; an input held active is stuck, counted and shown, and a stuck PPS_IN ends GNSS validity. Two
calibration runs that agree set gain and offset to their means; two that do not change neither and set CAL_FAIL; 60 s
without an accepted one make the input stale. The launch monitor takes the oldest event of its input: within ±100 ns
of a launch it measures it, beyond 20 ns marking it late; with no launch in flight it is stray. Each clause that runs
a command concludes that exec answers a next state, under conditions on the state and the operands alone. -/
def Obligations.TimeIntervalUnit : Prop :=
  (∀ (i t0 : Nat) (rising : Bool) (s : State), s.up = true → i < 6 → i < s.time.inputs.length → s.recognises i rising
  = true → (s.tiu i).stuck = false → (s.tiu i).deadUntil ≤ t0 → bitOf (s.reg 0x38 4) 0 = true → s.time.series.state =
  1 → s.time.series.mode = 1 → s.time.series.start = i → s.time.series.gate = 0 → s.time.series.fifo.length < 64 →
  s.time.series.taken + 1 < s.time.series.n → ∃ t, exec (.tiuEvent i t0 rising) s = .next t ∧ t.time.series.fifo =
  s.time.series.fifo ++ [(i, t0)] ∧ t.time.series.taken = s.time.series.taken + 1 ∧ t.time.series.state = 2 ∧ (t.tiu
  i).deadUntil = t0 + 20000 ∧ (t.tiu i).level = rising ∧ (i ≠ 1 → (t.tiu i).events = (s.tiu i).events ++ [t0])) ∧
  (∀ (i t0 a : Nat) (b rising : Bool) (s : State), s.up = true → i < 6 → i < s.time.inputs.length → s.recognises i
  rising = true → (s.tiu i).stuck = false → (s.tiu i).deadUntil ≤ t0 → bitOf (s.reg 0x38 4) 0 = true →
  s.time.series.state = 2 → s.time.series.mode = 2 → s.time.series.stop = i → s.time.series.pend = some (a, b) → a ≤
  t0 → s.time.series.taken + 1 < s.time.series.n → ∃ t, exec (.tiuEvent i t0 rising) s = .next t ∧ t.time.series.sum =
  s.time.series.sum + (t0 - a) ∧ t.time.series.sumSq = s.time.series.sumSq + (t0 - a) * (t0 - a) ∧ t.time.series.taken
  = s.time.series.taken + 1 ∧ t.time.series.pend = none ∧ (t.tiu i).deadUntil = t0 + 20000) ∧
  (∀ (i t0 : Nat) (rising : Bool) (s : State), s.up = true → i < 6 → i < s.time.inputs.length → s.recognises i rising
  = true → t0 < (s.tiu i).deadUntil → ∃ t, exec (.tiuDeadTimeDrop i t0 rising) s = .next t ∧ (t.tiu i).dead = satAdd
  0xFFFFFFFF (s.tiu i).dead 1 ∧ (t.stat stTime).has 1 = true ∧ (i ≠ 1 → t.time.series = s.time.series) ∧ (t.tiu
  i).deadUntil = (s.tiu i).deadUntil ∧ (t.tiu i).events = (s.tiu i).events) ∧
  (∀ (i : Nat) (s : State), s.up = true → i < s.time.inputs.length → ∃ t, exec (.tiuShortPulse i) s = .next t ∧ (t.tiu
  i).glitches = satAdd 0xFFFFFFFF (s.tiu i).glitches 1 ∧ t.time.series = s.time.series) ∧
  (∀ (i : Nat) (s : State), s.up = true → i < 6 → i < s.time.inputs.length → (s.tiu i).stuck = false → s.activeLevel i
  (s.tiu i).level = true → ∃ t, exec (.tiuStuck i) s = .next t ∧ (t.tiu i).stuck = true ∧ (t.tiu i).stucks = satAdd
  0xFFFFFFFF (s.tiu i).stucks 1 ∧ (t.stat stTime).has 2 = true ∧ (i = 0 → t.time.gnss = 0)) ∧
  (∀ (i : Nat) (one1 two1 one2 two2 : Int) (s : State), s.up = true → i < 6 → i < s.time.inputs.length → (((two1 -
  one1) - (two2 - one2)).natAbs ≤ 512 ∧ ((2 * one1 - two1) - (2 * one2 - two2)).natAbs ≤ 512) → ∃ t, exec
  (.interpCalRun i one1 two1 one2 two2) s = .next t ∧ (t.tiu i).gain = divRound ((two1 - one1) + (two2 - one2)) 2 ∧
  (t.tiu i).ofs = divRound ((2 * one1 - two1) + (2 * one2 - two2)) 2 ∧ (t.tiu i).stale = false ∧ t.time.calCount =
  satAdd 0xFFFFFFFF s.time.calCount 1 ∧ t.time.calTime = s.time.now) ∧
  (∀ (i : Nat) (one1 two1 one2 two2 : Int) (s : State), s.up = true → i < 6 → ¬ (((two1 - one1) - (two2 -
  one2)).natAbs ≤ 512 ∧ ((2 * one1 - two1) - (2 * one2 - two2)).natAbs ≤ 512) → ∃ t, exec (.interpCalRun i one1 two1
  one2 two2) s = .next t ∧ t.tiu i = s.tiu i ∧ t.time.calFails = satAdd 0xFFFFFFFF s.time.calFails 1 ∧ (t.stat
  stTime).has 3 = true) ∧
  (∀ (i at_ : Nat) (s : State), s.up = true → i < 6 → i < s.time.inputs.length → (s.tiu i).calAt + 60000000000 ≤ at_ →
  ∃ t, exec (.interpCalStale i at_) s = .next t ∧ (t.tiu i).stale = true) ∧
  (∀ (q : Port) (x : Nat) (more : List Nat) (l : Launch) (s : State), s.up = true → (s.tiu (4 + Port.num q)).events =
  x :: more → 4 + Port.num q < s.time.inputs.length → (s.port q).flight = [l] → l.measured = false → ((x : Int) -
  s.int 32 (portIndex q 0x2100) 0x50 - (l.time * 1000 : Nat)).natAbs ≤ 100000 → ∃ t, exec (.lmonEvent q) s = .next t ∧
  (t.port q).flight =
  [{ l with measured := true, late := l.late || decide (20000 < ((x : Int) - s.int 32 (portIndex q 0x2100) 0x50 - (l.time * 1000 : Nat)).natAbs) }]
  ∧ (t.port q).opt.latSum = (s.port q).opt.latSum + ((s.port q).opt.latPs + ((x : Int) - s.int 32 (portIndex q 0x2100)
  0x50 - (l.time * 1000 : Nat))) ∧ (t.port q).opt.latN = (s.port q).opt.latN + 1 ∧ (t.port q).opt.missRun = 0 ∧ (20000
  < ((x : Int) - s.int 32 (portIndex q 0x2100) 0x50 - (l.time * 1000 : Nat)).natAbs → (t.stat stTide).has (4 +
  Port.num q) = true) ∧ (t.tiu (4 + Port.num q)).events = more) ∧
  (∀ (q : Port) (x : Nat) (more : List Nat) (s : State), s.up = true → (s.tiu (4 + Port.num q)).events = x :: more → 4
  + Port.num q < s.time.inputs.length → (s.port q).flight = [] → ∃ t, exec (.lmonEvent q) s = .next t ∧ (t.tiu (4 +
  Port.num q)).strays = satAdd 0xFFFFFFFF (s.tiu (4 + Port.num q)).strays 1 ∧ (t.tiu (4 + Port.num q)).events = more ∧
  t.port q = s.port q)

/-- MeasArm loads TIU_CFG and arms a series; a mode of 0 while one runs abandons it; TIU_TS_AUX takes the oldest entry
of the FIFO and latches its time. Each clause that runs a command concludes that exec answers a next state, under
conditions on the state and the operands alone. -/
def Obligations.MeasurementSeries : Prop :=
  (∀ (c : OdCaller) (s : State), Serves s c 1 (objKey 0x1240 6) → s.time.series.state ≠ 1 → s.time.series.state ≠ 2 →
  s.nat 0x1240 1 ≠ 0 → s.nat 0x1240 1 < 4 → s.nat 0x1240 2 < 8 → s.nat 0x1240 3 < 8 → s.nat 0x1240 4 < 65536 → s.nat
  0x1240 5 < 4 → ∃ t, exec (.measArm (.od c)) s = .next t ∧ Answered t c 0 ∧ t.time.series.state = 1 ∧
  t.time.series.mode = s.nat 0x1240 1 ∧ t.time.series.taken = 0 ∧ t.time.series.fifo = s.time.series.fifo ∧ bitOf
  (t.reg 0x38 4) 0 = true) ∧
  (∀ (init : Nat) (s : State), Writes s init 0x38 → s.time.series.state ≠ 1 → s.time.series.state ≠ 2 → bitsOf (s.reg
  0x38 8) 9 8 ≠ 0 → ∃ t, exec (.measArm (.reg init)) s = .next t ∧ t.time.series.state = 1 ∧ t.time.series.mode =
  bitsOf (s.reg 0x38 8) 9 8 ∧ t.time.series.fifo = s.time.series.fifo) ∧
  (∀ (c : OdCaller) (s : State), Serves s c 1 (objKey 0x1240 1) → s.time.series.state = 1 ∨ s.time.series.state = 2 →
  ∃ t, exec (.measModeOff c) s = .next t ∧ Answered t c 0 ∧ t.time.series.state = 4 ∧ t.nat 0x1240 1 = 0 ∧ (t.stat
  stTiu).has 1 = true) ∧
  (∀ (init i t0 : Nat) (rest : List (Nat × Nat)) (s : State), Reads s init 0x38 → s.time.series.fifo = (i, t0) :: rest
  → ∃ t, exec (.tiuTsAuxRead init 4) s = .next t ∧ t.time.series.fifo = rest ∧ t.time.series.latch = t0 / 1000 ∧
  t.out.head? = some (Output.readData init (2 ^ 31 + i % 8 * 2 ^ 28 + t0 % 1000 * 2 ^ 16 + min 127 rest.length)
  false))

/-- A frame of W for another node leaves by E with one hop less, protected as E's association says; a frame seen
before is dropped and counted; a frame that fails at its end and that E would carry on is stomped there, counted and
shown, and one that no trunk would carry on leaves no trace. A status answer makes its node the newest row of the
manager's table. Where only W is secured a keepalive leaves by W. A link that is lost is down and unsecured, its keys
gone, with a contained fault, and in a ring wrapped; one that comes up is held while wrapped. A topology frame turns
round the known directions of the nodes beyond a break that no other break has turned, or has a break end at the next
Tide edge. The local port's link and CHN_CTRL.ENABLE change as commanded. Each clause that runs a command concludes
that exec answers a next state, under conditions on the state and the operands alone. -/
def Obligations.FrameRelay : Prop :=
  (∀ (inp : LinkPort) (f : Frame) (at_ : Nat) (full : Bool) (h : Hint) (s : State), s.up = true → s.carries inp = true
  → (s.ingress inp f).1 = true → inp = LinkPort.w → s.chain.e.up = true → s.chain.e.wrapped = false → s.chain.localUp
  = false → at_ ≤ s.time.now → f.linkLocal = false → f.hops ≠ 0 → f.dst ≠ 0 → f.dst ≠ s.node → f.cls ≠ 4 → ∃ t, exec
  (.ibendFrameReceive inp f true at_ full h) s = .next t ∧ t.out = s.frameOut .e { f with hops := f.hops - 1 } ::
  s.out ∧ t.chain.dupDrops = s.chain.dupDrops ∧ t.mem = s.mem) ∧
  (∀ (inp : LinkPort) (f : Frame) (at_ : Nat) (full : Bool) (h : Hint) (s : State), s.up = true → s.carries inp = true
  → (s.ingress inp f).1 = false → f.src ≠ s.node → inp ≠ LinkPort.lan → at_ ≤ s.time.now → ∃ t, exec
  (.ibendFrameReceive inp f true at_ full h) s = .next t ∧ t.out = s.out ∧ t.chain.dupDrops = satAdd 0xFFFFFFFF
  s.chain.dupDrops 1 ∧ t.chain.seen = s.chain.seen) ∧
  (∀ (inp : LinkPort) (f : Frame) (at_ : Nat) (full : Bool) (h : Hint) (s : State), s.up = true → s.carries inp = true
  → at_ ≤ s.time.now → f.src ≠ s.node → (seenPass s.chain.seen f).isSome = true → inp = LinkPort.w → s.chain.e.up =
  true → s.chain.e.wrapped = false → f.linkLocal = false → f.hops ≠ 0 → f.dst = 0 ∨ f.dst ≠ s.node → f.cls ≠ 4 → ∃ t,
  exec (.ibendFrameReceive inp f false at_ full h) s = .next t ∧ (t.out = Output.stomped .e :: s.out ∨ t.out =
  Output.vector 0 :: Output.stomped .e :: s.out) ∧ t.chain.stomped = satAdd 0xFFFFFFFF s.chain.stomped 1 ∧
  t.chain.seen = s.chain.seen ∧ (t.stat stChn).has 4 = true) ∧
  (∀ (inp : LinkPort) (f : Frame) (at_ : Nat) (full : Bool) (h : Hint) (s : State), s.up = true → s.carries inp = true
  → at_ ≤ s.time.now → inp = LinkPort.lan ∨ f.linkLocal = true ∨ f.hops = 0 ∨ (f.dst = s.node ∧ f.dst ≠ 0) → ∃ t, exec
  (.ibendFrameReceive inp f false at_ full h) s = .next t ∧ t = s) ∧
  (∀ (inp : LinkPort) (f : Frame) (at_ : Nat) (full : Bool) (h : Hint) (s : State), s.up = true → s.carries inp = true
  → (s.ingress inp f).1 = true → s.chnOn = true → s.takes f = true → s.chain.iAct = true → f.type = 1 → f.dst = s.node
  → f.dst ≠ 0 → inp ≠ LinkPort.lan → at_ ≤ s.time.now → ∃ t, exec (.ibendFrameReceive inp f true at_ full h) s = .next
  t ∧ t.chain.nodes.head? = some (⟨f.src, 0, f.fields.getD 0 0, s.time.now - f.fields.getD 1 0⟩ : NodeRow) ∧ t.out =
  s.out) ∧
  (∀ (s : State), s.chnOn = true → s.chain.w.pcs = true → s.chain.w.secured = true → s.chain.e.secured = false → ∃ t,
  exec (.keepaliveSend) s = .next t ∧ t.out = s.frameOut .w (⟨1, 0x70, true, false, 0, s.node, 0, s.tide.epoch,
  (s.chain.seqs.getD 1 0), [], []⟩ : Frame) :: s.out) ∧
  (∀ (d : Side) (pcs : Bool) (s : State), s.up = true → (s.link d).up = true ∨ (s.link d).held = true → s.inRing =
  false → ∃ t, exec (.linkLoss d pcs) s = .next t ∧ (t.link d).up = false ∧ (t.link d).secured = false ∧ (t.link
  d).keys = [] ∧ t.link (otherSide d) = s.link (otherSide d) ∧ (t.stat stChn).has 0 = true ∧ t.bwf.contained = satAdd
  0xFFFFFFFF s.bwf.contained 1) ∧
  (∀ (d : Side) (pcs : Bool) (s : State), s.up = true → (s.link d).up = true ∨ (s.link d).held = true → s.inRing =
  true → s.originates = true → ∃ t, exec (.linkLoss d pcs) s = .next t ∧ (t.link d).up = false ∧ (t.link d).wrapped =
  true ∧ (t.link d).keys = [] ∧ (t.stat stChn).has 0 = true) ∧
  (∀ (d : Side) (peer : Nat) (s : State), s.up = true → (s.link d).secured = true → (s.link d).up = false → (s.link
  d).held = false → ∃ t, exec (.linkUp d peer) s = .next t ∧ (t.link d).up = !(s.link d).wrapped ∧ (t.link d).held =
  (s.link d).wrapped ∧ (t.link d).peer = peer ∧ (t.link d).pcs = true) ∧
  (∀ (d : Side) (s : State), s.up = true → (s.link d).held = true → ∃ t, exec (.ringRestore d) s = .next t ∧ t =
  s.modLink d (fun (l : Link) => { l with restore := true })) ∧
  (∀ (inp : LinkPort) (f : Frame) (beyond : List Nat) (s : State), s.up = true → s.carries inp = true → (s.ingress inp
  f).1 = true → s.chnOn = true → f.fields.getD 1 0 = 1 → ∃ t, exec (.topologyFrame inp f beyond) s = .next t ∧
  t.chain.breaks = (if (s.chain.breaks.any (fun (b : Nat × List Nat) => b.1 == f.fields.getD 0 0)) then s.chain.breaks
  else (f.fields.getD 0 0, (beyond.filter (fun (n : Nat) => t.chain.dirs.any (fun (e : Nat × LinkPort) => e.1 == n) &&
  !s.chain.breaks.any (fun (b : Nat × List Nat) => b.2.contains n)))) :: s.chain.breaks) ∧ f.fields.getD 0 0 ∉
  t.chain.reverts) ∧
  (∀ (inp : LinkPort) (f : Frame) (beyond : List Nat) (s : State), s.up = true → s.carries inp = true → (s.ingress inp
  f).1 = true → s.chnOn = true → f.fields.getD 1 0 = 0 → ∃ t, exec (.topologyFrame inp f beyond) s = .next t ∧
  t.chain.breaks = s.chain.breaks ∧ t.chain.reverts = f.fields.getD 0 0 :: s.chain.reverts) ∧
  (∀ (isUp : Bool) (s : State), s.alive = true → ∃ t, exec (.localPortLinkChange isUp) s = .next t ∧ t = s.modChain
  (fun (c : Chain) => { c with localUp := isUp })) ∧
  (∀ (init : Nat) (s : State), Writes s init 0x39 → ∃ t, exec (.chnDisable init) s = .next t ∧ t.chnOn = false ∧ bitOf
  (t.reg 0x39 0) 0 = false)

/-- A node that is not acting follows the manager it hears: its address, node count, ring state and HopLimit. A
strapped acting manager that hears one of a lower address leaves the role and is demoted; one that hears an acting
standby keeps it, and every node is to be resynchronised by an epoch above the later of the two. A standby manager
takes the role after ManagerTimeout Tides without a heartbeat and a strapped one after it has listened, with
MANAGER_CHG set. A joining node becomes present, to be resynchronised; the answer to its join sets ChainState 2, or 3
with a contained fault; a node that no longer joins disregards it. Each clause that runs a command concludes that exec
answers a next state, under conditions on the state and the operands alone. -/
def Obligations.ManagerRole : Prop :=
  (∀ (inp : LinkPort) (f : Frame) (s : State), s.up = true → s.carries inp = true → (s.ingress inp f).1 = true →
  s.originates = true → s.chain.iAct = false → ∃ t, exec (.heartbeatReceive inp f) s = .next t ∧ t.chain.acting =
  f.fields.getD 0 f.src ∧ t.chain.quiet = 0 ∧ t.chain.listening = false ∧ t.chain.count = f.fields.getD 2 0 ∧
  t.chain.ring = (f.fields.getD 3 0 == 1) ∧ t.chain.hopLimit = f.fields.getD 6 1023 ∧ t.chain.iAct = false) ∧
  (∀ (inp : LinkPort) (f : Frame) (s : State), s.up = true → s.carries inp = true → (s.ingress inp f).1 = true →
  s.originates = true → s.chain.iAct = true → s.role = 2 → f.fields.getD 5 0 = 1 → f.fields.getD 0 f.src < s.node → ∃
  t, exec (.heartbeatReceive inp f) s = .next t ∧ t.chain.iAct = false ∧ t.chain.demoted = true ∧ t.chain.acting =
  f.fields.getD 0 f.src ∧ (t.stat stChn).has 7 = true) ∧
  (∀ (inp : LinkPort) (f : Frame) (s : State), s.up = true → s.carries inp = true → (s.ingress inp f).1 = true →
  s.originates = true → s.chain.iAct = true → s.role = 2 → f.fields.getD 5 0 = 0 → ∃ t, exec (.heartbeatReceive inp f)
  s = .next t ∧ t.chain.iAct = true ∧ t.chain.ahead = some (if (f.fields.getD 1 0 + 0x10000 - s.tide.epoch) % 0x10000
  < 0x8000 then f.fields.getD 1 0 % 0x10000 else s.tide.epoch) ∧ f.fields.getD 0 f.src ∈ t.chain.resync ∧ ∀ r ∈
  s.chain.nodes, r.node ∈ t.chain.resync ∧ t.chain.meet = (if s.chain.ahead.isSome then s.chain.meet else 2)) ∧
  (∀ (s : State), s.originates = true → s.role = 3 → s.chain.iAct = false → s.nat 0x7000 0xB ≤ s.chain.quiet → ∃ t,
  exec (.managerTimeout) s = .next t ∧ t.chain.iAct = true ∧ t.chain.acting = s.node ∧ t.chain.state = 2 ∧ (t.stat
  stChn).has 7 = true ∧ t.tide = s.tide) ∧
  (∀ (s : State), s.originates = true → s.role = 2 → s.chain.listening = true → s.chain.iAct = false → ∃ t, exec
  (.managerListenEnd) s = .next t ∧ t.chain.iAct = true ∧ t.chain.acting = s.node ∧ t.chain.listening = false ∧
  t.chain.state = 2 ∧ (t.stat stChn).has 7 = true) ∧
  (∀ (inp : LinkPort) (f : Frame) (s : State), s.up = true → s.carries inp = true → (s.ingress inp f).1 = true →
  s.originates = true → s.takes f = true → s.chain.iAct = true → f.fields.getD 0 0 ≠ s.node → s.chain.nodes.any (fun
  (r : NodeRow) => r.node == f.fields.getD 0 0) = false → ∃ t, exec (.joinFrame inp f none) s = .next t ∧
  t.chain.nodes = (⟨f.fields.getD 0 0, 0, 0x10000, 0⟩ : NodeRow) :: s.chain.nodes ∧ f.fields.getD 0 0 ∈
  t.chain.resync) ∧
  (∀ (inp : LinkPort) (f : Frame) (s : State), s.up = true → s.carries inp = true → (s.ingress inp f).1 = true →
  s.originates = true → s.takes f = true → s.chain.state = 1 → ∃ t, exec (.joinFrame inp f (some true)) s = .next t ∧
  t.chain.state = 2) ∧
  (∀ (inp : LinkPort) (f : Frame) (s : State), s.up = true → s.carries inp = true → (s.ingress inp f).1 = true →
  s.originates = true → s.takes f = true → s.chain.state = 1 → ∃ t, exec (.joinFrame inp f (some false)) s = .next t ∧
  t.chain.state = 3 ∧ t.bwf.contained = satAdd 0xFFFFFFFF s.bwf.contained 1) ∧
  (∀ (inp : LinkPort) (f : Frame) (b : Bool) (s : State), s.up = true → s.carries inp = true → (s.ingress inp f).1 =
  true → s.originates = true → s.takes f = true → s.chain.state ≠ 1 → ∃ t, exec (.joinFrame inp f (some b)) s = .next
  t ∧ t.chain.state = s.chain.state ∧ t.bwf.contained = s.bwf.contained)

/-- EpochRequest, and the manager of its own for a pair to be realigned, starts the epoch one above the active one, or
above the later one of a meeting of managers, at its Tide, with the pending values as snapshot, and awaits every
present node. A prepare that passes a present node's checks, its edge being common to the periods, becomes that node's
pending epoch, with the carried period in its snapshot; a node that is not present disregards it. An acknowledgement
ends the wait for its node while the trunk's load is within TrunkBudget; a refusal, or the deadline, cancels with its
code and sets EPOCH_CANCEL, as the manager's cancel does at a node. At its Tide the epoch applies and is shown. Each
clause that runs a command concludes that exec answers a next state, under conditions on the state and the operands
alone. -/
def Obligations.Epochs : Prop :=
  (∀ (c : OdCaller) (lead : Nat) (s : State), Serves s c 1 (objKey 0x7000 7) → s.rules = true → s.tide.running = true
  → s.chain.pend = none → 0 < lead → lead < 65536 → s.nat 0x7000 6 + 2 ≤ lead → 2 * s.chain.latency + 1000 ≤ s.nat
  0x7000 6 * s.period * 1000 → s.commonEdge (s.tide.num + lead) (s.pnat 0x2000 1) = true → s.ownSpans = [] →
  s.chain.spans = [] → s.chain.resync = [] → (s.nodeCheck (s.snapView (insertKey (objKey 0x2000 1) (leBytes 1 (s.pnat
  0x2000 1)) s.pendSnap))).1.1 = 0 → ∃ t, exec (.epochRequest c lead []) s = .next t ∧ Answered t c 0 ∧
  (t.chain.pend).map (fun (e : EpochPend) => (e.num, e.tide, e.image)) = some (((s.chain.ahead.getD s.tide.epoch) + 1)
  % 65536, s.tide.num + lead, false) ∧ (t.chain.pend).map (fun (e : EpochPend) => e.snap) = some (insertKey (objKey
  0x2000 1) (leBytes 1 (s.pnat 0x2000 1)) s.pendSnap) ∧ t.chain.awaiting = s.chain.nodes.map (fun (r : NodeRow) =>
  r.node)) ∧
  (∀ (s : State), s.up = true → s.chain.iAct = true → s.tide.running = true → s.chain.pend = none → s.chain.realign ≠
  [] → s.chain.restore = [] → s.commonEdge (s.tide.num + s.nat 0x7000 5) (s.pnat 0x2000 1) = true → s.chain.ahead =
  none ∨ s.chain.meet = 0 → s.ownSpans = [] → s.chain.spans = [] → s.chain.resync = [] → (s.nodeCheck (s.snapView
  (insertKey (objKey 0x2000 1) (leBytes 1 (s.pnat 0x2000 1)) s.pendSnap))).1.1 = 0 → ∃ t, exec (.resynchronise []) s =
  .next t ∧ (t.chain.pend).map (fun (e : EpochPend) => (e.num, e.tide, e.image)) = some (((s.chain.ahead.getD
  s.tide.epoch) + 1) % 65536, s.tide.num + s.nat 0x7000 5, false) ∧ (t.chain.pend).map (fun (e : EpochPend) => e.snap)
  = some (insertKey (objKey 0x2000 1) (leBytes 1 (s.pnat 0x2000 1)) s.pendSnap) ∧ t.chain.realign = []) ∧
  (∀ (inp : LinkPort) (f : Frame) (s : State), s.up = true → s.carries inp = true → (s.ingress inp f).1 = true →
  s.originates = true → s.takes f = true → s.chain.iAct = false → s.chain.state = 2 → f.src = s.chain.acting →
  s.tide.num + (fieldsPrep f.fields).guard < (fieldsPrep f.fields).tide → (fieldsPrep f.fields).images = [] →
  (fieldsPrep f.fields).change = false → s.commonEdge (fieldsPrep f.fields).tide (fieldsPrep f.fields).period = true →
  (s.nodeCheck (s.snapView (insertKey (objKey 0x2000 1) (leBytes 1 (fieldsPrep f.fields).period) s.activeSnap))).1.1 =
  0 → ∃ t, exec (.prepare inp f) s = .next t ∧ (t.chain.pend).map (fun (e : EpochPend) => (e.num, e.tide, e.image)) =
  some ((fieldsPrep f.fields).num, (fieldsPrep f.fields).tide, false) ∧ (t.chain.pend).map (fun (e : EpochPend) =>
  e.snap) = some (insertKey (objKey 0x2000 1) (leBytes 1 (fieldsPrep f.fields).period) s.activeSnap) ∧ t.tide =
  s.tide) ∧
  (∀ (inp : LinkPort) (f : Frame) (s : State), s.up = true → s.carries inp = true → (s.ingress inp f).1 = true →
  s.originates = true → s.takes f = true → s.chain.state ≠ 2 → ∃ t, exec (.prepare inp f) s = .next t ∧ t.chain.pend =
  s.chain.pend ∧ t.od = s.od ∧ t.tide = s.tide) ∧
  (∀ (inp : LinkPort) (f : Frame) (s : State), s.up = true → s.carries inp = true → (s.ingress inp f).1 = true →
  s.chnOn = true → s.takes f = true → s.chain.iAct = true → f.src ∈ s.chain.awaiting → (s.chain.pend).map (fun (e :
  EpochPend) => e.num) = some (f.fields.getD 0 0) → f.fields.getD 1 0 = 1 → (if inp = LinkPort.w then s.chain.loadW +
  f.fields.getD 4 0 else s.chain.loadW) ≤ 1000 * s.nat 0x7000 0xE → (if inp = LinkPort.e then s.chain.loadE +
  f.fields.getD 4 0 else s.chain.loadE) ≤ 1000 * s.nat 0x7000 0xE → ∃ t, exec (.acknowledgement inp f) s = .next t ∧
  t.chain.awaiting = s.chain.awaiting.filter (fun (n : Nat) => n != f.src) ∧ t.chain.pend = s.chain.pend) ∧
  (∀ (inp : LinkPort) (f : Frame) (s : State), s.up = true → s.carries inp = true → (s.ingress inp f).1 = true →
  s.chnOn = true → s.takes f = true → s.chain.iAct = true → f.src ∈ s.chain.awaiting → (s.chain.pend).map (fun (e :
  EpochPend) => e.num) = some (f.fields.getD 0 0) → f.fields.getD 1 0 ≠ 1 → ∃ t, exec (.acknowledgement inp f) s =
  .next t ∧ t.chain.pend = none ∧ t.chain.result = f.fields.getD 3 0 ∧ t.chain.refuser = f.fields.getD 2 0 * 2 ^ 15 +
  f.src ∧ (t.stat stChn).has 3 = true) ∧
  (∀ (inp : LinkPort) (f : Frame) (s : State), s.up = true → s.carries inp = true → (s.ingress inp f).1 = true →
  s.chnOn = true → s.takes f = true → s.chain.pend.any (fun (e : EpochPend) => e.num == f.fields.getD 0 0 && decide
  (s.tide.num < e.tide)) = true → ∃ t, exec (.cancel inp f) s = .next t ∧ t.chain.pend = none ∧ (t.stat stChn).has 3 =
  true ∧ t.od = s.od) ∧
  (∀ (e : EpochPend) (s : State), s.up = true → s.chain.iAct = true → s.chain.pend = some e → s.chain.awaiting ≠ [] →
  e.tide ≤ s.tide.num + s.nat 0x7000 6 → s.tide.num < e.tide → ∃ t, exec (.epochAnswerDeadline) s = .next t ∧
  t.chain.pend = none ∧ t.chain.awaiting = [] ∧ t.chain.result = 35 ∧ (t.stat stChn).has 3 = true) ∧
  (∀ (e : EpochPend) (s : State), s.up = true → s.tide.running = true → s.chain.pend = some e → e.tide ≤ s.tide.num →
  ∃ t, exec (.epochApply) s = .next t ∧ t.tide.epoch = e.num ∧ t.chain.pend = none ∧ t.chain.awaiting = [] ∧ (t.stat
  stTide).has 3 = true ∧ t.pending = s.pending)

/-- The acting manager counts a report in its fault table, which holds 4,096 keys; FaultClear removes one entry, or
all for 0xFFFFFFFF; draining a key not yet drained in this Tide makes one FaultLog entry, of which 256 are kept, and a
report. Each clause that runs a command concludes that exec answers a next state, under conditions on the state and
the operands alone. -/
def Obligations.FaultTable : Prop :=
  (∀ (inp : LinkPort) (f : Frame) (s : State), s.up = true → s.carries inp = true → (s.ingress inp f).1 = true →
  s.chnOn = true → s.takes f = true → s.chain.iAct = true → f.dst = s.node → f.dst ≠ 0 → ∃ t, exec (.faultReport inp
  f) s = .next t ∧ t.chain.table = (if s.chain.table.any (fun (r : FaultRow) => r.key == f.fields.getD 0 0) then
  s.chain.table.map (fun (r : FaultRow) => if r.key = f.fields.getD 0 0 then
  { r with reports := satAdd 0xFFFFFFFF r.reports 1, last := s.tide.num } else r) else if 4096 ≤ s.chain.table.length
  then s.chain.table else s.chain.table ++ [(⟨f.fields.getD 0 0, 1, s.tide.num, s.tide.num, f.src⟩ : FaultRow)]) ∧
  t.out = s.out) ∧
  (∀ (c : OdCaller) (key : Nat) (s : State), Serves s c 1 (objKey 0x7000 0x11) → key < 2 ^ 32 → ∃ t, exec (.faultClear
  c key) s = .next t ∧ Answered t c 0 ∧ t.chain.table = (if key = 0xFFFFFFFF then [] else s.chain.table.filter (fun (r
  : FaultRow) => r.key != key))) ∧
  (∀ (k now : Nat) (s : State), s.up = true → s.bwf.log = [(k, now)] → k ∉ s.bwf.sent → s.chain.iAct = true ∨ s.role =
  0 → ∃ t, exec (.faultLogDrain) s = .next t ∧ t.bwf.log = [] ∧ t.bwf.faultLog = (s.bwf.faultLog ++ [(⟨k, now, 1⟩ :
  FaultEntry)]).drop (s.bwf.faultLog.length + 1 - 256) ∧ t.bwf.sent = k :: s.bwf.sent ∧ (t.chain.table.any (fun (r :
  FaultRow) => r.key == k) = true ∨ 4096 ≤ t.chain.table.length))

/-- A partner's pair status is taken. A good far pilot frame counts in the run of which eight make the far pilot
present, gives an arrival and the far end's delay, and ends a span break; a bad one ends the run. Four blocks below
PilotLossLevel lose the far pilot: the port decides to take over where its partner is gone, and is in a span break
where the partner is there and Live. A partner without a trunk or a status for two Tides is unreachable; a takeover
and a yield take effect at their Tide; ForceTakeover decides one; a break's position is that of the farthest output
point with half its words valid. A span restored while an epoch pends is noted for the next. A handoff makes a
confirmed track, its acknowledgement ends the handed one, and one not acknowledged within four Tides is counted as
failed and keeps the track. Each clause that runs a command concludes that exec answers a next state, under conditions
on the state and the operands alone. -/
def Obligations.PairedSpans : Prop :=
  (∀ (q : Port) (inp : LinkPort) (f : Frame) (s : State), s.up = true → s.carries inp = true → (s.ingress inp f).1 =
  true → s.chnOn = true → s.takes f = true → f.src = s.pn q 0x7010 2 → q = (if f.fields.getD 0 0 = 0 then Port.b else
  Port.a) → ∃ t, exec (.pairStatus inp f) s = .next t ∧ (t.port q).pair.quiet = 0 ∧ (t.port q).pair.unreachable =
  false ∧ (t.port q).pair.partnerOptics = f.fields.getD 1 0 ∧ (t.port q).pair.partnerState = f.fields.getD 2 0 ∧
  (t.port q).pair.partnerPilot = (f.fields.getD 3 0 == 1) ∧ (t.port q).pair.state = (s.port q).pair.state) ∧
  (∀ (q : Port) (s : State), s.up = true → s.partnerGone q = true → ∃ t, exec (.partnerUnreachable q) s = .next t ∧
  (t.port q).pair.unreachable = true) ∧
  (∀ (q : Port) (syms : List Bool) (arr : Nat) (s : State), s.rxOn q false = true → s.pilotActive q = true →
  s.pilotGood q syms = true → ∃ t, exec (.pilotFrameReceive q syms arr) s = .next t ∧ (t.port q).pair.goodRun =
  s.goodNext q ∧ (t.port q).pair.lastGood = s.tide.num ∧ (t.port q).pair.present = ((s.port q).pair.present || decide
  (8 ≤ s.goodNext q)) ∧ (t.port q).pair.arrivals = ((arr : Int) :: (s.port q).pair.arrivals).take 16 ∧ (t.port
  q).pair.cold = ((!s.time.warm) :: (s.port q).pair.cold).take 16 ∧ (t.port q).pair.delayOut = (if bitsNat ((syms.drop
  112).take 32) = 0xFFFFFFFF then none else some (toSigned 32 (bitsNat ((syms.drop 112).take 32)))) ∧ (t.port
  q).pair.state = (if (s.port q).pair.state = 3 ∧ ((s.port q).pair.present = true ∨ 8 ≤ s.goodNext q) then 2 else
  (s.port q).pair.state)) ∧
  (∀ (q : Port) (syms : List Bool) (arr : Nat) (s : State), s.rxOn q false = true → s.pilotActive q = true →
  s.pilotGood q syms = false → ∃ t, exec (.pilotFrameReceive q syms arr) s = .next t ∧ (t.port q).pair.goodRun = 0 ∧
  (t.port q).pair.present = (s.port q).pair.present) ∧
  (∀ (q : Port) (drops : List Nat) (at_ : Nat) (s : State), s.rxOn q false = true → s.pilotActive q = true →
  s.farPresent q = true → drops.length = 4 → drops.all (fun (d : Nat) => decide (100 * s.pn q 0x7010 0x10 < d)) = true
  → (s.port q).pair.state = 2 → s.partnerGone q = true → ∃ t, exec (.pilotLoss q drops at_) s = .next t ∧ (t.port
  q).pair.present = false ∧ (t.port q).pair.farTaken = false ∧ (t.port q).pair.takeAt.isSome = true ∧ (t.port
  q).pair.state = 2 ∧ (t.stat (stPair q)).has 0 = true) ∧
  (∀ (q : Port) (drops : List Nat) (at_ : Nat) (s : State), s.rxOn q false = true → s.pilotActive q = true →
  s.farPresent q = true → drops.length = 4 → drops.all (fun (d : Nat) => decide (100 * s.pn q 0x7010 0x10 < d)) = true
  → (s.port q).pair.state = 2 → s.partnerGone q = false → (s.port q).pair.unreachable = false → (s.port
  q).pair.partnerOptics = 6 → ∃ t, exec (.pilotLoss q drops at_) s = .next t ∧ (t.port q).pair.present = false ∧
  (t.port q).pair.state = 3 ∧ (t.stat (stPair q)).has 3 = true) ∧
  (∀ (q : Port) (k : Nat) (s : State), s.up = true → s.tide.running = true → s.chain.pend = none → (s.port
  q).pair.takeAt = some k → k ≤ s.tide.num → ∃ t, exec (.takeoverApply q) s = .next t ∧ (t.port q).pair.state = 4 ∧
  (t.port q).pair.takeAt = none ∧ (t.port q).pair.takeovers = satAdd 0xFFFFFFFF (s.port q).pair.takeovers 1 ∧ (t.stat
  (stPair q)).has 1 = true) ∧
  (∀ (q : Port) (k : Nat) (s : State), s.up = true → s.tide.running = true → (s.port q).pair.yieldAt = some k → k ≤
  s.tide.num → ∃ t, exec (.pairYield q) s = .next t ∧ (t.port q).pair.state = 5 ∧ (t.port q).pair.yieldAt = none ∧
  (t.port q).pair.takeAt = none ∧ (t.stat (stPair q)).has 2 = true) ∧
  (∀ (c : OdCaller) (q : Port) (s : State), Serves s c 1 (objKey (portIndex q 0x7010) 0x13) → (s.port q).pair.state =
  2 ∨ (s.port q).pair.state = 3 → ∃ t, exec (.forceTakeover c q) s = .next t ∧ Answered t c 0 ∧ (t.port q).pair.takeAt
  = some ((s.port q).pair.takeAt.getD (s.takeTide q))) ∧
  (∀ (q : Port) (i : Nat) (s : State), s.up = true → (s.port q).pair.state = 3 → s.tide.num ≤ (s.port q).sw.vTide →
  ((upTo (s.port q).sw.lCur.length).filter (fun (j : Nat) => decide (0 < (s.port q).sw.lN) && decide ((s.port q).sw.lN
  ≤ 2 * (s.port q).sw.lCur.getD j 0))).getLast? = some i → ∃ t, exec (.breakPositionReport q) s = .next t ∧ (t.port
  q).pair.breakPos = (s.distance q (s.cfg q) (2 * i)).nearest ∧ (t.port q).pair.state = 3) ∧
  (∀ (x : SpanInfo) (s : State), s.up = true → s.chain.iAct = true → s.tide.running = true → s.nat 0x7000 0xF ≠ 0 →
  s.chain.pend ≠ none → ∃ t, exec (.pairRestoreHold x) s = .next t ∧ t.chain.restore = s.chain.restore.filter (fun (e
  : Nat × Nat) => !([(x.west, 1), (x.east, 0)] : List (Nat × Nat)).contains e) ++ [(x.west, 1), (x.east, 0)] ∧ x ∈
  t.chain.spans ∧ t.chain.pend = s.chain.pend) ∧
  (∀ (q : Port) (inp : LinkPort) (f : Frame) (s : State), s.up = true → s.carries inp = true → (s.ingress inp f).1 =
  true → s.chnOn = true → s.takes f = true → (s.port q).pair.state = 2 → f.src = s.pn q 0x7010 2 → (s.port
  q).trk.tracks = [] → ∃ t, exec (.handoffReceive q inp f) s = .next t ∧ ((t.port q).trk.tracks.map fun (k : Track) =>
  (k.id, k.confirmed, k.firstTide)) = [(f.fields.getD 0 0, true, f.fields.getD 1 0)]) ∧
  (∀ (q : Port) (inp : LinkPort) (f : Frame) (s : State), s.up = true → s.carries inp = true → (s.ingress inp f).1 =
  true → s.chnOn = true → s.takes f = true → (s.port q).pair.open_.any (fun (h : Handoff) => h.track == f.fields.getD
  0 0) = true → ∃ t, exec (.handoffAck q inp f) s = .next t ∧ (t.port q).pair.handoffs = satAdd 0xFFFFFFFF (s.port
  q).pair.handoffs 1 ∧ (∀ (k : Track), k ∈ (t.port q).trk.tracks → k.id ≠ f.fields.getD 0 0) ∧ (∀ (h : Handoff), h ∈
  (t.port q).pair.open_ → h.track ≠ f.fields.getD 0 0)) ∧
  (∀ (q : Port) (track : Nat) (s : State), s.up = true → (s.port q).pair.open_.any (fun (h : Handoff) => h.track ==
  track && decide (h.tide + 4 ≤ s.tide.num)) = true → ∃ t, exec (.handoffTimeout q track) s = .next t ∧ (t.port
  q).pair.handFails = satAdd 0xFFFFFFFF (s.port q).pair.handFails 1 ∧ (t.port q).trk = (s.port q).trk ∧ (∀ (h :
  Handoff), h ∈ (t.port q).pair.open_ → h.track ≠ track))

/-- Whether a certificate chain is valid and which key it holds are open constants (log 12): the clauses about them
hold for every value. Each clause that runs a command concludes that exec answers a next state, under conditions on
the state and the operands alone. -/
def Obligations.TrunkKeys : Prop :=
  (∀ (d : Side) (s : State), s.canAuth d = true → (s.link d).xStep = 0 → (s.link d).secured = false → ∃ t, exec
  (.keyExchangeRetry d) s = .next t ∧ (t.link d).xStep = 1 ∧ (t.link d).got = [] ∧ ((t.out.take 2).filterMap
  Output.frame?).map (fun (x : LinkPort × Frame) => (x.1, x.2.type, x.2.linkLocal)) = [(sidePort d, 0x61, true),
  (sidePort d, 0x60, true)] ∧ t.out.drop 2 = s.out ∧ (t.link d).rekey = false) ∧
  (∀ (d : Side) (s : State), s.canAuth d = true → (s.link d).xStep = 0 → (s.link d).secured = true → ∃ t, exec (.rekey
  d) s = .next t ∧ (t.link d).xStep = 1 ∧ (t.link d).got = [] ∧ ((t.out.take 2).filterMap Output.frame?).map (fun (x :
  LinkPort × Frame) => (x.1, x.2.type, x.2.linkLocal)) = [(sidePort d, 0x61, true), (sidePort d, 0x60, true)] ∧
  t.out.drop 2 = s.out ∧ (t.link d).rekey = true ∧ (t.link d).keys = (s.link d).keys) ∧
  (∀ (d : Side) (s : State), s.canAuth d = true → (s.link d).xStep = 0 → (s.link d).secured = true → (s.link d).rekey
  = true → ∃ t, exec (.rekeyRetry d) s = .next t ∧ (t.link d).xStep = 1 ∧ (t.link d).got = [] ∧ ((t.out.take
  2).filterMap Output.frame?).map (fun (x : LinkPort × Frame) => (x.1, x.2.type, x.2.linkLocal)) = [(sidePort d, 0x61,
  true), (sidePort d, 0x60, true)] ∧ t.out.drop 2 = s.out ∧ (t.link d).rekey = true) ∧
  (∀ (d : Side) (f : Frame) (s : State), s.canAuth d = true → f.type = 0x60 → (s.link d).xStep = 1 → (s.link d).got =
  [] → ∃ t, exec (.keyExchangeFrame d f) s = .next t ∧ (if Config.certValid f.payload then (t.link d).got = f.payload
  ∧ (t.link d).xStep = 1 else (t.link d).xStep = 0 ∧ t.ident.authFails = satAdd 0xFFFFFFFF s.ident.authFails 1)) ∧
  (∀ (d : Side) (f : Frame) (s : State), s.canAuth d = true → f.type = 0x61 → (s.link d).xStep = 1 → (s.link d).got ≠
  [] → f.payload.length ≠ 129 → ∃ t, exec (.keyExchangeFrame d f) s = .next t ∧ (t.link d).xStep = 0 ∧
  t.ident.authFails = satAdd 0xFFFFFFFF s.ident.authFails 1 ∧ t.bwf.contained = satAdd 0xFFFFFFFF s.bwf.contained 1) ∧
  (∀ (d : Side) (f : Frame) (s : State), s.canAuth d = true → f.type = 0x61 → (s.link d).xStep = 1 → (s.link d).got ≠
  [] → f.payload.length = 129 → (ecKey? ((f.payload.drop 32).take 65)).isSome = true → s.peerOk (f.payload.drop 97) =
  true → ∃ t, exec (.keyExchangeFrame d f) s = .next t ∧ (t.link d).xStep = 2 ∧ (t.link d).got = (s.link d).got ++
  f.payload) ∧
  (∀ (d : Side) (f : Frame) (s : State), s.canAuth d = true → f.type = 0x62 → (s.link d).xStep = 2 → ∃ t, exec
  (.keyExchangeFrame d f) s = .next t ∧ (if ecVerify (Config.certKey (s.link d).peerCert) (s.transcript d) f.payload
  then (t.link d).xStep = 3 ∧ (t.link d).secured = true ∧ (t.link d).fresh = true ∧ (t.link d).keys = s.kxKeys d else
  (t.link d).xStep = 0 ∧ t.ident.authFails = satAdd 0xFFFFFFFF s.ident.authFails 1)) ∧
  (∀ (d : Side) (f : Frame) (s : State), s.canAuth d = true → f.type = 0x63 → (s.link d).xStep = 3 → ∃ t, exec
  (.keyExchangeFrame d f) s = .next t ∧ (t.link d).xStep = 0 ∧ (t.link d).rekey = false ∧ (t.link d).fresh = false ∧
  (t.link d).keys = (s.link d).keys) ∧
  (∀ (d : Side) (s : State), s.up = true → (s.link d).xStep = 1 ∨ (s.link d).xStep = 2 → ∃ t, exec
  (.keyExchangeTimeout d) s = .next t ∧ (t.link d).xStep = 0 ∧ (t.link d).keys = (s.link d).keys ∧ t.ident.authFails =
  satAdd 0xFFFFFFFF s.ident.authFails 1) ∧
  (∀ (d : Side) (s : State), s.up = true → (s.link d).xStep = 3 → ∃ t, exec (.keyExchangeTimeout d) s = .next t ∧
  (t.link d).xStep = 0 ∧ (t.link d).secured = (s.link d).rekey ∧ (t.link d).keys = (if (s.link d).rekey then (s.link
  d).oldKeys else []) ∧ t.ident.authFails = satAdd 0xFFFFFFFF s.ident.authFails 1) ∧
  (∀ (d : Side) (s : State), (s.link d).fresh = false → ∃ t, exec (.oldAssociationExpiry d) s = .next t ∧ t =
  s.modLink d (fun (l : Link) => { l with oldKeys := [] }))

/-- A read of an object that its level and access allow answers its value; an accepted write makes it the value in
force (immediate), the pending one and not that in force (epoch commit, next Tide), or neither (next start), and puts
a persistent one in the image to be stored; Info answers the attributes, with whether a write would be taken now; an
unknown service is refused and counted; a broadcast write with no other node present is answered with one node that
took it, and the answer is kept. Each clause that runs a command concludes that exec answers a next state, under
conditions on the state and the operands alone. -/
def Obligations.DictionaryReadsAndWrites : Prop :=
  (∀ (c : OdCaller) (k : OdKey) (lv : Nat) (row : ObjRow) (s : State), Asks s c lv → s.asked.row k.idx k.sub = some
  row → (s.asked.top k.idx).isSome = true → row.acc ≠ Acc.wo → row.readLevel ≤ lv → (s.asked.readObj k.idx k.sub
  k.active).1.length ≤ 1024 → ∃ t, exec (.odRead c k) s = .next t ∧ Answered t c 0 ∧ AnswerData t (s.asked.readObj
  k.idx k.sub k.active).1 ∧ t.od.requests = (s.od.requests + 1) % 2 ^ 64 ∧ t.od.errors = s.od.errors) ∧
  (∀ (c : OdCaller) (k : OdKey) (v : List Byte) (h : Hint) (lv : Nat) (row : ObjRow) (s : State), Serves s c lv
  (objKey k.idx k.sub) → s.asked.row k.idx k.sub = some row → (s.asked.top k.idx).isSome = true → row.acc ≠ Acc.ro →
  row.writeLevel ≤ lv → row.lengthOk v.length = true → rangeBar row k.idx v = false → custom? k.idx k.sub = none →
  (s.asked.action h k.idx k.sub v).isNone = true → s.asked.stateBar k.idx k.sub v = false → s.asked.conflict k.idx
  k.sub v = false → row.ap = Applies.immediate → ∃ t, exec (.odWrite c k v h) s = .next t ∧ Answered t c 0 ∧ t.obj
  k.idx k.sub = v ∧ (row.pers = true → lookup (objKey k.idx k.sub) t.od.image = some v ∧ t.od.dirty = true)) ∧
  (∀ (c : OdCaller) (k : OdKey) (v : List Byte) (h : Hint) (lv : Nat) (row : ObjRow) (s : State), Serves s c lv
  (objKey k.idx k.sub) → s.asked.row k.idx k.sub = some row → (s.asked.top k.idx).isSome = true → row.acc ≠ Acc.ro →
  row.writeLevel ≤ lv → row.lengthOk v.length = true → rangeBar row k.idx v = false → custom? k.idx k.sub = none →
  (s.asked.action h k.idx k.sub v).isNone = true → s.asked.stateBar k.idx k.sub v = false → s.asked.conflict k.idx
  k.sub v = false → row.ap = Applies.epoch → ∃ t, exec (.odWrite c k v h) s = .next t ∧ Answered t c 0 ∧ t.objPend
  k.idx k.sub = v ∧ t.obj k.idx k.sub = s.obj k.idx k.sub ∧ (row.pers = true → lookup (objKey k.idx k.sub) t.od.image
  = some v ∧ t.od.dirty = true)) ∧
  (∀ (c : OdCaller) (k : OdKey) (v : List Byte) (h : Hint) (lv : Nat) (row : ObjRow) (s : State), Serves s c lv
  (objKey k.idx k.sub) → s.asked.row k.idx k.sub = some row → (s.asked.top k.idx).isSome = true → row.acc ≠ Acc.ro →
  row.writeLevel ≤ lv → row.lengthOk v.length = true → rangeBar row k.idx v = false → custom? k.idx k.sub = none →
  (s.asked.action h k.idx k.sub v).isNone = true → s.asked.stateBar k.idx k.sub v = false → s.asked.conflict k.idx
  k.sub v = false → row.ap = Applies.nextTide → ∃ t, exec (.odWrite c k v h) s = .next t ∧ Answered t c 0 ∧ t.objPend
  k.idx k.sub = v ∧ t.obj k.idx k.sub = s.obj k.idx k.sub ∧ (row.pers = true → lookup (objKey k.idx k.sub) t.od.image
  = some v ∧ t.od.dirty = true)) ∧
  (∀ (c : OdCaller) (k : OdKey) (v : List Byte) (h : Hint) (lv : Nat) (row : ObjRow) (s : State), Serves s c lv
  (objKey k.idx k.sub) → s.asked.row k.idx k.sub = some row → (s.asked.top k.idx).isSome = true → row.acc ≠ Acc.ro →
  row.writeLevel ≤ lv → row.lengthOk v.length = true → rangeBar row k.idx v = false → custom? k.idx k.sub = none →
  (s.asked.action h k.idx k.sub v).isNone = true → s.asked.stateBar k.idx k.sub v = false → s.asked.conflict k.idx
  k.sub v = false → row.ap = Applies.nextStart → ∃ t, exec (.odWrite c k v h) s = .next t ∧ Answered t c 0 ∧ t.obj
  k.idx k.sub = s.obj k.idx k.sub ∧ t.objPend k.idx k.sub = s.objPend k.idx k.sub ∧ (row.pers = true → lookup (objKey
  k.idx k.sub) t.od.image = some v ∧ t.od.dirty = true)) ∧
  (∀ (c : OdCaller) (k : OdKey) (v : List Byte) (h : Hint) (lv : Nat) (row : ObjRow) (s : State), Serves s c lv
  (objKey k.idx k.sub) → s.asked.row k.idx k.sub = some row → (s.asked.top k.idx).isSome = true → row.acc ≠ Acc.ro →
  row.writeLevel ≤ lv → row.lengthOk v.length = true → rangeBar row k.idx v = false → custom? k.idx k.sub = none →
  (s.asked.action h k.idx k.sub v).isNone = true → s.asked.stateBar k.idx k.sub v = false → s.asked.conflict k.idx
  k.sub v = false → row.ap = Applies.immediate → s.otherNodes = [] → c.path = Path.pcie ∨ c.path = Path.spi → s.od.fwd
  = [] → s.od.bcasts = [] → ∃ t, exec (.odBroadcastWrite c k v h) s = .next t ∧ t.obj k.idx k.sub = v ∧ Answered t c 0
  ∧ AnswerData t (u16 1 ++ u16 0 ++ u16 0 ++ u16 0) ∧ ((t.out.head?).bind Output.answer?).map (fun (x : Path × Nat ×
  List Byte) => (x.1, x.2.1, x.2.2.drop 16)) = some (c.path, c.source, u16 1 ++ u16 0 ++ u16 0 ++ u16 0)) ∧
  (∀ (c : OdCaller) (k : OdKey) (lv : Nat) (row : ObjRow) (s : State), Asks s c lv → s.asked.row k.idx k.sub = some
  row → (s.asked.top k.idx).isSome = true → ∃ t, exec (.odInfo c k) s = .next t ∧ Answered t c 0 ∧ AnswerData t
  (s.asked.info k.idx k.sub row (s.asked.writableNow row k.idx k.sub))) ∧
  (∀ (c : OdCaller) (k : OdKey) (svc : Nat) (v : List Byte) (s : State), Asks s c 0 → svc = 0 ∨ 0xA < svc → ∃ t, exec
  (.odUnsupportedService c k svc v) s = .next t ∧ Answered t c 0xF ∧ t.od.errors = satAdd 0xFFFFFFFF s.od.errors 1 ∧
  t.od.act = s.od.act ∧ t.od.pend = s.od.pend)

/-- A download opens; a segment that follows what has come is taken and its count answered, while one beyond the
announced length, or a whole that fails its CRC-32C, ends the download with 0xC and no value changes; an upload takes
a snapshot and answers its length and CRC-32C, and its segments pieces of it; an abort, and the two timeouts, end
them. Each clause that runs a command concludes that exec answers a next state, under conditions on the state and the
operands alone. -/
def Obligations.DictionaryTransfers : Prop :=
  (∀ (c : OdCaller) (k : OdKey) (lv : Nat) (row : ObjRow) (total crc : Nat) (s : State), Asks s c lv → s.asked.row
  k.idx k.sub = some row → (s.asked.top k.idx).isSome = true → row.ty = ObjType.blob → row.acc ≠ Acc.ro →
  row.writeLevel ≤ lv → total < 2 ^ 32 → crc < 2 ^ 32 → total ≤ row.limit → s.od.transfers = [] →
  (s.asked.downloadStart k.idx k.sub).1 = 0 → ∃ t, exec (.odDownloadStart c k total crc) s = .next t ∧ Answered t c 0
  ∧ t.od.transfers = [(⟨c.path, c.source, c.session, (objKey k.idx k.sub), total, crc, []⟩ : Transfer)]) ∧
  (∀ (c : OdCaller) (k : OdKey) (lv : Nat) (row : ObjRow) (x : Transfer) (ofs : Nat) (v : List Byte) (h : Hint) (s :
  State), Asks s c lv → s.asked.row k.idx k.sub = some row → (s.asked.top k.idx).isSome = true → row.ty = ObjType.blob
  → row.acc ≠ Acc.ro → row.writeLevel ≤ lv → v ≠ [] → v.length ≤ 1024 → ofs < 2 ^ 32 → x.data.length = ofs →
  s.od.transfers = [x] → x.mine c (objKey k.idx k.sub) = true → (x.data ++ v).length < x.total → ∃ t, exec
  (.odDownloadSegment c k ofs v h) s = .next t ∧ Answered t c 0 ∧ AnswerData t (u32 (x.data ++ v).length) ∧
  t.od.transfers = [{ x with data := x.data ++ v }]) ∧
  (∀ (c : OdCaller) (k : OdKey) (lv : Nat) (row : ObjRow) (x : Transfer) (ofs : Nat) (v : List Byte) (h : Hint) (s :
  State), Asks s c lv → s.asked.row k.idx k.sub = some row → (s.asked.top k.idx).isSome = true → row.ty = ObjType.blob
  → row.acc ≠ Acc.ro → row.writeLevel ≤ lv → v ≠ [] → v.length ≤ 1024 → ofs < 2 ^ 32 → x.data.length = ofs →
  s.od.transfers = [x] → x.mine c (objKey k.idx k.sub) = true → x.total < (x.data ++ v).length ∨ ((x.data ++ v).length
  = x.total ∧ crc32c (x.data ++ v) ≠ x.crc) → ∃ t, exec (.odDownloadSegment c k ofs v h) s = .next t ∧ Answered t c
  0xC ∧ t.od.transfers = [] ∧ t.od.act = s.od.act) ∧
  (∀ (c : OdCaller) (k : OdKey) (lv : Nat) (row : ObjRow) (s : State), Asks s c lv → s.asked.row k.idx k.sub = some
  row → (s.asked.top k.idx).isSome = true → row.ty = ObjType.blob → row.acc ≠ Acc.wo → row.readLevel ≤ lv → ∃ t, exec
  (.odUploadStart c k) s = .next t ∧ Answered t c 0 ∧ AnswerData t (u32 (s.asked.readObj k.idx k.sub
  k.active).1.length ++ u32 (crc32c (s.asked.readObj k.idx k.sub k.active).1)) ∧ ((s.asked.readObj k.idx k.sub
  k.active).1 ≠ [] → (⟨c.path, c.source, (objKey k.idx k.sub), (s.asked.readObj k.idx k.sub k.active).1, []⟩ :
  Snapshot) ∈ t.od.snaps)) ∧
  (∀ (c : OdCaller) (k : OdKey) (lv : Nat) (row : ObjRow) (x : Snapshot) (ofs : Nat) (s : State), Asks s c lv →
  s.asked.row k.idx k.sub = some row → (s.asked.top k.idx).isSome = true → row.ty = ObjType.blob → row.acc ≠ Acc.wo →
  row.readLevel ≤ lv → ofs < 2 ^ 32 → ofs < x.data.length → s.od.snaps.find? (fun (y : Snapshot) => y.mine c (objKey
  k.idx k.sub)) = some x → ∃ t, exec (.odUploadSegment c k ofs) s = .next t ∧ Answered t c 0 ∧ AnswerData t
  ((x.data.drop ofs).take 1024)) ∧
  (∀ (c : OdCaller) (k : OdKey) (lv : Nat) (row : ObjRow) (s : State), Asks s c lv → s.asked.row k.idx k.sub = some
  row → (s.asked.top k.idx).isSome = true → ∃ t, exec (.odTransferAbort c k) s = .next t ∧ Answered t c 0 ∧ (∀ (x :
  Transfer), x ∈ t.od.transfers → x.mine c (objKey k.idx k.sub) = false) ∧ (∀ (x : Snapshot), x ∈ t.od.snaps → x.mine
  c (objKey k.idx k.sub) = false)) ∧
  (∀ (key : Nat) (s : State), s.od.transfers.any (fun (x : Transfer) => x.key == key) = true → ∃ t, exec
  (.transferIdleTimeout key) s = .next t ∧ t.od.transfers = s.od.transfers.filter (fun (x : Transfer) => x.key != key)
  ∧ t.od.act = s.od.act) ∧
  (∀ (path : Path) (source key : Nat) (s : State), ∃ t, exec (.uploadSnapshotTimeout path source key) s = .next t ∧ t
  = s.modOd (fun (o : Od) =>
  { o with snaps := o.snaps.filter (fun (x : Snapshot) => !(x.key == key && sameSource x.path path x.source source)) }))

/-- A valid token opens a session, whose number is the answer, and one that is not valid is counted and opens none;
closing or expiry ends it; a forwarded request without an answer is answered with the timeout error and counted; the
carrier brings a request to the server, where it is counted, or waits while the server is busy, or is refused as busy
where 32 wait; a message of another kind is counted as an error; a commit writes the image as the next bank, and one
that fails is counted and leaves flash as it was; a retry does the same; RestoreDefaults keeps of the image only
0x8030 and 0x8031 and what a calibration found. Each clause that runs a command concludes that exec answers a next
state, under conditions on the state and the operands alone. -/
def Obligations.SessionsAndStore : Prop :=
  (∀ (c : OdCaller) (level : Nat) (token : List Byte) (s : State), Asks s c 0 → 1 ≤ level → level ≤ 3 →
  s.od.sessions.length < 16 → s.tokenOk token 1 level (zeros 32) = true → ∃ t, exec (.odOpenSession c level token) s =
  .next t ∧ Answered t c 0 ∧ (∃ n, t.od.sessions = s.od.sessions ++ [(⟨n, c.path, c.source, level, leNat ((token.drop
  24).take 8)⟩ : Session)] ∧ AnswerData t (u32 n)) ∧ t.ident.tokenFails = s.ident.tokenFails) ∧
  (∀ (c : OdCaller) (level : Nat) (token : List Byte) (s : State), Asks s c 0 → 1 ≤ level → level ≤ 3 →
  s.od.sessions.length < 16 → s.tokenOk token 1 level (zeros 32) = false → ∃ t, exec (.odOpenSession c level token) s
  = .next t ∧ Answered t c 0xD ∧ t.od.sessions = s.od.sessions ∧ t.ident.tokenFails = satAdd 0xFFFFFFFF
  s.ident.tokenFails 1) ∧
  (∀ (c : OdCaller) (x : Session) (s : State), Asks s c 0 → c.session = x.num → x.num ≠ 0 → s.sessionOf c = some x → ∃
  t, exec (.odCloseSession c) s = .next t ∧ Answered t c 0 ∧ t.od.sessions = s.od.sessions.filter (fun (y : Session)
  => y.num != x.num)) ∧
  (∀ (num : Nat) (s : State), ∃ t, exec (.sessionExpiry num) s = .next t ∧ t = s.modOd (fun (o : Od) =>
  { o with sessions := o.sessions.filter (fun (x : Session) => x.num != num) })) ∧
  (∀ (c : OdCaller) (node : Nat) (e : Forwarded) (s : State), s.up = true → s.od.fwd.find? (fun (x : Forwarded) =>
  x.caller == c && x.node == node) = some e → e.bcast = none → e.buf = none → c.path = Path.pcie ∨ c.path = Path.spi →
  ∃ t, exec (.odForwardTimeout c node) s = .next t ∧ t.od.fwd = s.od.fwd.filter (fun (x : Forwarded) => x != e) ∧
  ((t.out.head?).bind Output.answer?).map (fun (x : Path × Nat × List Byte) => (x.1, x.2.1, x.2.2[1]?)) = some
  (c.path, c.source, some 0xA) ∧ t.od.errors = satAdd 0xFFFFFFFF s.od.errors 1) ∧
  (∀ (e w0 w1 w2 w3 : Nat) (full : Bool) (h : Hint) (s : State), e = 6 ∨ e = 7 → s.canReach (mbInit e) = true →
  (s.chan e 1).full = false → s.up = true → w1 < 2 ^ 32 → 81 ≤ s.mbox.chans.length → 9 ≤ s.mbox.ends.length → w0 =
  0x4F440001 → w1 + 16 + leNat (s.read (hostRegion + w1 + 12) 2) ≤ 0x100000 → s.read (hostRegion + w1) 1 = [1] →
  s.pathUp (if e = 6 then Path.pcie else Path.spi) = true → full = false → s.od.queue = [] → ∃ t, exec
  (.dictionaryCarrierPost e w0 w1 w2 w3 full h) s = .next t ∧ t.od.requests = (s.od.requests + 1) % 2 ^ 64 ∧ (t.chan e
  1).full = false ∧ t.od.act = s.od.act ∧ t.od.pend = s.od.pend) ∧
  (∀ (e w0 w1 w2 w3 : Nat) (full : Bool) (h : Hint) (s : State), e = 6 ∨ e = 7 → s.canReach (mbInit e) = true →
  (s.chan e 1).full = false → s.up = true → w1 < 2 ^ 32 → 81 ≤ s.mbox.chans.length → 9 ≤ s.mbox.ends.length → w0 =
  0x4F440001 → w1 + 16 + leNat (s.read (hostRegion + w1 + 12) 2) ≤ 0x100000 → s.pathUp (if e = 6 then Path.pcie else
  Path.spi) = true → full = true → s.od.queue.length < 32 → ∃ t, exec (.dictionaryCarrierPost e w0 w1 w2 w3 full h) s
  = .next t ∧ t.od.requests = (s.od.requests + 1) % 2 ^ 64 ∧ (t.chan e 1).full = false ∧ t.od.queue.length =
  s.od.queue.length + 1 ∧ t.od.queue.take s.od.queue.length = s.od.queue ∧ t.od.kept = s.od.kept) ∧
  (∀ (e w0 w1 w2 w3 : Nat) (full : Bool) (h : Hint) (s : State), e = 6 ∨ e = 7 → s.canReach (mbInit e) = true →
  (s.chan e 1).full = false → s.up = true → w1 < 2 ^ 32 → 81 ≤ s.mbox.chans.length → 9 ≤ s.mbox.ends.length → w0 =
  0x4F440001 → w1 + 16 + leNat (s.read (hostRegion + w1 + 12) 2) ≤ 0x100000 → s.pathUp (if e = 6 then Path.pcie else
  Path.spi) = true → full = true → 32 ≤ s.od.queue.length → ∃ t, exec (.dictionaryCarrierPost e w0 w1 w2 w3 full h) s
  = .next t ∧ t.od.busy = satAdd 0xFFFFFFFF s.od.busy 1 ∧ t.od.queue = s.od.queue ∧ t.od.act = s.od.act) ∧
  (∀ (e w0 w1 w2 w3 : Nat) (full : Bool) (h : Hint) (s : State), e = 6 ∨ e = 7 → s.canReach (mbInit e) = true →
  (s.chan e 1).full = false → s.up = true → w1 < 2 ^ 32 → 81 ≤ s.mbox.chans.length → 9 ≤ s.mbox.ends.length → w0 < 2 ^
  32 → w0 ≠ 0x4F440001 → ∃ t, exec (.dictionaryCarrierPost e w0 w1 w2 w3 full h) s = .next t ∧ t.od.errors = satAdd
  0xFFFFFFFF s.od.errors 1 ∧ t.od.requests = s.od.requests ∧ (t.chan e 1).full = false ∧ t.mem = s.mem) ∧
  (∀ (s : State), s.up = true → s.od.dirty = true → (commitBank s.flash.banks s.flash.guarded) < s.flash.banks.length
  → ∃ t, exec (.storeCommit true) s = .next t ∧ t.od.dirty = false ∧ t.flash.banks.getD (commitBank s.flash.banks
  s.flash.guarded) {} = (⟨true, s.storeVersion, (topSeq s.flash.banks + 1) % 2 ^ 32, s.od.image⟩ : Bank)) ∧
  (∀ (s : State), s.up = true → s.od.dirty = true → ∃ t, exec (.storeCommit false) s = .next t ∧ t.flash = s.flash ∧
  t.od.commitFailed = true ∧ t.od.storeFails = satAdd 0xFFFFFFFF s.od.storeFails 1 ∧ t.od.dirty = true) ∧
  (∀ (s : State), s.up = true → s.od.commitFailed = true → (commitBank s.flash.banks s.flash.guarded) <
  s.flash.banks.length → ∃ t, exec (.storeRetry true) s = .next t ∧ t.od.dirty = false ∧ t.flash.banks.getD
  (commitBank s.flash.banks s.flash.guarded) {} = (⟨true, s.storeVersion, (topSeq s.flash.banks + 1) % 2 ^ 32,
  s.od.image⟩ : Bank) ∧ t.od.commitFailed = false) ∧
  (∀ (s : State), s.up = true → s.od.commitFailed = true → ∃ t, exec (.storeRetry false) s = .next t ∧ t.flash =
  s.flash ∧ t.od.commitFailed = true ∧ t.od.storeFails = satAdd 0xFFFFFFFF s.od.storeFails 1) ∧
  (∀ (c : OdCaller) (s : State), Serves s c 1 (objKey 0x1110 3) → (commitBank s.flash.banks s.flash.guarded) <
  s.flash.banks.length → ∃ t, exec (.storeNow c true) s = .next t ∧ Answered t c 0 ∧ t.od.dirty = false ∧
  t.flash.banks.getD (commitBank s.flash.banks s.flash.guarded) {} = (⟨true, s.storeVersion, (topSeq s.flash.banks +
  1) % 2 ^ 32, s.od.image⟩ : Bank)) ∧
  (∀ (c : OdCaller) (s : State), Serves s c 1 (objKey 0x1110 3) → ∃ t, exec (.storeNow c false) s = .next t ∧ Answered
  t c 0xE ∧ t.flash = s.flash ∧ t.od.commitFailed = true ∧ t.od.storeFails = satAdd 0xFFFFFFFF s.od.storeFails 1) ∧
  (∀ (c : OdCaller) (s : State), Serves s c 2 (objKey 0x1110 4) → s.ident.imageState ≠ 1 → ∃ t, exec (.restoreDefaults
  c) s = .next t ∧ Answered t c 0 ∧ t.od.image = s.od.image.filter (fun (e : Nat × List Byte) => storeStays e.1) ∧
  t.od.dirty = true ∧ t.od.act = s.od.act)

/-- A 32-bit write stores the writable fields of a register, and one to a summary mask register fires the host
interrupt where it enables a summary bit that is set, a write of any width the bytes of pool SRAM; a write to a status
register follows the sequence rule of R412; a host's write to pool SRAM outside the host region, or to a window not
its own, is a bus error that is counted and changes neither memory nor registers. A 32-bit read of TIDE_NUM_LO answers
it and latches the high word, an aligned 64-bit read answers both words, and a read of any other width is a bus error,
counted and told. A read or a permitted write of IND_DATA reaches the selected word of Kiln SRAM and advances the
address as AUTOINC says; a poisoned one sets POISON, and a host's write is refused with REFUSED set. Each clause that
runs a command concludes that exec answers a next state, under conditions on the state and the operands alone. -/
def Obligations.RegisterAccesses : Prop :=
  (∀ (a : Access) (v : Nat) (s : State), s.canReach a.init = true → poolBase ≤ a.addr → 0 < a.width → a.addr + a.width
  ≤ poolBase + 0x1000000 → hostInit a.init = false ∨ hostPool a.addr a.width = true → ∃ t, exec (.registerWrite a v) s
  = .next t ∧ t = s.write a.addr (leBytes a.width v)) ∧
  (∀ (a : Access) (v : Nat) (s : State), s.canReach a.init = true → poolBase ≤ a.addr → 0 < a.width → a.addr + a.width
  ≤ poolBase + 0x1000000 → hostInit a.init = true → hostPool a.addr a.width = false → ∃ t, exec (.registerWrite a v) s
  = .next t ∧ t.host.busErrs = satAdd 0xFFFFFFFF s.host.busErrs 1 ∧ t.mem = s.mem ∧ t.regs = s.regs ∧ (t.stat
  stSys).has 0 = true) ∧
  (∀ (init o v : Nat) (r : RegRow) (s : State), Writes s init 0 → regRow? 0 o = some r → o < 0x10000 → o % 4 = 0 →
  r.seq = 0 → r.rws = 0 → r.rw ≠ 0 → o ≠ 0x48 → o ≠ 0x30 → o ≠ 0x34 → o ≠ 0x38 → v < 2 ^ 32 → ∃ t, exec
  (.registerWrite ⟨init, regAddr 0 o, 4⟩ v) s = .next t ∧ t.reg 0 o = mergeBits (s.reg 0 o) r.rw v ∧ t.mem = s.mem ∧
  t.stats = s.stats ∧ t.out = s.out) ∧
  (∀ (init o v : Nat) (s : State), Writes s init 0 → o = 0x30 ∨ o = 0x34 ∨ o = 0x38 → v < 2 ^ 32 → ∃ t, exec
  (.registerWrite ⟨init, regAddr 0 o, 4⟩ v) s = .next t ∧ t.reg 0 o = v ∧ t.mem = s.mem ∧ t.stats = s.stats ∧ t.out =
  (if irqWindows.any (fun (w : Nat) => s.irqWindow w && !s.hostMask w && decide (w / 32 = (o - 0x30) / 4) && bitOf v
  (w % 32)) = true ∧ s.hostSel = false then Output.vector 0 :: s.out else s.out)) ∧
  (∀ (init w o v : Nat) (s : State), s.canReach init = true → hostInit init = true → hostWritable w = false → w < 256
  → o < 0x10000 → ∃ t, exec (.registerWrite ⟨init, regAddr w o, 4⟩ v) s = .next t ∧ t.host.busErrs = satAdd 0xFFFFFFFF
  s.host.busErrs 1 ∧ t.regs = s.regs ∧ t.mem = s.mem ∧ t.power = s.power) ∧
  (∀ (init w o v : Nat) (r : RegRow) (s : State), Writes s init w → w ≠ 1 → w ≠ 2 → w < 256 → o < 0x10000 → o % 4 = 0
  → regRow? w o = some r → r.seq ≠ 0 → v < 2 ^ 32 → ∃ t, exec (.seqStatusWrite ⟨init, regAddr w o, 4⟩ v) s = .next t ∧
  t.stat (regKey w o) = (s.stat (regKey w o)).write v ∧ t.regs = s.regs ∧ t.mem = s.mem) ∧
  (∀ (init : Nat) (s : State), Reads s init 8 → ∃ t, exec (.tideNumLoRead init 4) s = .next t ∧ t.out.head? = some
  (Output.readData init (s.tide.num % 2 ^ 32) false) ∧ t.tide.numHi = s.tide.num / 2 ^ 32 % 2 ^ 16 ∧ t.tide.num =
  s.tide.num) ∧
  (∀ (init : Nat) (s : State), Reads s init 8 → ∃ t, exec (.tideNumLoRead init 8) s = .next t ∧ t.out.take 2 =
  [Output.readData init (s.tide.num / 2 ^ 32 % 2 ^ 16) false, Output.readData init (s.tide.num % 2 ^ 32) false] ∧
  t.tide.num = s.tide.num) ∧
  (∀ (init wd : Nat) (s : State), s.canReach init = true → wd ≠ 4 → wd ≠ 8 → ∃ t, exec (.tideNumLoRead init wd) s =
  .next t ∧ t.out.head? = some (Output.readData init 0 true) ∧ t.host.busErrs = satAdd 0xFFFFFFFF s.host.busErrs 1 ∧
  t.tide = s.tide) ∧
  (∀ (init : Nat) (s : State), Reads s init 0 → s.indSpace = 3 → s.indAddr < 3145728 → s.indOn s.indSpace s.indAddr =
  true → ∃ t, exec (.indDataRead init 4 false) s = .next t ∧ t.out.head? = some (Output.readData init (leNat ((upTo
  4).map fun (i : Nat) => s.kilnByte (4 * s.indAddr + i))) false) ∧ t.indAddr = (if bitOf (s.reg 0 0x40) 8 then
  (s.indAddr + 1) % 2 ^ 32 else s.indAddr) ∧ t.mem = s.mem) ∧
  (∀ (init : Nat) (s : State), Reads s init 0 → 3 ≤ s.indSpace → indIn s.indSpace s.indAddr = true → s.indOn
  s.indSpace s.indAddr = true → ∃ t, exec (.indDataRead init 4 true) s = .next t ∧ t.indAddr = (if bitOf (s.reg 0
  0x40) 8 then (s.indAddr + 1) % 2 ^ 32 else s.indAddr) ∧ (t.stat stInd).has 2 = true ∧ t.mem = s.mem) ∧
  (∀ (init v : Nat) (s : State), Writes s init 0 → init < 5 → s.indSpace = 3 → s.indAddr < 3145728 → s.indOn
  s.indSpace s.indAddr = true → bitOf (s.reg (winKiln (indKiln s.indAddr)) 0) 0 = false → v < 2 ^ 32 → ∃ t, exec
  (.indDataWrite init v) s = .next t ∧ t.mem = memWrite s.mem (kilnBase + 4 * s.indAddr) (leBytes 4 v) ∧ t.indAddr =
  (if bitOf (s.reg 0 0x40) 8 then (s.indAddr + 1) % 2 ^ 32 else s.indAddr)) ∧
  (∀ (init v : Nat) (s : State), Writes s init 0 → 5 ≤ init → indIn s.indSpace s.indAddr = true → s.indOn s.indSpace
  s.indAddr = true → v < 2 ^ 32 → ∃ t, exec (.indDataWrite init v) s = .next t ∧ t.mem = s.mem ∧ (t.stat stInd).has 1
  = true ∧ t.indAddr = (if bitOf (s.reg 0 0x40) 8 then (s.indAddr + 1) % 2 ^ 32 else s.indAddr))

/-- A post fills its channel, with its length, serial number and the sender's epoch, and rings the receiver, or is
refused with a status bit while the channel is full; what a host endpoint posts to CP0 is taken at once by the
firmware that runs, a message of another kind than a request being counted as an error. The receiver's header read
answers the header, moves the message and empties the channel, or answers 0; the doorbells are read with their
sequence number latched, cleared by the sequence rule and rung at another endpoint; the reset of a host endpoint or of
LINK raises its epoch, clears its mask and doorbells, discards what waits for it, tells its senders by doorbell 9 and
releases its semaphores; a semaphore is granted to the first reader, told to others, released by its owner alone, and
any other write is recorded as a violation. A read of another width than 32 or an aligned 64 bits is a bus error. Each
clause that runs a command concludes that exec answers a next state, under conditions on the state and the operands
alone. -/
def Obligations.MailboxesAndSemaphores : Prop :=
  (∀ (init e d len : Nat) (s : State), Reads s init 1 → e < 9 → mbInit e = init → d < 9 → d ≠ e → len < 16 → 81 ≤
  s.mbox.chans.length → 9 ≤ s.mbox.ends.length → (s.chan e d).full = false → d ≠ 1 ∨ e < 6 ∨ e = 8 ∨ s.up = false → ∃
  t, exec (.mbPost init e d len) s = .next t ∧ (t.chan e d).full = true ∧ (t.chan e d).len = min 8 len ∧ (t.chan e
  d).data = (s.chan e d).data ∧ (t.chan e d).serial = (s.chan e d).next ∧ (t.chan e d).next = ((s.chan e d).next + 1)
  % 256 ∧ (t.chan e d).epoch = (s.endPt e).epoch ∧ (t.endPt d).bells.has e = true) ∧
  (∀ (init e len : Nat) (s : State), Reads s init 1 → e < 9 → mbInit e = init → e = 6 ∨ e = 7 → len < 16 → 81 ≤
  s.mbox.chans.length → 9 ≤ s.mbox.ends.length → s.up = true → (s.chan e 1).full = false → ((s.chan e 1).data.getD 0
  0) ≠ 0x4F440001 → ∃ t, exec (.mbPost init e 1 len) s = .next t ∧ (t.chan e 1).full = false ∧ t.od.errors = satAdd
  0xFFFFFFFF s.od.errors 1 ∧ t.od.requests = s.od.requests) ∧
  (∀ (init e d len : Nat) (s : State), Reads s init 1 → e < 9 → mbInit e = init → d < 9 → d ≠ e → len < 16 → 81 ≤
  s.mbox.chans.length → 9 ≤ s.mbox.ends.length → (s.chan e d).full = true → ∃ t, exec (.mbPost init e d len) s = .next
  t ∧ t.mbox = s.mbox ∧ (t.stat (stMb e)).has 0 = true) ∧
  (∀ (init e src : Nat) (s : State), Reads s init 1 → e < 9 → mbInit e = init → src < 9 → src ≠ e → 81 ≤
  s.mbox.chans.length → 9 ≤ s.mbox.ends.length → src < (s.endPt e).hold.length → (s.chan src e).full = true → ∃ t,
  exec (.mbRxHdrRead init 4 e src) s = .next t ∧ t.out.head? = some (Output.readData init ((s.chan src e).header src)
  false) ∧ (t.chan src e).full = false ∧ (t.endPt e).hold.getD src [] = (s.chan src e).data) ∧
  (∀ (init e src : Nat) (s : State), Reads s init 1 → e < 9 → mbInit e = init → src < 9 → src ≠ e → 81 ≤
  s.mbox.chans.length → 9 ≤ s.mbox.ends.length → src < (s.endPt e).hold.length → (s.chan src e).full = false → ∃ t,
  exec (.mbRxHdrRead init 4 e src) s = .next t ∧ t.out.head? = some (Output.readData init 0 false) ∧ t.mbox = s.mbox) ∧
  (∀ (init e : Nat) (s : State), Reads s init 1 → e < 9 → mbInit e = init → 9 ≤ s.mbox.ends.length → ∃ t, exec
  (.mbDbPendRead init 4 e) s = .next t ∧ t.out.head? = some (Output.readData init (s.endPt e).bells.mask false) ∧
  (t.endPt e).latch = (s.endPt e).bells.num ∧ (t.endPt e).bells = (s.endPt e).bells) ∧
  (∀ (init e v : Nat) (s : State), Reads s init 1 → e < 9 → mbInit e = init → 9 ≤ s.mbox.ends.length → v < 2 ^ 32 → ∃
  t, exec (.mbDbClr init e v) s = .next t ∧ t.endPt e = (s.endPt e).clear v) ∧
  (∀ (init e v : Nat) (s : State), Reads s init 1 → e < 9 → mbInit e = init → 9 ≤ s.mbox.ends.length → v < 2 ^ 32 →
  bitsOf v 31 28 < 9 → bitsOf v 31 28 ≠ e → ∃ t, exec (.mbDbRing init e v) s = .next t ∧ (t.endPt (bitsOf v 31
  28)).bells = (s.endPt (bitsOf v 31 28)).bells.raise (((upTo 22).filter fun (i : Nat) => bitOf v i).map fun (i : Nat)
  => i + 10) ∧ t.mbox.chans = s.mbox.chans) ∧
  (∀ (e : Nat) (s : State), s.alive = true → 6 ≤ e → e ≤ 8 → 9 ≤ s.mbox.ends.length → 81 ≤ s.mbox.chans.length → ∃ t,
  exec (.endpointReset e) s = .next t ∧ (t.endPt e).epoch = ((s.endPt e).epoch + 1) % 256 ∧ (t.endPt e).mask = 0 ∧
  (t.endPt e).bells.set = [] ∧ (∀ (src : Nat), src < 9 → src ≠ e → (t.chan src e).full = false ∧ (t.endPt
  src).bells.has 9 = true) ∧ (∀ (n : Nat), t.mbox.sems.getD n none ≠ some (mbInit e))) ∧
  (∀ (init n : Nat) (s : State), Reads s init 2 → n < 32 → n < s.mbox.sems.length → s.mbox.sems.getD n none = none → ∃
  t, exec (.semRead init 4 n) s = .next t ∧ t.out.head? = some (Output.readData init 0 false) ∧ t.mbox.sems = setAt
  s.mbox.sems n (some init)) ∧
  (∀ (init n w : Nat) (s : State), Reads s init 2 → n < 32 → n < s.mbox.sems.length → s.mbox.sems.getD n none = some w
  → ∃ t, exec (.semRead init 4 n) s = .next t ∧ t.out.head? = some (Output.readData init ((w + 1) % 64) false) ∧
  t.mbox = s.mbox) ∧
  (∀ (init wd n : Nat) (s : State), s.canReach init = true → wd ≠ 4 → wd ≠ 8 → ∃ t, exec (.semRead init wd n) s =
  .next t ∧ t.out.head? = some (Output.readData init 0 true) ∧ t.host.busErrs = satAdd 0xFFFFFFFF s.host.busErrs 1 ∧
  t.mbox = s.mbox) ∧
  (∀ (init n v : Nat) (s : State), Writes s init 2 → n < 32 → n < s.mbox.sems.length → v < 2 ^ 32 → s.mbox.sems.getD n
  none = some init → ∃ t, exec (.semWrite init n v) s = .next t ∧ t.mbox.sems = setAt s.mbox.sems n none ∧ t.stats =
  s.stats) ∧
  (∀ (init n v : Nat) (s : State), Writes s init 2 → n < 32 → n < s.mbox.sems.length → v < 2 ^ 32 → s.mbox.sems.getD n
  none ≠ some init → ∃ t, exec (.semWrite init n v) s = .next t ∧ t.mbox.sems = s.mbox.sems ∧ (t.stat stSem).has 0 =
  true ∧ ((s.stat stSem).has 0 = false → t.mbox.nonInit = init ∧ t.mbox.nonSem = n))

/-- A PCIe reset puts the registers of its window at their reset values, each ring's pointers and drop count at 0 with
Sequence and gap kept, and ends the path's sessions. A record at the export DMA that one ring takes becomes its entry,
written to the host at WP with the next Sequence, or, without room, is counted as dropped and begins a gap; a ring's
vector is sent once WP has advanced; RP takes an aligned value below the size and refuses any other with a status bit.
An SPI frame to the host region reads or writes its words in order and answers the ready byte 0x80; an aborted write
frame has written the words that came whole; a reset frame resets endpoint SPIH and ends its sessions. The PCIe
function identifies itself and maps BAR0 to the registers, BAR2 to pool SRAM and the DRAM aperture, which it only
reads, as R421 says. Each clause that runs a command concludes that exec answers a next state, under conditions on the
state and the operands alone. -/
def Obligations.HostPaths : Prop :=
  (∀ (s : State), s.alive = true → s.domain 1 = true → s.hostSel = false → ∃ t, exec (.pcieReset) s = .next t ∧ (∀ (e
  : Nat × Nat), e ∈ t.regs → e.1 / 0x10000 ≠ 3) ∧ t.host.rings = s.host.rings.map (fun (r : ExpRing) =>
  { r with wp := 0, rp := 0, drops := 0, due := false }) ∧ t.mem = s.mem ∧ (∀ (x : Session), x ∈ t.od.sessions →
  x.path ≠ Path.pcie)) ∧
  (∀ (x : ExportRec) (rest : List ExportRec) (n : Nat) (s : State), s.host.expIn = x :: rest → s.domain 1 = true → n <
  8 → n < s.host.rings.length → (∀ (m : Nat), m < 8 → s.expTakes m x = decide (m = n)) → (s.host.rings.getD n {}).gapN
  = 0 → s.reg 3 0xC ≠ 0 → (s.host.rings.getD n {}).wp + (x.entry 0 false).length ≤ s.expSize n → (x.entry 0
  false).length + 32 + ((s.host.rings.getD n {}).wp + s.expSize n - (s.host.rings.getD n {}).rp) % s.expSize n ≤
  s.expSize n → ∃ t, exec (.exportRingEntry) s = .next t ∧ t.host.expIn = rest ∧ (t.host.rings.getD n {}).wp =
  ((s.host.rings.getD n {}).wp + (x.entry 0 false).length) % s.expSize n ∧ (t.host.rings.getD n {}).seq =
  (s.host.rings.getD n {}).seq + 1 ∧ Output.hostWrite (s.expBase n + (s.host.rings.getD n {}).wp) (x.entry
  (s.host.rings.getD n {}).seq false) ∈ t.out ∧ (t.stat (stPcie n)).has 0 = true) ∧
  (∀ (x : ExportRec) (rest : List ExportRec) (n : Nat) (s : State), s.host.expIn = x :: rest → s.domain 1 = true → n <
  8 → n < s.host.rings.length → (∀ (m : Nat), m < 8 → s.expTakes m x = decide (m = n)) → (s.host.rings.getD n {}).gapN
  = 0 → (s.host.rings.getD n {}).wp + (x.entry 0 false).length ≤ s.expSize n → s.expSize n < (x.entry 0 false).length
  + 32 + ((s.host.rings.getD n {}).wp + s.expSize n - (s.host.rings.getD n {}).rp) % s.expSize n → ∃ t, exec
  (.exportRingEntry) s = .next t ∧ t.host.expIn = rest ∧ (t.host.rings.getD n {}).drops = satAdd 0xFFFFFFFF
  (s.host.rings.getD n {}).drops 1 ∧ (t.host.rings.getD n {}).gapN = 1 ∧ (t.host.rings.getD n {}).wp =
  (s.host.rings.getD n {}).wp ∧ (t.stat (stPcie n)).has 1 = true) ∧
  (∀ (n : Nat) (s : State), s.domain 1 = true → n < 8 → n < s.host.rings.length → (s.host.rings.getD n {}).due = true
  → ∃ t, exec (.exportVector n) s = .next t ∧ t.out = Output.vector (1 + n) :: s.out ∧ (t.host.rings.getD n {}).due =
  false) ∧
  (∀ (init n v : Nat) (s : State), Writes s init 3 → n < 8 → n < s.host.rings.length → v % 32 = 0 → v < 2 ^ clampN 16
  30 (bitsOf (s.reg 3 (0x108 + 0x20 * n)) 28 24) → ∃ t, exec (.exportRingRpWrite init n v) s = .next t ∧
  (t.host.rings.getD n {}).rp = v ∧ t.stats = s.stats) ∧
  (∀ (init n v : Nat) (s : State), Writes s init 3 → n < 8 → v < 2 ^ 32 → v % 32 ≠ 0 ∨ 2 ^ clampN 16 30 (bitsOf (s.reg
  3 (0x108 + 0x20 * n)) 28 24) ≤ v → ∃ t, exec (.exportRingRpWrite init n v) s = .next t ∧ t.host.rings = s.host.rings
  ∧ (t.stat (stPcie n)).has 2 = true) ∧
  (∀ (o n : Nat) (vs : List Nat) (s : State), s.spiOn = true → 1 ≤ n → n ≤ 64 → o % 4 = 0 → o + 4 * n ≤ 0x100000 →
  vs.length = n → (∀ (v : Nat), v ∈ vs → v < 2 ^ 32) → ∃ t, exec (.spiWriteFrame ([2] ++ beBytes 4 (0x80F00000 + o) ++
  u8 n ++ vs.flatMap (fun (v : Nat) => leBytes 4 v))) s = .next t ∧ t.mem = memWrite s.mem (hostRegion + o)
  (vs.flatMap fun (v : Nat) => leBytes 4 v) ∧ t.out = Output.spi [0x80] :: s.out) ∧
  (∀ (o n : Nat) (s : State), s.spiOn = true → 1 ≤ n → n ≤ 64 → o % 4 = 0 → o + 4 * n ≤ 0x100000 → ∃ t, exec
  (.spiReadFrame ([3] ++ beBytes 4 (0x80F00000 + o) ++ u8 n)) s = .next t ∧ t.mem = s.mem ∧ t.out = Output.spi (0x80
  :: s.read (hostRegion + o) (4 * n)) :: s.out) ∧
  (∀ (o n : Nat) (vs : List Nat) (s : State), s.spiOn = true → 1 ≤ n → n ≤ 64 → o % 4 = 0 → o + 4 * n ≤ 0x100000 →
  vs.length < n → (∀ (v : Nat), v ∈ vs → v < 2 ^ 32) → ∃ t, exec (.spiFrameAbort ([2] ++ beBytes 4 (0x80F00000 + o) ++
  u8 n ++ vs.flatMap (fun (v : Nat) => leBytes 4 v)) 0) s = .next t ∧ t.mem = memWrite s.mem (hostRegion + o)
  (vs.flatMap fun (v : Nat) => leBytes 4 v) ∧ t.out = s.out) ∧
  (∀ (s : State), s.spiOn = true → 9 ≤ s.mbox.ends.length → ∃ t, exec (.spiResetFrame) s = .next t ∧ (t.endPt 7).epoch
  = ((s.endPt 7).epoch + 1) % 256 ∧ (∀ (x : Session), x ∈ t.od.sessions → x.path ≠ Path.spi) ∧ t.mem = s.mem ∧ t.host
  = s.host) ∧
  (∀ (s : State), (s.pcieIdent = [0x1F9C, 0x9140, 0x42, 0x118000, 0x1F9C, s.otp.variant % 256, 16]) ∧
    (∀ (ofs : Nat) (write : Bool), ofs < 0x1000000 → s.barAddr 0 ofs write = some (0x3000000000 + ofs) ∧ s.barAddr 2 ofs write = some (0x3400000000 + ofs)) ∧
    (∀ (ofs : Nat) (write : Bool), 0x20000000 ≤ ofs → ofs < 0x40000000 →
      s.barAddr 2 ofs write = if write = false ∧ s.dramOk (s.reg 3 8 * 2 ^ 29 + (ofs - 0x20000000)) = true then some (s.reg 3 8 * 2 ^ 29 + (ofs - 0x20000000)) else none) ∧
    (∀ (ofs : Nat) (write : Bool), 0x1000000 ≤ ofs → (ofs < 0x20000000 ∨ 0x40000000 ≤ ofs) → s.barAddr 2 ofs write = none))

/-- A slot without an owner serves the next entry of the pass, or an injected conversion, and places its aligned code
in AUX_DATA, an unread result before it being counted as overrun; the last entry of a pass with another due begins
that and is counted late. A due pass starts or is noted. The sequencer's read of a new result takes it into its queue,
whose writes the fabric completes oldest first; with 16 waiting it takes none; another initiator's read changes
nothing. An injection is requested, or counted as dropped while one waits or the converter is busy. REFRDY starts the
reference; a lost external one is a contained fault with its status bit. Each clause that runs a command concludes
that exec answers a next state, under conditions on the state and the operands alone. -/
def Obligations.HousekeepingConverter : Prop :=
  (∀ (slot : Nat) (vp vn vref : Int) (i : Nat) (s : State), s.hkOn = true → s.hk.refRdy = true → 0 < vref →
  s.slotOwned slot = false → s.hk.run = HkRun.none → s.hk.inj = none → s.hk.pass = some i → i + 1 < s.scanLen → ∃ t,
  exec (.hkSlotConversion slot vp vn vref) s = .next t ∧ t.hk.aux.source = (s.scanEntry i) % 32 ∧ t.hk.aux.diff =
  bitOf (s.scanEntry i) 5 ∧ t.hk.aux.value = s.hkAlign (s.hkCode (bitOf (s.scanEntry i) 5) vp vn vref).1 ∧
  t.hk.aux.new = true ∧ t.hk.overruns = (if s.hk.aux.new then satAdd 0xFFFFFFFF s.hk.overruns 1 else s.hk.overruns) ∧
  t.hk.aux.entry = i ∧ t.hk.pass = some (i + 1) ∧ t.hk.slot = slot % 10) ∧
  (∀ (slot : Nat) (vp vn vref : Int) (i : Nat) (s : State), s.hkOn = true → s.hk.refRdy = true → 0 < vref →
  s.slotOwned slot = false → s.hk.run = HkRun.none → s.hk.inj = none → s.hk.pass = some i → s.scanLen ≤ i + 1 → 0 <
  s.scanLen → s.hk.listDue = false → s.hk.passDue = true → ∃ t, exec (.hkSlotConversion slot vp vn vref) s = .next t ∧
  t.hk.aux.source = (s.scanEntry i) % 32 ∧ t.hk.aux.diff = bitOf (s.scanEntry i) 5 ∧ t.hk.aux.value = s.hkAlign
  (s.hkCode (bitOf (s.scanEntry i) 5) vp vn vref).1 ∧ t.hk.aux.new = true ∧ t.hk.overruns = (if s.hk.aux.new then
  satAdd 0xFFFFFFFF s.hk.overruns 1 else s.hk.overruns) ∧ t.hk.pass = some 0 ∧ t.hk.scanLate = satAdd 0xFFFFFFFF
  s.hk.scanLate 1 ∧ (t.stat stHk).has 2 = true) ∧
  (∀ (slot : Nat) (vp vn vref : Int) (e : Nat) (s : State), s.hkOn = true → s.hk.refRdy = true → 0 < vref →
  s.slotOwned slot = false → s.hk.run = HkRun.none → s.hk.inj = some e → ∃ t, exec (.hkSlotConversion slot vp vn vref)
  s = .next t ∧ t.hk.aux.source = e % 32 ∧ t.hk.aux.diff = bitOf e 5 ∧ t.hk.aux.value = s.hkAlign (s.hkCode (bitOf e
  5) vp vn vref).1 ∧ t.hk.aux.new = true ∧ t.hk.overruns = (if s.hk.aux.new then satAdd 0xFFFFFFFF s.hk.overruns 1
  else s.hk.overruns) ∧ t.hk.aux.inj = true ∧ t.hk.inj = none ∧ t.hk.pass = s.hk.pass) ∧
  (∀ (s : State), s.hkOn = true → s.hk.ready = true → bitOf (s.reg 0x40 0) 1 = true → 0 < s.scanLen → ∃ t, exec
  (.hkScanPassStart) s = .next t ∧ t.hk.pass = (if s.hk.pass.isSome then s.hk.pass else some 0) ∧ (s.hk.pass.isSome =
  true → t.hk.passDue = true)) ∧
  (∀ (done : Nat) (s : State), Reads s 31 0x40 → s.hk.aux.new = true → s.hk.aux.source < 16 → s.hk.aux.inj = false →
  s.hk.queue = [] → 1 ≤ done → ∃ t, exec (.auxDataRead 31 4 done) s = .next t ∧ t.hk.aux.new = false ∧ t.hk.queue = []
  ∧ lookup s.hk.aux.source t.hk.values = some (⟨(s.sourceValue s.hk.aux).1, s.hk.aux.time, s.hk.aux.ovr ||
  s.hk.aux.brk⟩ : HkVal) ∧ t.out.head? = some (Output.readData 31 s.hk.aux.word false)) ∧
  (∀ (s : State), Reads s 31 0x40 → s.hk.aux.new = true → s.hk.queue.length < 16 → ∃ t, exec (.auxDataRead 31 4 0) s =
  .next t ∧ t.hk.aux.new = false ∧ t.hk.queue = s.hk.queue ++ [s.hk.aux] ∧ t.hk.values = s.hk.values ∧ t.out.head? =
  some (Output.readData 31 s.hk.aux.word false)) ∧
  (∀ (s : State), Reads s 31 0x40 → 16 ≤ s.hk.queue.length → ∃ t, exec (.auxDataRead 31 4 0) s = .next t ∧ t.hk = s.hk
  ∧ t.out.head? = some (Output.readData 31 s.hk.aux.word false)) ∧
  (∀ (init : Nat) (s : State), Reads s init 0x40 → init ≠ 31 → ∃ t, exec (.auxDataRead init 4 0) s = .next t ∧ t.hk =
  s.hk ∧ t.out.head? = some (Output.readData init s.hk.aux.word false)) ∧
  (∀ (c : OdCaller) (e : Nat) (s : State), Serves s c 1 (objKey 0x8000 7) → e < 64 → e % 32 < 24 → s.hkBusy = false →
  s.hk.run = HkRun.none → s.hk.inj = none → ∃ t, exec (.injectInput (.od c) e) s = .next t ∧ Answered t c 0 ∧ t.hk.inj
  = some e) ∧
  (∀ (init e : Nat) (s : State), Writes s init 0x40 → e < 64 → s.hkBusy = false → s.hk.run = HkRun.none → s.hk.inj =
  none → ∃ t, exec (.injectInput (.reg init) e) s = .next t ∧ t.hk.inj = some e) ∧
  (∀ (init e : Nat) (s : State), Writes s init 0x40 → e < 64 → (s.hkBusy = true ∨ s.hk.run ≠ HkRun.none ∨ s.hk.inj ≠
  none) → ∃ t, exec (.injectInput (.reg init) e) s = .next t ∧ t.hk.inj = s.hk.inj ∧ t.hk.injDrops = satAdd 0xFFFFFFFF
  s.hk.injDrops 1 ∧ (t.stat stHk).has 1 = true) ∧
  (∀ (s : State), s.hkOn = true → ∃ t, exec (.refrdy) s = .next t ∧ t.hk.refRdy = true ∧ t.hk.refLost = false) ∧
  (∀ (s : State), s.hkOn = true → s.hkRef = 1 → s.hk.refRdy = true → ∃ t, exec (.refinLost) s = .next t ∧ t.hk.refRdy
  = false ∧ t.hk.refLost = true ∧ (t.stat stHk).has 4 = true ∧ t.bwf.contained = satAdd 0xFFFFFFFF s.bwf.contained 1)

/-- A self-calibration starts on request or by period; runs that agree end it with their means as targets, runs that
do not with a counted failure, the factors in use kept; without one it becomes stale. A system calibration starts, of
gain only where an offset is accepted, and zero runs within 2 LSB of each other set the input's offset to their mean,
others are a counted failure that changes no object. A bridge conversion's end forms the 16-bit code of its samples
and takes over the settings; a monitor that trips, the compliance of 2.6 V, half of the predicted V_S or the window of
0.05 V to 2.70 V, flags the running conversion and one in its hold; the result is delivered with code, ratio, flags
and AUX_DATA, and a flagged one is counted and sets BREAKn. A run of the transmit trims over 4,096 gaps waits for a
second; two that agree set their mean as the target, two that do not count a failure and set TxDacCalState 2, and
neither steps the correction in use. Each clause that runs a command concludes that exec answers a next state, under
conditions on the state and the operands alone. -/
def Obligations.CalibrationsAndBridges : Prop :=
  (∀ (c : OdCaller) (s : State), Serves s c 1 (objKey 0x8020 1) → s.hk.run = HkRun.none → ∃ t, exec (.hkSelfCal (some
  (.od c))) s = .next t ∧ Answered t c 0 ∧ t.hk.run = HkRun.self ∧ t.hk.selfState = 3 ∧ t.hk.again = false) ∧
  (∀ (init : Nat) (s : State), Writes s init 0x40 → s.hkOn = true → s.hk.run = HkRun.none → ∃ t, exec (.hkSelfCal
  (some (.reg init))) s = .next t ∧ t.hk.run = HkRun.self ∧ t.hk.selfState = 3 ∧ t.hk.again = false) ∧
  (∀ (s : State), s.hkOn = true → s.nat 0x8020 5 ≠ 0 → s.hk.run = HkRun.none → ∃ t, exec (.hkSelfCal none) s = .next t
  ∧ t.hk.run = HkRun.self ∧ t.hk.selfState = 3 ∧ t.hk.again = false) ∧
  (∀ (o1 o2 : Int) (g1 g2 : Nat) (s : State), s.hkOn = true → s.hk.run = HkRun.self → s.hk.refRdy = true → selfAgree
  o1 o2 g1 g2 = true → ∃ t, exec (.hkSelfCalDone o1 o2 g1 g2) s = .next t ∧ t.hk.run = HkRun.none ∧ t.hk.ready = true
  ∧ t.hk.ofsT = (o1 + o2) / 2 ∧ t.hk.gainT = (g1 + g2) / 2 ∧ t.hk.selfState = 1 ∧ t.hk.calCount = satAdd 0xFFFFFFFF
  s.hk.calCount 1 ∧ (t.stat stHk).has 8 = true) ∧
  (∀ (o1 o2 : Int) (g1 g2 : Nat) (s : State), s.hkOn = true → s.hk.run = HkRun.self → s.hk.refRdy = true → selfAgree
  o1 o2 g1 g2 = false → s.hk.ready = true ∨ s.hk.again = true → ∃ t, exec (.hkSelfCalDone o1 o2 g1 g2) s = .next t ∧
  t.hk.run = HkRun.none ∧ t.hk.selfState = 2 ∧ t.hk.calFails = satAdd 0xFFFFFFFF s.hk.calFails 1 ∧ (t.stat stHk).has 5
  = true ∧ (s.hk.ready = true → t.hk.ofsT = s.hk.ofsT ∧ t.hk.gainT = s.hk.gainT)) ∧
  (∀ (s : State), s.up = true → s.nat 0x8020 5 ≠ 0 → s.hk.run ≠ HkRun.self → ∃ t, exec (.hkSelfCalStale) s = .next t ∧
  t = s.modHk (fun (h : Hk) => { h with selfState := 4 })) ∧
  (∀ (c : OdCaller) (input : Nat) (s : State), Serves s c 1 (objKey 0x8020 7) → s.hk.run = HkRun.none → input < 16 → ∃
  t, exec (.sysCalZero c input) s = .next t ∧ Answered t c 0 ∧ t.hk.run = HkRun.sys false input ∧ t.hk.sysState = 3) ∧
  (∀ (c : OdCaller) (input : Nat) (s : State), Serves s c 1 (objKey 0x8020 8) → s.hk.run = HkRun.none → s.zeroAccepted
  input = true → input < 16 → ∃ t, exec (.sysCalFull c input) s = .next t ∧ Answered t c 0 ∧ t.hk.run = HkRun.sys true
  input ∧ t.hk.sysState = 3) ∧
  (∀ (s1 s2 : Int) (input : Nat) (s : State), s.hk.run = HkRun.sys false input → (s1 - s2).natAbs ≤ 512 → ∃ t, exec
  (.sysCalDone s1 s2) s = .next t ∧ t.obj 0x8030 (input % 32 + 1) = leBytes 4 (Num.ofRatio (s1 + s2) 512).toF32 ∧
  t.hk.run = HkRun.none ∧ t.hk.sysState = 1 ∧ (t.stat stHk).has 8 = true) ∧
  (∀ (s1 s2 : Int) (input : Nat) (s : State), s.hk.run = HkRun.sys false input → 512 < (s1 - s2).natAbs → ∃ t, exec
  (.sysCalDone s1 s2) s = .next t ∧ t.od = s.od ∧ t.hk.run = HkRun.none ∧ t.hk.sysState = 2 ∧ t.hk.calFails = satAdd
  0xFFFFFFFF s.hk.calFails 1 ∧ (t.stat stHk).has 5 = true) ∧
  (∀ (n : Nat) (runs : List (Nat × Int × Nat)) (s : State), s.hkOn = true → n < 2 → (s.hk.br n).cfg.en = false → ∃ t,
  exec (.bridgeConversionEnd n runs) s = .next t ∧ (t.hk.br n).cfg = s.brCfg n ∧ (t.hk.br n).wait = (s.hk.br n).wait) ∧
  (∀ (n : Nat) (runs : List (Nat × Int × Nat)) (s : State), s.hkOn = true → n < 2 → (s.hk.br n).cfg.en = true →
  s.hk.refRdy = true → s.hk.ready = true → sumN (runs.map fun (r : Nat × Int × Nat) => r.1) = (s.hk.br n).cfg.samples
  → ∃ t, exec (.bridgeConversionEnd n runs) s = .next t ∧ (t.hk.br n).wait.map (fun (w : BrRes) => (w.code, w.ovr,
  w.brk, w.first)) = some (clampI (-32768) 32767 (16 * (brSum (s.hk.br n).cfg.gain 0 runs).1 / (s.hk.br
  n).cfg.samples), (brSum (s.hk.br n).cfg.gain 0 runs).2, (s.hk.br n).brk, decide (0 < (s.hk.br n).setA)) ∧ (t.hk.br
  n).cfg = s.brCfg n ∧ (t.hk.br n).brk = false) ∧
  (∀ (n : Nat) (drive vs vp vn : Int) (s : State), s.bridgeTrip n drive vs vp vn = false → ∃ t, exec
  (.bridgeBreakDetect n drive vs vp vn) s = .next t ∧ t = s) ∧
  (∀ (n : Nat) (drive vs vp vn : Int) (s : State), s.hkOn = true → n < 2 → (s.hk.br n).cfg.en = true → ((s.hk.br
  n).cfg.vmode = false ∧ 2600000 ≤ drive) ∨ (Num.ofInt (2 * vs)).lt (s.predictedVs n) = true ∨ vp < 50000 ∨ 2700000 <
  vp ∨ vn < 50000 ∨ 2700000 < vn → ∃ t, exec (.bridgeBreakDetect n drive vs vp vn) s = .next t ∧ (t.hk.br n).brk =
  true ∧ (t.hk.br n).wait.all (fun (w : BrRes) => w.brk) = true ∧ (t.hk.br n).code = (s.hk.br n).code) ∧
  (∀ (n : Nat) (w : BrRes) (s : State), n < 2 → (s.hk.br n).wait = some w → w.cfg.func ≠ 1 → ∃ t, exec (.bridgeResult
  n) s = .next t ∧ (t.hk.br n).code = w.code ∧ (t.hk.br n).wait = none ∧ (t.hk.br n).ratio = ((Num.ofInt (2 * w.code +
  1)).div (Num.ofInt (65536 * w.cfg.gain))).toF32 ∧ (t.hk.br n).flags = bit (w.first || (!w.brk && decide (0 <
  (s.hk.br n).setB))) + 2 * bit w.brk + 4 * bit w.ovr ∧ t.hk.aux.source = 24 + n ∧ (w.brk = true → (t.hk.br n).breaks
  = satAdd 0xFFFFFFFF (s.hk.br n).breaks 1 ∧ (t.stat stHk).has (6 + n) = true)) ∧
  (∀ (q : Port) (res : List Int) (s : State), s.up = true → s.domain (10 + Port.num q) = true → (s.port q).hasPlan =
  true → (s.port q).trim.window = true → s.unmuted q = true → 4096 ≤ (s.port q).gaps → (s.port q).trim.prev = none → ∃
  t, exec (.dacTrimRun q res) s = .next t ∧ (t.port q).trim.prev = some res ∧ (t.port q).trim.target = (s.port
  q).trim.target ∧ (t.port q).trim.state = (s.port q).trim.state ∧ (t.port q).trim.use = (s.port q).trim.use ∧ (t.port
  q).gaps = 0 ∧ (t.port q).opt = (s.port q).opt) ∧
  (∀ (q : Port) (res r0 : List Int) (s : State), s.up = true → s.domain (10 + Port.num q) = true → (s.port q).hasPlan
  = true → (s.port q).trim.window = true → s.unmuted q = true → 4096 ≤ (s.port q).gaps → (s.port q).trim.prev = some
  r0 → runsAgree [20, 10, 10] r0 res = true → ∃ t, exec (.dacTrimRun q res) s = .next t ∧ (t.port q).trim.prev = none
  ∧ (t.port q).trim.target = runsMean r0 res ∧ (t.port q).trim.state = 1 ∧ (t.port q).trim.tides = 0 ∧ (t.port
  q).trim.use = (s.port q).trim.use ∧ (t.port q).gaps = 0 ∧ (t.port q).opt = (s.port q).opt) ∧
  (∀ (q : Port) (res r0 : List Int) (s : State), s.up = true → s.domain (10 + Port.num q) = true → (s.port q).hasPlan
  = true → (s.port q).trim.window = true → s.unmuted q = true → 4096 ≤ (s.port q).gaps → (s.port q).trim.prev = some
  r0 → runsAgree [20, 10, 10] r0 res = false → ∃ t, exec (.dacTrimRun q res) s = .next t ∧ (t.port q).trim.prev = none
  ∧ (t.port q).trim.target = (s.port q).trim.target ∧ (t.port q).trim.state = 2 ∧ (t.port q).trim.fails = satAdd
  0xFFFFFFFF (s.port q).trim.fails 1 ∧ (t.port q).trim.use = (s.port q).trim.use ∧ (t.port q).gaps = 0 ∧ (t.port
  q).opt = (s.port q).opt)

/-- The signature that ends an attestation is a free value (log 11). Each clause that runs a command concludes that
exec answers a next state, under conditions on the state and the operands alone. -/
def Obligations.IdentityAndOwner : Prop :=
  (∀ (c : OdCaller) (v : List Byte) (s : State), Serves s c 0 (objKey 0x1002 1) → v.length = 32 → s.ident.idState = 0
  → ∃ t, exec (.attestChallenge c v) s = .next t ∧ Answered t c 0 ∧ (∃ g, t.ident.attest = v ++ s.deviceId ++ sha256
  s.ident.running ++ leBytes 4 s.otp.secVersion ++ leBytes 8 s.time.now ++ g)) ∧
  (∀ (c : OdCaller) (v : List Byte) (s : State), Serves s c 3 (objKey 0x1001 1) → v.length ≤ 1024 → sha256 v =
  s.otp.certHash → ∃ t, exec (.deviceCertificate c v) s = .next t ∧ Answered t c 0 ∧ t.flash.cert = v ∧ t.ident =
  s.ident) ∧
  (∀ (c : OdCaller) (v : List Byte) (s : State), Serves s c 2 (objKey 0x1400 1) → s.ownerState = 0 → (ecKey? v).isSome
  = true → ∃ t, exec (.ownerKey c v true) s = .next t ∧ Answered t c 0 ∧ t.flash.owner = some (⟨v, 0, false, true⟩ :
  OwnerRec)) ∧
  (∀ (c : OdCaller) (v : List Byte) (r : OwnerRec) (s : State), Serves s c 0 (objKey 0x1400 5) → s.flash.owner = some
  r → v.length ≤ 1024 → s.tokenOk v 3 0 (zeros 32) = true → ∃ t, exec (.ownerUnlock c v) s = .next t ∧ Answered t c 0
  ∧ t.flash.owner = some { r with locked := false, counter := tokenCounter v } ∧ t.ident.tokenFails =
  s.ident.tokenFails) ∧
  (∀ (c : OdCaller) (v : List Byte) (s : State), Serves s c 0 (objKey 0x1400 5) → v.length ≤ 1024 → s.tokenOk v 3 0
  (zeros 32) = false → s.tokenOk v 5 0 (zeros 32) = true → ∃ t, exec (.ownerRelease c v) s = .next t ∧ Answered t c 0
  ∧ t.flash.owner = none ∧ t.od.sessions = s.od.sessions.filter (fun (x : Session) => x.level == 3) ∧
  t.ident.tokenFails = s.ident.tokenFails) ∧
  (∀ (c : OdCaller) (v : List Byte) (r : OwnerRec) (s : State), Serves s c 0 (objKey 0x1400 6) → s.flash.owner = some
  r → v.length ≤ 1024 → s.tokenOk (v.take 136) 4 0 (sha256 (v.drop 136)) = true → (ecKey? (v.drop 136)).isSome = true
  → ∃ t, exec (.ownerTransfer c v) s = .next t ∧ Answered t c 0 ∧ t.flash.owner = some
  { r with key := v.drop 136, counter := tokenCounter (v.take 136) } ∧ t.od.sessions = s.od.sessions.filter (fun (x :
  Session) => x.level == 3) ∧ t.ident.tokenFails = s.ident.tokenFails) ∧
  (∀ (c : OdCaller) (v : List Byte) (s : State), Serves s c 0 (objKey 0x1400 5) → v.length ≤ 1024 → s.tokenOk v 3 0
  (zeros 32) = false → s.tokenOk v 5 0 (zeros 32) = false → ∃ t, exec (.ownerUnlock c v) s = .next t ∧ Answered t c
  0xD ∧ t.flash = s.flash ∧ t.ident.tokenFails = satAdd 0xFFFFFFFF s.ident.tokenFails 1) ∧
  (∀ (c : OdCaller) (r : OwnerRec) (s : State), Serves s c 2 (objKey 0x1400 4) → s.flash.owner = some r → r.intact =
  true → ∃ t, exec (.ownerLock c) s = .next t ∧ Answered t c 0 ∧ t.flash.owner = some { r with locked := true } ∧
  t.flash.armed = false)

/-- A valid token for the staged image is held. UpdateApply 0 disarms, 1 and 2 arm a staged image with no capture,
supply or battery in the way, 1 with a reset to follow, and 3 asks for the fallback's reset while an image awaits
confirmation. A start installs an armed image once, active becoming previous and staging active, or with a supply
missing leaves it armed; a start with an image that awaits confirmation and is not newly installed falls back:
previous becomes active, staging is erased, the fallback is counted. Confirmation, by write or by firmware's own
conditions, burns SecurityVersion to at least the image's and erases staging; without it in time a reset is asked for.
The ROM waits for an installation or a fallback that is pending, boots the active image that it accepts, waits for a
load where it accepts neither slot, and takes a load it accepts over a path that is open, and none over one that is
not. Each clause that runs a command concludes that exec answers a next state, under conditions on the state and the
operands alone. -/
def Obligations.FirmwareUpdates : Prop :=
  (∀ (c : OdCaller) (v : List Byte) (s : State), Serves s c 2 (objKey 0x1410 4) → v.length ≤ 1024 → s.ownerState ≠ 2 →
  s.ident.stageState = 2 ∨ s.ident.stageState = 3 → s.tokenOk v 2 0 (sha256 (s.flash.staging.take 256)) = true → ∃ t,
  exec (.updateToken c v) s = .next t ∧ Answered t c 0 ∧ t.ident.tokenHeld = true ∧ t.ident.tokenFails =
  s.ident.tokenFails) ∧
  (∀ (c : OdCaller) (s : State), Serves s c 2 (objKey 0x1410 5) → s.ownerState ≠ 2 → ∃ t, exec (.updateDisarm c) s =
  .next t ∧ Answered t c 0 ∧ t.flash.armed = false ∧ t.power.resetAsked = s.power.resetAsked) ∧
  (∀ (c : OdCaller) (s : State), Serves s c 2 (objKey 0x1410 5) → s.ownerState = 0 → s.ident.stageState = 2 →
  s.captureBusy = false → s.power.vmainOk = true → s.vbatLow = false → ∃ t, exec (.updateApplyRestart c) s = .next t ∧
  Answered t c 0 ∧ t.flash.armed = true ∧ t.ident.stageState = 3 ∧ t.power.resetAsked = true ∧ t.ident.holdOff = true) ∧
  (∀ (c : OdCaller) (s : State), Serves s c 2 (objKey 0x1410 5) → s.ownerState = 0 → s.ident.stageState = 2 →
  s.captureBusy = false → s.power.vmainOk = true → s.vbatLow = false → ∃ t, exec (.updateApplyNextStart c) s = .next t
  ∧ Answered t c 0 ∧ t.flash.armed = true ∧ t.ident.stageState = 3 ∧ t.power.resetAsked = s.power.resetAsked) ∧
  (∀ (c : OdCaller) (s : State), Serves s c 2 (objKey 0x1410 5) → s.ownerState ≠ 2 → s.ident.imageState = 1 → ∃ t,
  exec (.updateForceFallback c) s = .next t ∧ Answered t c 0 ∧ t.power.resetAsked = true ∧ t.flash = s.flash) ∧
  (∀ (s : State), s.power.phase = Phase.starting → s.pllsLocked = true → s.bootFlash = true → s.flash.armed = true →
  s.ident.checked = false → s.power.vmainOk = true → ∃ t, exec (.imageInstall true) s = .next t ∧ t.flash.previous =
  s.flash.active ∧ t.flash.active = s.flash.staging ∧ t.flash.armed = false ∧ t.flash.awaiting = true ∧ t.ident.fresh
  = true ∧ t.ident.checked = true) ∧
  (∀ (vbatOk : Bool) (s : State), s.power.phase = Phase.starting → s.pllsLocked = true → s.bootFlash = true →
  s.flash.armed = true → s.ident.checked = false → s.power.vmainOk = false ∨ vbatOk = false → ∃ t, exec (.imageInstall
  vbatOk) s = .next t ∧ t.flash = s.flash ∧ t.ident = { s.ident with checked := true }) ∧
  (∀ (c : OdCaller) (s : State), Serves s c 1 (objKey 0x1410 7) → s.ident.imageState = 1 → ∃ t, exec (.confirm (some
  c)) s = .next t ∧ Answered t c 0 ∧ t.otp.secVersion = max s.otp.secVersion (hdrField s.ident.running 16 4) ∧
  t.flash.staging = [] ∧ t.flash.awaiting = false ∧ t.flash.guarded = none ∧ t.ident.imageState = 0 ∧ s.otp.secVersion
  ≤ t.otp.secVersion) ∧
  (∀ (s : State), s.up = true → s.ident.imageState = 1 → s.autoConfirmOk = true → ∃ t, exec (.confirm none) s = .next
  t ∧ t.otp.secVersion = max s.otp.secVersion (hdrField s.ident.running 16 4) ∧ t.flash.staging = [] ∧
  t.flash.awaiting = false ∧ t.flash.guarded = none ∧ t.ident.imageState = 0 ∧ s.otp.secVersion ≤ t.otp.secVersion) ∧
  (∀ (s : State), s.up = true → s.ident.imageState = 1 → ∃ t, exec (.confirmTimeout) s = .next t ∧ t = s.askReset) ∧
  (∀ (s : State), s.power.phase = Phase.starting → s.pllsLocked = true → s.bootFlash = true → s.flash.awaiting = true
  → s.ident.fresh = false → ∃ t, exec (.fallback) s = .next t ∧ t.flash.active = s.flash.previous ∧ t.flash.staging =
  [] ∧ t.flash.awaiting = false ∧ t.flash.guarded = none ∧ t.ident.imageState = 2 ∧ t.ident.stageResult = 12 ∧
  t.ident.fallbacks = satAdd 0xFFFFFFFF s.ident.fallbacks 1 ∧ t.otp = s.otp) ∧
  (∀ (load : Option (List Byte)) (s : State), s.power.phase = Phase.starting → s.power.pllS = true → s.power.pllD =
  true → s.power.pllF = true → s.dram.trained = true → s.bootFlash = true → s.flash.awaiting = false → s.flash.armed =
  false ∨ s.ident.checked = true → s.ident.loadWait = false → s.romAccepts s.flash.active = true → ∃ t, exec (.boot
  load) s = .next t ∧ t.power.phase = Phase.running ∧ t.ident.running = s.flash.active.take 256 ∧ t.ident.imageState =
  s.ident.imageState ∧ t.otp = s.otp ∧ t.flash.active = s.flash.active) ∧
  (∀ (load : Option (List Byte)) (s : State), s.power.phase = Phase.starting → s.power.pllS = true → s.power.pllD =
  true → s.power.pllF = true → s.dram.trained = true → s.bootFlash = true → s.flash.awaiting = false → s.flash.armed =
  false ∨ s.ident.checked = true → s.ident.loadWait = false → s.romAccepts s.flash.active = false → s.romAccepts
  s.flash.previous = false → ∃ t, exec (.boot load) s = .next t ∧ t.ident.loadWait = true ∧ t.power = s.power) ∧
  (∀ (img : List Byte) (s : State), s.power.phase = Phase.starting → s.power.pllS = true → s.power.pllD = true →
  s.power.pllF = true → s.dram.trained = true → s.bootFlash = false → s.loadOpen = true → s.romAccepts img = true → ∃
  t, exec (.boot (some img)) s = .next t ∧ t.power.phase = Phase.running ∧ t.ident.running = img.take 256 ∧
  t.ident.imageState = 3 ∧ t.flash.active = s.flash.active) ∧
  (∀ (load : Option (List Byte)) (s : State), s.power.phase = Phase.starting → s.power.pllS = true → s.power.pllD =
  true → s.power.pllF = true → s.dram.trained = true → s.bootFlash = true → (s.flash.awaiting = true ∧ s.ident.fresh =
  false) ∨ (s.flash.armed = true ∧ s.ident.checked = false) → ∃ t, exec (.boot load) s = .next t ∧ t = s) ∧
  (∀ (img : List Byte) (s : State), s.power.phase = Phase.starting → s.power.pllS = true → s.power.pllD = true →
  s.power.pllF = true → s.dram.trained = true → s.bootFlash = false → s.loadOpen = false → ∃ t, exec (.boot (some
  img)) s = .next t ∧ t = s)

/-- PORST_N, SYSRST_N low for 1 µs, a brown-out and requested resets bring a full reset with their cause, 0, 1, 2 or
5: registers, memory, dictionary and ports are as State.reset has them, the flash and the fuses as they were; a
shorter SYSRST_N changes nothing. The release latches the straps and pins, starts with domain SYS alone, keeps the
cause, sets SafeHold after 8 fatal resets in the hour and shows a tamper edge that was owed. A domain that it is the
ROM's or firmware's turn to switch comes on and every other stays; SafeHoldClear clears SafeHold; a requested reset is
asked for, and follows where no Tide runs. Each clause that runs a command concludes that exec answers a next state,
under conditions on the state and the operands alone. -/
def Obligations.ResetsAndStarts : Prop :=
  (∀ (s : State), s.power.phase ≠ Phase.standby → s.power.phase ≠ Phase.porst → ∃ t, exec (.porstAssert) s = .next t ∧
  t.power.phase = Phase.porst ∧ t.aon.cause = 0 ∧ t.flash = s.flash ∧ t.otp = s.otp ∧ t.regs = State.reset.regs ∧
  t.mem = State.reset.mem ∧ t.od = State.reset.od ∧ t.port = State.reset.port ∧ t.power.porstLow = true) ∧
  (∀ (lowNs : Nat) (s : State), s.power.phase ≠ Phase.standby → s.power.phase ≠ Phase.porst → 1000 ≤ lowNs → ∃ t, exec
  (.sysrst lowNs) s = .next t ∧ t.power.phase = Phase.held ∧ t.aon.cause = 1 ∧ t.flash = s.flash ∧ t.otp = s.otp ∧
  t.regs = State.reset.regs ∧ t.mem = State.reset.mem ∧ t.od = State.reset.od ∧ t.port = State.reset.port ∧
  t.power.sysrstLow = true) ∧
  (∀ (lowNs : Nat) (s : State), lowNs < 1000 → ∃ t, exec (.sysrst lowNs) s = .next t ∧ t = s) ∧
  (∀ (s : State), s.power.phase ≠ Phase.standby → s.power.phase ≠ Phase.porst → ∃ t, exec (.brownOut) s = .next t ∧
  t.power.phase = Phase.held ∧ t.aon.cause = 2 ∧ t.flash = s.flash ∧ t.otp = s.otp ∧ t.regs = State.reset.regs ∧ t.mem
  = State.reset.mem ∧ t.od = State.reset.od ∧ t.port = State.reset.port ∧ t.power.brownOut = true) ∧
  (∀ (straps : Nat) (pins : PinLevels) (s : State), s.power.phase = Phase.porst → ∃ t, exec (.porstRelease straps
  pins) s = .next t ∧ t.power.phase = Phase.starting ∧ t.power.straps = straps % 2 ^ 13 ∧ t.power.domains = 1 ∧
  t.power.ilockOpen = pins.ilockN ∧ t.power.vmainOk = pins.vmainOk ∧ t.power.ocxoRdy = pins.ocxoRdy ∧ t.aon.safeHold =
  (s.aon.safeHold || decide (8 ≤ s.fatalHour)) ∧ t.aon.cause = s.aon.cause ∧ (s.aon.tamperOwed ≠ [] → (t.stat
  stPwr).has 2 = true)) ∧
  (∀ (straps : Nat) (pins : PinLevels) (s : State), s.power.phase = Phase.held → ∃ t, exec (.fullResetRelease straps
  pins) s = .next t ∧ t.power.phase = Phase.starting ∧ t.power.straps = straps % 2 ^ 13 ∧ t.power.domains = 1 ∧
  t.power.ilockOpen = pins.ilockN ∧ t.power.vmainOk = pins.vmainOk ∧ t.power.ocxoRdy = pins.ocxoRdy ∧ t.aon.safeHold =
  (s.aon.safeHold || decide (8 ≤ s.fatalHour)) ∧ t.aon.cause = s.aon.cause ∧ (s.aon.tamperOwed ≠ [] → (t.stat
  stPwr).has 2 = true)) ∧
  (∀ (d : Nat) (s : State), s.switchesOn d = true → ∃ t, exec (.domainSwitchOn d) s = .next t ∧ t.domain d = true ∧ (∀
  (e : Nat), s.domain e = true → t.domain e = true)) ∧
  (∀ (c : OdCaller) (s : State), Serves s c 2 (objKey 0x1300 0x11) → ∃ t, exec (.safeHoldClear c) s = .next t ∧
  Answered t c 0 ∧ t.aon.safeHold = false) ∧
  (∀ (c : OdCaller) (s : State), Serves s c 2 (objKey 0x1300 6) → ∃ t, exec (.resetRequest c) s = .next t ∧ Answered t
  c 0 ∧ t.power.resetAsked = true ∧ t.power.phase = s.power.phase) ∧
  (∀ (s : State), s.up = true → s.power.resetAsked = true → s.tide.running = false → ∃ t, exec (.resetRequestNoTide) s
  = .next t ∧ t.power.phase = Phase.held ∧ t.aon.cause = 5 ∧ t.flash = s.flash ∧ t.otp = s.otp ∧ t.regs =
  State.reset.regs ∧ t.mem = State.reset.mem ∧ t.od = State.reset.od ∧ t.port = State.reset.port) ∧
  (∀ (init : Nat) (s : State), Writes s init 0x48 → ∃ t, exec (.bwfResetReq init) s = .next t ∧ t.power.phase =
  Phase.held ∧ t.aon.cause = 5 ∧ t.flash = s.flash ∧ t.otp = s.otp ∧ t.regs = State.reset.regs ∧ t.mem =
  State.reset.mem ∧ t.od = State.reset.od ∧ t.port = State.reset.port)

/-- A standby request, a loss of the main supply for MainLossDelay with MainLossStandby 1, or two shutdown readings of
one sensor enter standby: PWREN low, no domain on, the fuses kept; an alarm already past wakes at once with cause 7.
WAKE_N low for 10 µs ends it with cause 6, the RTC alarm with cause 7, and the supply's return ends a main-loss
standby with cause 6. A fall of VMAIN_OK is a contained fault with its status bit and starts the count, its return
ends the count, a fall of a low one changes nothing. A reading at or above T_WARN warns until both are 5 °C below. A
tamper edge is logged, of which 8 are kept, counted and shown, in standby owed to the next start; loss of VBAT without
the main rails loses AON alone, and with them nothing. Each clause that runs a command concludes that exec answers a
next state, under conditions on the state and the operands alone. -/
def Obligations.StandbyAndSupplies : Prop :=
  (∀ (c : OdCaller) (ok : Bool) (s : State), Serves s c 2 (objKey 0x1300 7) → s.alarmPast = false → c.path = Path.pcie
  ∨ c.path = Path.spi → ∃ t, exec (.standbyRequest (.od c) ok) s = .next t ∧ t.power.phase = Phase.standby ∧
  t.power.pwrEn = false ∧ t.power.domains = 0 ∧ t.otp = s.otp ∧ t.aon.mainLoss = false ∧ t.out ≠ s.out) ∧
  (∀ (init : Nat) (ok : Bool) (s : State), Writes s init 0x49 → s.alarmPast = false → ∃ t, exec (.standbyRequest (.reg
  init) ok) s = .next t ∧ t.power.phase = Phase.standby ∧ t.power.pwrEn = false ∧ t.power.domains = 0 ∧ t.otp = s.otp
  ∧ t.aon.mainLoss = false) ∧
  (∀ (ok : Bool) (s : State), s.power.phase = Phase.running → s.power.vmainCount = true → s.power.vmainOk = false →
  s.nat 0x1300 9 = 1 → s.alarmPast = false → ∃ t, exec (.mainLossDelay ok) s = .next t ∧ t.power.phase = Phase.standby
  ∧ t.power.pwrEn = false ∧ t.power.domains = 0 ∧ t.otp = s.otp ∧ t.aon.mainLoss = true) ∧
  (∀ (init : Nat) (ok : Bool) (s : State), Writes s init 0x49 → s.alarmPast = true → ∃ t, exec (.standbyRequest (.reg
  init) ok) s = .next t ∧ t.power.phase = Phase.porst ∧ t.power.pwrEn = true ∧ t.aon.cause = 7 ∧ t.otp = s.otp) ∧
  (∀ (lowNs : Nat) (s : State), s.power.phase = Phase.standby → 10000 ≤ lowNs → ∃ t, exec (.wakeN lowNs) s = .next t ∧
  t.power.phase = Phase.porst ∧ t.power.pwrEn = true ∧ t.aon.mainLoss = false ∧ t.aon.cause = 6) ∧
  (∀ (lowNs : Nat) (s : State), lowNs < 10000 → ∃ t, exec (.wakeN lowNs) s = .next t ∧ t = s) ∧
  (∀ (s : State), s.power.phase = Phase.standby → s.aon.wakeAlarm ≠ 0 → ∃ t, exec (.rtcAlarmWake) s = .next t ∧
  t.power.phase = Phase.porst ∧ t.power.pwrEn = true ∧ t.aon.mainLoss = false ∧ t.aon.cause = 7 ∧ s.aon.wakeAlarm ≤
  t.aon.rtc) ∧
  (∀ (s : State), s.power.phase = Phase.standby → s.aon.mainLoss = true → ∃ t, exec (.vmainOkRise) s = .next t ∧
  t.power.phase = Phase.porst ∧ t.power.pwrEn = true ∧ t.aon.mainLoss = false ∧ t.aon.cause = 6 ∧ t.power.vmainOk =
  true) ∧
  (∀ (s : State), s.power.phase = Phase.running → ∃ t, exec (.vmainOkRise) s = .next t ∧ t =
  { s with power := { s.power with vmainOk := true, vmainCount := false } }) ∧
  (∀ (s : State), s.power.phase = Phase.running → s.power.vmainOk = true → ∃ t, exec (.vmainOkFall) s = .next t ∧
  t.power.vmainOk = false ∧ t.power.vmainCount = true ∧ (t.stat stPwr).has 1 = true ∧ t.bwf.contained = satAdd
  0xFFFFFFFF s.bwf.contained 1) ∧
  (∀ (s : State), s.power.vmainOk = false → ∃ t, exec (.vmainOkFall) s = .next t ∧ t = s) ∧
  (∀ (centre edge : Int) (s : State), s.alive = true → (if tShut ≤ centre then s.power.shutC + 1 else 0) < 2 → (if
  tShut ≤ edge then s.power.shutE + 1 else 0) < 2 → ∃ t, exec (.thermalPoll centre edge) s = .next t ∧ t.power.tCentre
  = centre ∧ t.power.tEdge = edge ∧ t.power.phase = s.power.phase ∧ (tWarn ≤ centre ∨ tWarn ≤ edge → t.power.thermWarn
  = true) ∧ (centre ≤ tWarn - 80 ∧ edge ≤ tWarn - 80 → t.power.thermWarn = false) ∧ (s.power.thermWarn = false → tWarn
  ≤ centre ∨ tWarn ≤ edge → (t.stat stPwr).has 0 = true)) ∧
  (∀ (centre edge : Int) (s : State), s.alive = true → 2 ≤ (if tShut ≤ centre then s.power.shutC + 1 else 0) ∨ 2 ≤ (if
  tShut ≤ edge then s.power.shutE + 1 else 0) → 0 < s.nat 0x1300 0xE → s.rtcNow + s.nat 0x1300 0xE * 1000000000 < 2 ^
  64 → ∃ t, exec (.thermalPoll centre edge) s = .next t ∧ t.power.phase = Phase.standby ∧ t.power.pwrEn = false ∧
  t.power.domains = 0 ∧ t.otp = s.otp ∧ t.aon.shutOwed.isSome = true) ∧
  (∀ (input : Nat) (ok : Bool) (s : State), s.power.phase = Phase.running → s.nat 0x1300 0xF = 0 → ∃ t, exec
  (.tamperEdge input ok) s = .next t ∧ t.aon.tamperLog = (s.aon.tamperLog ++ [(input % 2, s.rtcNow)]).drop
  (s.aon.tamperLog.length + 1 - 8) ∧ t.aon.tamperCount = satAdd 0xFFFFFFFF s.aon.tamperCount 1 ∧ (t.stat stPwr).has 2
  = true) ∧
  (∀ (input : Nat) (ok : Bool) (s : State), s.power.phase = Phase.standby → ∃ t, exec (.tamperEdge input ok) s = .next
  t ∧ t.aon.tamperCount = satAdd 0xFFFFFFFF s.aon.tamperCount 1 ∧ t.aon.tamperOwed = s.aon.tamperOwed ++ [input % 2] ∧
  t.power = s.power) ∧
  (∀ (s : State), s.alive = false → ∃ t, exec (.vbatLoss) s = .next t ∧ t.aon = ({} : Aon) ∧ t.power.phase =
  Phase.porst ∧ t.flash = s.flash ∧ t.otp = s.otp) ∧
  (∀ (s : State), s.alive = true → ∃ t, exec (.vbatLoss) s = .next t ∧ t = s)

/-- A fatal fault is counted and kept in AON with its key and time, and resets with cause 3, or 4 for a watchdog; a
contained fault is counted and, with logging on, entered in the log of 64, or noted as lost where that is full; a
corrected one is counted. The log is read oldest first with its time latched. A kick ends the first expiry of the
writing processor alone; a first expiry sets its stage, a status bit and the management interrupt, a second is fatal,
as is the management watchdog's. A fabric transaction without a response is a bus error, counted and captured, and a
contained fault. Each clause that runs a command concludes that exec answers a next state, under conditions on the
state and the operands alone. -/
def Obligations.FaultsAndWatchdogs : Prop :=
  (∀ (unit inst num : Nat) (s : State), s.alive = true → ∃ t, exec (.fatalFault unit inst num) s = .next t ∧
  t.power.phase = Phase.held ∧ t.aon.fatalCount = satAdd 0xFFFFFFFF s.aon.fatalCount 1 ∧ t.aon.lastKey = faultKey
  s.node unit 2 inst num ∧ t.aon.lastTime = s.time.now ∧ t.flash = s.flash ∧ t.mem = State.reset.mem ∧ t.aon.cause =
  (if unit = 0x48 then 4 else 3)) ∧
  (∀ (unit inst num : Nat) (s : State), s.alive = true → bitOf (s.reg 0x48 0) 0 = true → s.bwf.log.length < 64 → ∃ t,
  exec (.containedFault unit inst num) s = .next t ∧ t.bwf.contained = satAdd 0xFFFFFFFF s.bwf.contained 1 ∧ t.bwf.log
  = s.bwf.log ++ [(faultKey s.node unit 1 inst num, s.time.now)] ∧ (t.stat stBwf).has 1 = true ∧ t.power = s.power) ∧
  (∀ (unit inst num : Nat) (s : State), s.alive = true → bitOf (s.reg 0x48 0) 0 = true → 64 ≤ s.bwf.log.length → ∃ t,
  exec (.containedFault unit inst num) s = .next t ∧ t.bwf.contained = satAdd 0xFFFFFFFF s.bwf.contained 1 ∧ t.bwf.log
  = s.bwf.log ∧ (t.stat stBwf).has 3 = true) ∧
  (∀ (s : State), s.alive = true → ∃ t, exec (.correctedFault) s = .next t ∧ t.bwf.corrected = (s.bwf.corrected + 1) %
  2 ^ 64 ∧ (t.stat stBwf).has 0 = true ∧ t.bwf.log = s.bwf.log) ∧
  (∀ (init k at_ : Nat) (rest : List (Nat × Nat)) (s : State), Reads s init 0x48 → s.bwf.log = (k, at_) :: rest → ∃ t,
  exec (.bwfLogRead init 4) s = .next t ∧ t.out.head? = some (Output.readData init k false) ∧ t.bwf.log = rest ∧
  t.bwf.latchTime = at_) ∧
  (∀ (init v : Nat) (s : State), Writes s init 0x48 → 1 ≤ init → init ≤ 4 → v < 2 ^ 32 → ∃ t, exec (.watchdogKick init
  v) s = .next t ∧ bitOf t.power.wdogStage (init - 1) = false ∧ (∀ (j : Nat), j ≠ init - 1 → bitOf t.power.wdogStage j
  = bitOf s.power.wdogStage j)) ∧
  (∀ (init v : Nat) (s : State), Writes s init 0x48 → v < 2 ^ 32 → ∃ t, exec (.mgmtWatchdogKick init v) s = .next t ∧
  t.power = s.power ∧ t.bwf = s.bwf ∧ t.out = s.out ∧ t.stats = s.stats) ∧
  (∀ (cp : Nat) (s : State), s.alive = true → cp < 4 → bitOf (s.reg 0x48 0) (4 + cp) = true → ∃ t, exec
  (.watchdogFirstExpiry cp) s = .next t ∧ t.power.wdogStage = s.power.wdogStage ||| 2 ^ cp ∧ t.out.head? = some
  (Output.mgmtInterrupt cp) ∧ (t.stat stBwf).has 2 = true ∧ t.bwf.contained = satAdd 0xFFFFFFFF s.bwf.contained 1) ∧
  (∀ (cp : Nat) (s : State), s.alive = true → cp < 4 → bitOf s.power.wdogStage cp = true → ∃ t, exec
  (.watchdogSecondExpiry cp) s = .next t ∧ t.power.phase = Phase.held ∧ t.aon.fatalCount = satAdd 0xFFFFFFFF
  s.aon.fatalCount 1 ∧ t.aon.lastKey = faultKey s.node 0x48 2 cp 2 ∧ t.aon.lastTime = s.time.now ∧ t.flash = s.flash ∧
  t.mem = State.reset.mem ∧ t.aon.cause = 4) ∧
  (∀ (s : State), s.alive = true → ∃ t, exec (.mgmtWatchdogExpiry) s = .next t ∧ t.power.phase = Phase.held ∧
  t.aon.fatalCount = satAdd 0xFFFFFFFF s.aon.fatalCount 1 ∧ t.aon.lastKey = faultKey s.node 0x48 2 0 3 ∧
  t.aon.lastTime = s.time.now ∧ t.flash = s.flash ∧ t.mem = State.reset.mem ∧ t.aon.cause = 4) ∧
  (∀ (init addr : Nat) (write : Bool) (s : State), s.alive = true → init < 32 → addr < 2 ^ 40 → ∃ t, exec
  (.fabricTransactionTimeout init addr write) s = .next t ∧ t.host.busErrs = satAdd 0xFFFFFFFF s.host.busErrs 1 ∧
  ((s.stat stSys).has 0 = false → t.host.errAddr = addr ∧ t.host.errInit = init ∧ t.host.errWrite = write) ∧
  t.bwf.contained = satAdd 0xFFFFFFFF s.bwf.contained 1 ∧ (t.stat stSys).has 0 = true ∧ (write = true → init ≠ 21 →
  Output.writeError init ∈ t.out) ∧ (write = false → Output.readData init 0 true ∈ t.out))

/-- What reset leaves, as R13, R438 and R499 give it; that unlisted memory reads 0 and that the queue is empty are the
model's choices (logs 1, 6). -/
def Obligations.ResetState : Prop :=
  (∀ r ∈ regRows, State.reset.reg r.win r.ofs = r.rst) ∧
  (∀ k : Nat, (State.reset.stat k).set = []) ∧
  (State.reset.pending = [] ∧ State.reset.mem = [] ∧ State.reset.power.domains = 0) ∧
  (∀ q : Port, (State.reset.port q).opt.state = 0 ∧ (State.reset.port q).laser.en = false ∧ (State.reset.port
  q).hasPlan = false) ∧
  (State.reset.od.sessions = [] ∧ State.reset.od.transfers = [] ∧ ∀ d : Nat, (State.reset.caps.getD d {}).state = 0) ∧
  (∀ n : Nat, State.reset.mbox.sems.getD n none = none)

/-- The invariant of StepKeepsInvariant holds after reset; the memory's canonical form is the model's (log 6). -/
def Obligations.ResetInvariant : Prop :=
  State.reset.inv

/-- Every command ends in a next state, in every state; and a step from a state with the invariant answers a next
state with it: the memory's canonical form (the model's, log 6), the ages of R413, and SecurityVersion at most 64
(R478, R480). -/
def Obligations.StepKeepsInvariant : Prop :=
  (∀ (i : Instr) (s : State), ∃ t, exec i s = .next t) ∧
  (∀ s : State, s.inv → ∃ t, step s = .next t ∧ t.inv)

/-- R480: SecurityVersion and the revocation bits are burned only when an image is confirmed and never go backwards,
and SecurityVersion never passes 64. -/
def Obligations.OtpNeverGoesBack : Prop :=
  (∀ (i : Instr) (s t : State), exec i s = .next t → s.otp.secVersion ≤ t.otp.secVersion ∧ ∀ k : Nat, bitOf
  s.otp.revoked k = true → bitOf t.otp.revoked k = true) ∧
  (∀ (i : Instr) (s t : State), exec i s = .next t → t.otp ≠ s.otp → s.ident.imageState = 1 ∧ t.ident.imageState = 0 ∧
  t.otp = { s.otp with secVersion := max s.otp.secVersion (hdrField s.ident.running 16 4), revoked := t.otp.revoked }) ∧
  (∀ (i : Instr) (s t : State), exec i s = .next t → s.otp.secVersion ≤ 64 → hdrField s.ident.running 16 4 ≤ 64 →
  t.otp.secVersion ≤ 64)

/-- R412: how SEQNUM and the SEQ bits of a status register change when bits are set and when the register is written.
-/
def Obligations.StatusSequenceRule : Prop :=
  (∀ (r : SeqReg) (bits : List Nat), bits ≠ [] → (r.raise bits).num = (r.num + 1) % 256 ∧ ∀ b ∈ bits, (b, (r.num + 1)
  % 256) ∈ (r.raise bits).set) ∧
  (∀ (r : SeqReg) (b q v : Nat), (b, q) ∈ r.set → ((b, q) ∈ (r.write v).set ↔ ¬ (bitOf v b = true ∧ (bitsOf v 31 24 +
  256 - q % 256) % 256 < 128 ∧ (r.num + 256 - bitsOf v 31 24) % 256 < 128))) ∧
  (∀ (r : SeqReg) (v : Nat), 128 ≤ (r.num + 256 - bitsOf v 31 24) % 256 → r.write v = r) ∧
  (∀ (r : SeqReg) (v : Nat) (e : Nat × Nat), (r.write v).num = r.num ∧ (e ∈ (r.write v).set → e ∈ r.set)) ∧
  (∀ (r : SeqReg) (v w : Nat), bitsOf v 31 24 = bitsOf w 31 24 → (∀ e ∈ r.set, bitOf v e.1 = bitOf w e.1) → r.write v
  = r.write w)

/-- R413: the age of a set SEQ bit never exceeds 127, seq_i advancing with SEQNUM; a write that is based on a read
made more than 127 status changes earlier leaves bits set. -/
def Obligations.StatusAges : Prop :=
  (∀ (r : SeqReg) (bits : List Nat) (v : Nat), r.agesOk → (r.raise bits).agesOk ∧ (r.write v).agesOk) ∧
  (∀ (r : SeqReg) (bits : List Nat) (b q : Nat), bits ≠ [] → b ∉ bits → (b, q) ∈ r.set → (b, if (r.num + 1 + 256 - q %
  256) % 256 ≤ 127 then q else (r.num + 1 + 256 - 127) % 256) ∈ (r.raise bits).set) ∧
  (∀ (r : SeqReg) (rises : List (List Nat)), r.num < 256 → (∀ e ∈ r.set, e.1 < 24) → (∀ l ∈ rises, l ≠ []) → 128 ≤
  rises.length → rises.length < 256 → (rises.foldl SeqReg.raise r).write r.value = rises.foldl SeqReg.raise r)

/-- R393: the last 16 responses of each requester are kept, and a request whose key matches one is not executed again
but answered by it; on PCIe and SPI the path is the requester. Each clause that runs a command concludes that exec
answers a next state, under conditions on the state and the operands alone. -/
def Obligations.ReplayedRequests : Prop :=
  (∀ (l : List Kept) (k : Kept) (p : Path) (src : Nat), (l.filter (fun (x : Kept) => sameSource x.path p x.source
  src)).length ≤ 16 → ((keepResponse l k).filter (fun (x : Kept) => sameSource x.path p x.source src)).length ≤ 16) ∧
  (∀ (l : List Kept) (k : Kept), keepResponse l k = k :: (keepResponse l k).tail ∧ (∀ x ∈ l, sameSource x.path k.path
  x.source k.source = false → x ∈ keepResponse l k) ∧ ((keepResponse l k).filter (fun (x : Kept) => sameSource x.path
  k.path x.source k.source)).tail = (l.filter (fun (x : Kept) => sameSource x.path k.path x.source k.source)).take 15) ∧
  (∀ (c : OdCaller) (k : OdKey) (x : Kept) (s : State), s.up = true → s.pathUp c.path = true → c.waits = false →
  s.od.queue = [] → s.od.kept.find? (fun (x : Kept) => sameSource x.path c.path x.source c.source && x.transaction ==
  c.transaction) = some x → ∃ t, exec (.odRead c k) s = .next t ∧ t = s.asked.sendResponse c 1 none x.response) ∧
  (∀ (c : OdCaller) (k : OdKey) (v : List Byte) (h : Hint) (x : Kept) (s : State), s.up = true → s.pathUp c.path =
  true → c.waits = false → s.od.queue = [] → s.od.kept.find? (fun (x : Kept) => sameSource x.path c.path x.source
  c.source && x.transaction == c.transaction) = some x → ∃ t, exec (.odWrite c k v h) s = .next t ∧ t =
  s.asked.sendResponse c 2 none x.response) ∧
  (∀ (c : OdCaller) (k : OdKey) (ofs : Nat) (v : List Byte) (h : Hint) (x : Kept) (s : State), s.up = true → s.pathUp
  c.path = true → c.waits = false → s.od.queue = [] → s.od.kept.find? (fun (x : Kept) => sameSource x.path c.path
  x.source c.source && x.transaction == c.transaction) = some x → ∃ t, exec (.odDownloadSegment c k ofs v h) s = .next
  t ∧ t = s.asked.sendResponse c 7 none x.response) ∧
  (∀ (c : OdCaller) (ok : Bool) (x : Kept) (s : State), s.up = true → s.pathUp c.path = true → c.waits = false →
  s.od.queue = [] → s.od.kept.find? (fun (x : Kept) => sameSource x.path c.path x.source c.source && x.transaction ==
  c.transaction) = some x → ∃ t, exec (.storeNow c ok) s = .next t ∧ t = s.asked.sendResponse c 2 none x.response)

/-- A write to an object that is read-only, one below its write level, and one of a wrong length are refused with the
access, privilege and length errors in this order of checks; a read of a write-only object or below its read level
likewise; the error is counted and no object, pending value or store image changes. Each clause that runs a command
concludes that exec answers a next state, under conditions on the state and the operands alone. -/
def Obligations.RefusedRequests : Prop :=
  (∀ (c : OdCaller) (k : OdKey) (v : List Byte) (h : Hint) (lv : Nat) (row : ObjRow) (s : State), Asks s c 0 → s.level
  c = some lv → s.asked.row k.idx k.sub = some row → (s.asked.top k.idx).isSome = true → row.acc = Acc.ro → ∃ t, exec
  (.odWrite c k v h) s = .next t ∧ Answered t c 3 ∧ t =
  { s with od := t.od, out := t.out, stats := t.stats, chain := t.chain } ∧ t.od.act = s.od.act ∧ t.od.pend =
  s.od.pend ∧ t.od.image = s.od.image ∧ t.od.errors = satAdd 0xFFFFFFFF s.od.errors 1) ∧
  (∀ (c : OdCaller) (k : OdKey) (v : List Byte) (h : Hint) (lv : Nat) (row : ObjRow) (s : State), Asks s c 0 → s.level
  c = some lv → s.asked.row k.idx k.sub = some row → (s.asked.top k.idx).isSome = true → row.acc ≠ Acc.ro → lv <
  row.writeLevel → ∃ t, exec (.odWrite c k v h) s = .next t ∧ Answered t c 4 ∧ t =
  { s with od := t.od, out := t.out, stats := t.stats, chain := t.chain } ∧ t.od.act = s.od.act ∧ t.od.pend =
  s.od.pend ∧ t.od.image = s.od.image ∧ t.od.errors = satAdd 0xFFFFFFFF s.od.errors 1) ∧
  (∀ (c : OdCaller) (k : OdKey) (v : List Byte) (h : Hint) (lv : Nat) (row : ObjRow) (s : State), Asks s c 0 → s.level
  c = some lv → s.asked.row k.idx k.sub = some row → (s.asked.top k.idx).isSome = true → row.acc ≠ Acc.ro →
  row.writeLevel ≤ lv → row.lengthOk v.length = false → ∃ t, exec (.odWrite c k v h) s = .next t ∧ Answered t c 5 ∧ t
  = { s with od := t.od, out := t.out, stats := t.stats, chain := t.chain } ∧ t.od.act = s.od.act ∧ t.od.pend =
  s.od.pend ∧ t.od.image = s.od.image ∧ t.od.errors = satAdd 0xFFFFFFFF s.od.errors 1) ∧
  (∀ (c : OdCaller) (k : OdKey) (lv : Nat) (row : ObjRow) (s : State), Asks s c 0 → s.level c = some lv → s.asked.row
  k.idx k.sub = some row → (s.asked.top k.idx).isSome = true → row.acc = Acc.wo → ∃ t, exec (.odRead c k) s = .next t
  ∧ Answered t c 3 ∧ t = { s with od := t.od, out := t.out, stats := t.stats, chain := t.chain } ∧ t.od.act = s.od.act
  ∧ t.od.pend = s.od.pend ∧ t.od.image = s.od.image ∧ t.od.errors = satAdd 0xFFFFFFFF s.od.errors 1)

/-- On a core that is ready and whose moves have addresses, an instruction changes on its core, beside what its moves
and the flow of instructions change, its destination alone; no other core changes, and of the rest of the state only
the status bits, the record of outputs and the free counter, and for a store cluster memory at the computed address
alone. Each clause that runs a command concludes that exec answers a next state, under conditions on the state and the
operands alone. -/
def Obligations.CoreInstructionFrame : Prop :=
  (∀ (c : Nat) (op : MacOp) (complex signedA signedB : Bool) (dst : Nat) (a b : VSrc) (m : Moves) (s : State),
  s.coreReady c = true → (s.core c).movesOk m = true → c < s.brew.cores.length → ∃ t, exec (.vectorMultiplyAccumulate
  c op complex signedA signedB dst a b m) s = .next t ∧ t =
  { s with brew := { s.brew with cores := t.brew.cores }, free := t.free, stats := t.stats, out := t.out } ∧ t.core c
  =
  { (Core.doMove (s.laneFree 9) (s.core c) (Core.doMove (s.laneFree 8) (s.core c) (s.core c).past m.x) m.y) with a := (t.core c).a, accOvf := (t.core c).accOvf }
  ∧ (∀ (j : Nat), j ≠ dst → (t.core c).a.getD j [] = (Core.doMove (s.laneFree 9) (s.core c) (Core.doMove (s.laneFree
  8) (s.core c) (s.core c).past m.x) m.y).a.getD j []) ∧ (∀ (j : Nat), j ≠ c → t.core j = s.core j)) ∧
  (∀ (c : Nat) (op : AluOp) (wide signed : Bool) (dst : Nat) (a b d : VSrc) (m : Moves) (s : State), s.coreReady c =
  true → (s.core c).movesOk m = true → c < s.brew.cores.length → ∃ t, exec (.vectorArithmeticLogic c op wide signed
  dst a b d m) s = .next t ∧ t =
  { s with brew := { s.brew with cores := t.brew.cores }, free := t.free, stats := t.stats, out := t.out } ∧ t.core c
  =
  { (Core.doMove (s.laneFree 9) (s.core c) (Core.doMove (s.laneFree 8) (s.core c) (s.core c).past m.x) m.y) with v := (t.core c).v }
  ∧ (∀ (j : Nat), j ≠ dst → (t.core c).v.getD j 0 = (Core.doMove (s.laneFree 9) (s.core c) (Core.doMove (s.laneFree 8)
  (s.core c) (s.core c).past m.x) m.y).v.getD j 0) ∧ (∀ (j : Nat), j ≠ c → t.core j = s.core j)) ∧
  (∀ (c : Nat) (src dst shift : Nat) (wide high saturate signed : Bool) (m : Moves) (s : State), s.coreReady c = true
  → (s.core c).movesOk m = true → c < s.brew.cores.length → ∃ t, exec (.accumulatorMove c src (.move dst shift wide
  high saturate signed) m) s = .next t ∧ t =
  { s with brew := { s.brew with cores := t.brew.cores }, free := t.free, stats := t.stats, out := t.out } ∧ t.core c
  =
  { (Core.doMove (s.laneFree 9) (s.core c) (Core.doMove (s.laneFree 8) (s.core c) (s.core c).past m.x) m.y) with v := (t.core c).v, sat := (t.core c).sat }
  ∧ (∀ (j : Nat), j ≠ dst → (t.core c).v.getD j 0 = (Core.doMove (s.laneFree 9) (s.core c) (Core.doMove (s.laneFree 8)
  (s.core c) (s.core c).past m.x) m.y).v.getD j 0) ∧ (∀ (j : Nat), j ≠ c → t.core j = s.core j)) ∧
  (∀ (c : Nat) (src : Nat) (m : Moves) (s : State), s.coreReady c = true → (s.core c).movesOk m = true → c <
  s.brew.cores.length → ∃ t, exec (.accumulatorMove c src .clear m) s = .next t ∧ t =
  { s with brew := { s.brew with cores := t.brew.cores }, free := t.free, stats := t.stats, out := t.out } ∧ t.core c
  =
  { (Core.doMove (s.laneFree 9) (s.core c) (Core.doMove (s.laneFree 8) (s.core c) (s.core c).past m.x) m.y) with a := (t.core c).a }
  ∧ (∀ (j : Nat), j ≠ src → (t.core c).a.getD j [] = (Core.doMove (s.laneFree 9) (s.core c) (Core.doMove (s.laneFree
  8) (s.core c) (s.core c).past m.x) m.y).a.getD j []) ∧ (∀ (j : Nat), j ≠ c → t.core j = s.core j)) ∧
  (∀ (c : Nat) (src : Nat) (m : Moves) (s : State), s.coreReady c = true → (s.core c).movesOk m = true → c <
  s.brew.cores.length → ∃ t, exec (.accumulatorMove c src .laneSum m) s = .next t ∧ t =
  { s with brew := { s.brew with cores := t.brew.cores }, free := t.free, stats := t.stats, out := t.out } ∧ t.core c
  =
  { (Core.doMove (s.laneFree 9) (s.core c) (Core.doMove (s.laneFree 8) (s.core c) (s.core c).past m.x) m.y) with a := (t.core c).a, accOvf := (t.core c).accOvf }
  ∧ (∀ (j : Nat), j ≠ src → (t.core c).a.getD j [] = (Core.doMove (s.laneFree 9) (s.core c) (Core.doMove (s.laneFree
  8) (s.core c) (s.core c).past m.x) m.y).a.getD j []) ∧ (∀ (j : Nat), j ≠ c → t.core j = s.core j)) ∧
  (∀ (c : Nat) (isMax wide signed : Bool) (src : VSrc) (base : Nat) (m : Moves) (s : State), s.coreReady c = true →
  (s.core c).movesOk m = true → c < s.brew.cores.length → ∃ t, exec (.search c isMax wide signed src base m) s = .next
  t ∧ t = { s with brew := { s.brew with cores := t.brew.cores }, free := t.free, stats := t.stats, out := t.out } ∧
  t.core c =
  { (Core.doMove (s.laneFree 9) (s.core c) (Core.doMove (s.laneFree 8) (s.core c) (s.core c).past m.x) m.y) with best := (t.core c).best, bestIdx := (t.core c).bestIdx }
  ∧ (∀ (j : Nat), j ≠ c → t.core j = s.core j)) ∧
  (∀ (c : Nat) (isMax wide signed : Bool) (m : Moves) (s : State), s.coreReady c = true → (s.core c).movesOk m = true
  → c < s.brew.cores.length → ∃ t, exec (.searchReset c isMax wide signed m) s = .next t ∧ t =
  { s with brew := { s.brew with cores := t.brew.cores }, free := t.free, stats := t.stats, out := t.out } ∧ t.core c
  =
  { (Core.doMove (s.laneFree 9) (s.core c) (Core.doMove (s.laneFree 8) (s.core c) (s.core c).past m.x) m.y) with best := (t.core c).best, bestIdx := (t.core c).bestIdx }
  ∧ (∀ (j : Nat), j ≠ c → t.core j = s.core j)) ∧
  (∀ (c : Nat) (dstV dstI : Nat) (m : Moves) (s : State), s.coreReady c = true → (s.core c).movesOk m = true → c <
  s.brew.cores.length → ∃ t, exec (.searchRead c dstV dstI m) s = .next t ∧ t =
  { s with brew := { s.brew with cores := t.brew.cores }, free := t.free, stats := t.stats, out := t.out } ∧ t.core c
  =
  { (Core.doMove (s.laneFree 9) (s.core c) (Core.doMove (s.laneFree 8) (s.core c) (s.core c).past m.x) m.y) with s := (t.core c).s }
  ∧ (∀ (j : Nat), j ≠ dstV → j ≠ dstI → (t.core c).s.getD j 0 = (Core.doMove (s.laneFree 9) (s.core c) (Core.doMove
  (s.laneFree 8) (s.core c) (s.core c).past m.x) m.y).s.getD j 0) ∧ (∀ (j : Nat), j ≠ c → t.core j = s.core j)) ∧
  (∀ (c : Nat) (op : ScalarOp) (signed : Bool) (dst dst2 a b : Nat) (m : Moves) (s : State), s.coreReady c = true →
  (s.core c).movesOk m = true → c < s.brew.cores.length → ∃ t, exec (.scalarOperation c op signed dst dst2 a b m) s =
  .next t ∧ t =
  { s with brew := { s.brew with cores := t.brew.cores }, free := t.free, stats := t.stats, out := t.out } ∧ t.core c
  =
  { (Core.doMove (s.laneFree 9) (s.core c) (Core.doMove (s.laneFree 8) (s.core c) (s.core c).past m.x) m.y) with s := (t.core c).s }
  ∧ (∀ (j : Nat), j ≠ dst → (j ≠ dst2 ∨ (op ≠ ScalarOp.mul ∧ op ≠ ScalarOp.div)) → (t.core c).s.getD j 0 =
  (Core.doMove (s.laneFree 9) (s.core c) (Core.doMove (s.laneFree 8) (s.core c) (s.core c).past m.x) m.y).s.getD j 0)
  ∧ (∀ (j : Nat), j ≠ c → t.core j = s.core j)) ∧
  (∀ (c : Nat) (m : Moves) (s : State), s.coreReady c = true → (s.core c).movesOk m = true → c < s.brew.cores.length →
  ∃ t, exec (.memoryMove c none m) s = .next t ∧ t =
  { s with brew := { s.brew with cores := t.brew.cores }, free := t.free, stats := t.stats, out := t.out } ∧ t.core c
  = (Core.doMove (s.laneFree 9) (s.core c) (Core.doMove (s.laneFree 8) (s.core c) (s.core c).past m.x) m.y) ∧ (∀ (j :
  Nat), j ≠ c → t.core j = s.core j)) ∧
  (∀ (c : Nat) (z : ScalarMem) (m : Moves) (s : State), s.coreReady c = true → (s.core c).movesOk m = true → c <
  s.brew.cores.length → s.clusterOk (s.core c).owner (ofSigned 32 (((s.core c).s.getD z.addr 0 : Nat) + z.ofs))
  z.bytes = true → z.bytes < 4 ∨ (ofSigned 32 (((s.core c).s.getD z.addr 0 : Nat) + z.ofs)) % z.bytes = 0 → z.store =
  false → ∃ t, exec (.memoryMove c (some z) m) s = .next t ∧ t =
  { s with brew := { s.brew with cores := t.brew.cores }, free := t.free, stats := t.stats, out := t.out } ∧ t.core c
  =
  { (Core.doMove (s.laneFree 9) (s.core c) (Core.doMove (s.laneFree 8) (s.core c) (s.core c).past m.x) m.y) with s := (t.core c).s }
  ∧ (∀ (j : Nat), j ≠ z.reg → (t.core c).s.getD j 0 = (Core.doMove (s.laneFree 9) (s.core c) (Core.doMove (s.laneFree
  8) (s.core c) (s.core c).past m.x) m.y).s.getD j 0) ∧ (∀ (j : Nat), j ≠ c → t.core j = s.core j)) ∧
  (∀ (c : Nat) (z : ScalarMem) (m : Moves) (s : State), s.coreReady c = true → (s.core c).movesOk m = true → c <
  s.brew.cores.length → s.clusterOk (s.core c).owner (ofSigned 32 (((s.core c).s.getD z.addr 0 : Nat) + z.ofs))
  z.bytes = true → z.bytes < 4 ∨ (ofSigned 32 (((s.core c).s.getD z.addr 0 : Nat) + z.ofs)) % z.bytes = 0 → z.store =
  true → s.memOk → ∃ t, exec (.memoryMove c (some z) m) s = .next t ∧ t =
  { s with brew := { s.brew with cores := t.brew.cores }, free := t.free, stats := t.stats, out := t.out, mem := t.mem }
  ∧ t.core c = (Core.doMove (s.laneFree 9) (s.core c) (Core.doMove (s.laneFree 8) (s.core c) (s.core c).past m.x) m.y)
  ∧ (∀ (j : Nat), j ≠ c → t.core j = s.core j) ∧ (∀ (x : Nat), x < clusterBase + (ofSigned 32 (((s.core c).s.getD
  z.addr 0 : Nat) + z.ofs)) ∨ clusterBase + (ofSigned 32 (((s.core c).s.getD z.addr 0 : Nat) + z.ofs)) + z.bytes ≤ x →
  memGet t.mem x = memGet s.mem x)) ∧
  (∀ (c : Nat) (n : Nat) (g : AgSetup) (m : Moves) (s : State), s.coreReady c = true → (s.core c).movesOk m = true → c
  < s.brew.cores.length → ∃ t, exec (.addressGeneratorSetup c n g m) s = .next t ∧ t =
  { s with brew := { s.brew with cores := t.brew.cores }, free := t.free, stats := t.stats, out := t.out } ∧ t.core c
  =
  { (Core.doMove (s.laneFree 9) (s.core c) (Core.doMove (s.laneFree 8) (s.core c) (s.core c).past m.x) m.y) with ag := (t.core c).ag }
  ∧ (∀ (j : Nat), j ≠ n → (t.core c).ag[j]? = (Core.doMove (s.laneFree 9) (s.core c) (Core.doMove (s.laneFree 8)
  (s.core c) (s.core c).past m.x) m.y).ag[j]?) ∧ (∀ (j : Nat), j ≠ c → t.core j = s.core j)) ∧
  (∀ (c : Nat) (j : Jump) (cond : Cond) (m : Moves) (s : State), s.coreReady c = true → (s.core c).movesOk m = true →
  c < s.brew.cores.length → (s.core c).rets.length < 16 → ∃ t, exec (.branchCallReturn c j cond m) s = .next t ∧ t =
  { s with brew := { s.brew with cores := t.brew.cores }, free := t.free, stats := t.stats, out := t.out } ∧ t.core c
  =
  { (Core.doMove (s.laneFree 9) (s.core c) (Core.doMove (s.laneFree 8) (s.core c) (s.core c).past m.x) m.y) with pc := (t.core c).pc, rets := (t.core c).rets }
  ∧ (∀ (i : Nat), i ≠ c → t.core i = s.core i)) ∧
  (∀ (c : Nat) (last count : Nat) (m : Moves) (s : State), s.coreReady c = true → (s.core c).movesOk m = true → c <
  s.brew.cores.length → (s.core c).past.loops.length < 4 → ∃ t, exec (.hardwareLoop c last count m) s = .next t ∧ t =
  { s with brew := { s.brew with cores := t.brew.cores }, free := t.free, stats := t.stats, out := t.out } ∧ t.core c
  =
  { (Core.doMove (s.laneFree 9) (s.core c) (Core.doMove (s.laneFree 8) (s.core c) (s.core c).past m.x) m.y) with pc := (t.core c).pc, loops := (t.core c).loops }
  ∧ (∀ (j : Nat), j ≠ c → t.core j = s.core j)) ∧
  (∀ (c : Nat) (m : Moves) (s : State), s.coreReady c = true → (s.core c).movesOk m = true → c < s.brew.cores.length →
  ∃ t, exec (.waitForEvent c m) s = .next t ∧ t =
  { s with brew := { s.brew with cores := t.brew.cores }, free := t.free, stats := t.stats, out := t.out } ∧ t.core c
  =
  { (Core.doMove (s.laneFree 9) (s.core c) (Core.doMove (s.laneFree 8) (s.core c) (s.core c).past m.x) m.y) with waitEvent := (t.core c).waitEvent }
  ∧ (∀ (j : Nat), j ≠ c → t.core j = s.core j)) ∧
  (∀ (c : Nat) (m : Moves) (s : State), s.coreReady c = true → (s.core c).movesOk m = true → c < s.brew.cores.length →
  ∃ t, exec (.halt c m) s = .next t ∧ t =
  { s with brew := { s.brew with cores := t.brew.cores, busy := t.brew.busy }, free := t.free, stats := t.stats, out := t.out }
  ∧ t.core c =
  { (Core.doMove (s.laneFree 9) (s.core c) (Core.doMove (s.laneFree 8) (s.core c) (s.core c).past m.x) m.y) with running := (t.core c).running, waitEvent := (t.core c).waitEvent, waitDma := (t.core c).waitDma, aborting := (t.core c).aborting, stopping := (t.core c).stopping, work := (t.core c).work, due := (t.core c).due, again := (t.core c).again, since := (t.core c).since, pc := (t.core c).pc, loops := (t.core c).loops, rets := (t.core c).rets }
  ∧ (∀ (j : Nat), j ≠ c → t.core j = s.core j)) ∧
  (∀ (c : Nat) (d : DmaDesc) (m : Moves) (s : State), s.coreReady c = true → (s.core c).movesOk m = true → c <
  s.brew.cores.length → (s.core c).dma.length < 4 → ∃ t, exec (.queueCoreDma c d m) s = .next t ∧ t =
  { s with brew := { s.brew with cores := t.brew.cores }, free := t.free, stats := t.stats, out := t.out } ∧ t.core c
  =
  { (Core.doMove (s.laneFree 9) (s.core c) (Core.doMove (s.laneFree 8) (s.core c) (s.core c).past m.x) m.y) with dma := (t.core c).dma }
  ∧ (∀ (j : Nat), j ≠ c → t.core j = s.core j)) ∧
  (∀ (c : Nat) (left : Nat) (m : Moves) (s : State), s.coreReady c = true → (s.core c).movesOk m = true → c <
  s.brew.cores.length → ∃ t, exec (.waitDmaCompletion c left m) s = .next t ∧ t =
  { s with brew := { s.brew with cores := t.brew.cores }, free := t.free, stats := t.stats, out := t.out } ∧ t.core c
  =
  { (Core.doMove (s.laneFree 9) (s.core c) (Core.doMove (s.laneFree 8) (s.core c) (s.core c).past m.x) m.y) with waitDma := (t.core c).waitDma }
  ∧ (∀ (j : Nat), j ≠ c → t.core j = s.core j)) ∧
  (∀ (c : Nat) (p : Nat) (b : List Byte) (m : Moves) (s : State), s.coreReady c = true → (s.core c).movesOk m = true →
  c < s.brew.cores.length → (s.core c).work = some (Work.customer p) → ∃ t, exec (.publishOutputRecord c b m) s =
  .next t ∧ t =
  { s with brew := { s.brew with cores := t.brew.cores, progs := t.brew.progs }, free := t.free, stats := t.stats, out := t.out }
  ∧ t.core c = (Core.doMove (s.laneFree 9) (s.core c) (Core.doMove (s.laneFree 8) (s.core c) (s.core c).past m.x) m.y)
  ∧ (∀ (j : Nat), j ≠ c → t.core j = s.core j) ∧ (∀ (j : Nat), j ≠ p → t.brew.progs.getD j {} = s.brew.progs.getD j
  {}))

/-- A command that acts on one port alone leaves every part of the other port's state as it was. -/
def Obligations.PortIsolation : Prop :=
  ∀ (i : Instr) (s t : State) (q r : Port), portOf i = some q → r ≠ q → exec i s = .next t → t.port r = s.port r

/-- A command of the Tide, the launch, the optics, the receive and signal path, the Kiln, detection or tracking leaves
every part of the state as it was but those that signalParts lists for it; a request finds no other waiting at the
server. -/
def Obligations.SignalFrame : Prop :=
  ∀ (i : Instr) (s t : State) (p : Part), p ∉ signalParts i → (asksServer i = true → s.od.queue = []) → exec i s =
  .next t → p.same s t

/-- A command of the Brewhouse, the Cellar, the DRAM or the Cask leaves every part of the state as it was but those
that storageParts lists for it; a request finds no other waiting at the server. -/
def Obligations.StorageFrame : Prop :=
  ∀ (i : Instr) (s t : State) (p : Part), p ∉ storageParts i → (asksServer i = true → s.od.queue = []) → exec i s =
  .next t → p.same s t

/-- A command of the oscillators, the time, the chain or the paired spans leaves every part of the state as it was but
those that timeParts lists for it; a request finds no other waiting at the server. -/
def Obligations.TimeAndChainFrame : Prop :=
  ∀ (i : Instr) (s t : State) (p : Part), p ∉ timeParts i → (asksServer i = true → s.od.queue = []) → exec i s = .next
  t → p.same s t

/-- A command of the dictionary, the host interface, housekeeping, identity, update, power or faults leaves every part
of the state as it was but those that hostParts lists for it; a request finds no other waiting at the server. -/
def Obligations.HostFrame : Prop :=
  (∀ (i : Instr) (s t : State) (p : Part), p ∉ hostParts i → (asksServer i = true → s.od.queue = []) → exec i s =
  .next t → p.same s t) ∧
  (∀ (i : Instr) (s t : State), exec i s = .next t → t.pending = s.pending)

/-- A full and a partial DRAM write and the scrub change bytes of their own line alone; a ring entry changes bytes of
its ring's region alone; a core's DMA whose places it may reach changes bytes of its destination alone; no other byte
of memory changes. Each clause that runs a command concludes that exec answers a next state, under conditions on the
state and the operands alone. -/
def Obligations.StoredBytes : Prop :=
  (∀ (init addr tag : Nat) (data : List Byte) (poison act : Bool) (flips : List Nat) (s : State), s.memOk → ∃ t, exec
  (.dramWrite init addr data tag poison flips act) s = .next t ∧ (∀ (z : Nat), z < 32 * (addr / 32) ∨ 32 * (addr / 32)
  + 32 ≤ z → memGet t.mem z = memGet s.mem z)) ∧
  (∀ (init addr tag : Nat) (data : List Byte) (poison : Bool) (tflips flips : List Nat) (wrong : Option Nat) (act :
  Bool) (s : State), s.memOk → ∃ t, exec (.dramPartialWrite init addr data tag poison tflips flips wrong act) s =
  .next t ∧ (∀ (z : Nat), z < 32 * (addr / 32) ∨ 32 * (addr / 32) + 32 ≤ z → memGet t.mem z = memGet s.mem z)) ∧
  (∀ (flips : List Nat) (wrong : Option Nat) (act : Bool) (s : State), s.memOk → ∃ t, exec (.scrubLine flips wrong
  act) s = .next t ∧ (∀ (z : Nat), z < 32 * s.dram.scrubAt ∨ 32 * s.dram.scrubAt + 32 ≤ z → memGet t.mem z = memGet
  s.mem z)) ∧
  (∀ (q : Port) (ok : Bool) (x : RingRec) (rest : List RingRec) (s : State), s.memOk → (s.port q).celIn = x :: rest →
  (s.ring q x.ring).cur < (s.ring q x.ring).n → (s.ring q x.ring).fill ≤ (s.ring q x.ring).segBytes → (s.ring q
  x.ring).dropN = 0 → ∃ t, exec (.ringEntryWrite q ok) s = .next t ∧ (∀ (z : Nat), z < (s.ring q x.ring).base ∨
  (s.ring q x.ring).base + (s.ring q x.ring).n * (s.ring q x.ring).segBytes ≤ z → memGet t.mem z = memGet s.mem z)) ∧
  (∀ (c : Nat) (p : Option Nat) (d : DmaDesc) (rest : List (Option Nat × DmaDesc)) (b : List Byte) (s : State),
  s.memOk → (s.core c).dma = (p, d) :: rest → s.dmaRead c p d.src d.srcAddr d.len = some b → (s.dmaWrite c p d.dst
  d.dstAddr b).isSome = true → ∃ t, exec (.coreDmaComplete c false) s = .next t ∧ (d.dst < 2 → t.mem = s.mem) ∧ (∀ (z
  : Nat), z < ((if d.dst = 2 then clusterBase else if d.dst = 3 then poolBase else kilnBase) + d.dstAddr) ∨ ((if d.dst
  = 2 then clusterBase else if d.dst = 3 then poolBase else kilnBase) + d.dstAddr) + b.length ≤ z → memGet t.mem z =
  memGet s.mem z))
end

