-- ==== Sys2Proof/Laws/Data.lean ====
section
/-! SUPPORT. Association lists, list updates, the memory's cells and status registers: what a read gives after a write. -/
namespace Sys2Proof.Machine
open Sys2Proof

/-! ## Association lists -/

@[simp] theorem lookup_insertKey {α : Type} (k k' : Nat) (v : α) (l : List (Nat × α)) :
    lookup k' (insertKey k v l) = if k' = k then some v else lookup k' l := by
  induction l with
  | nil => grind [insertKey, lookup]
  | cons e t ih => obtain ⟨j, w⟩ := e; grind [insertKey, lookup]

@[simp] theorem any_insertKey {α : Type} (k b : Nat) (v : α) (l : List (Nat × α)) :
    (insertKey k v l).any (fun e => e.1 == b) = (k == b || l.any (fun e => e.1 == b)) := by
  induction l with
  | nil => simp [insertKey]
  | cons e t ih =>
    obtain ⟨j, w⟩ := e
    simp only [insertKey]
    split
    · simp
    · split
      · subst_vars; simp
      · simp only [List.any_cons, ih]; grind

/-! ## List updates -/

@[simp] theorem length_setAt {α : Type} (l : List α) (i : Nat) (v : α) : (setAt l i v).length = l.length := by
  induction l generalizing i with
  | nil => rfl
  | cons x xs ih => cases i <;> simp [setAt, ih]

@[simp] theorem length_modAt {α : Type} (l : List α) (i : Nat) (f : α → α) : (modAt l i f).length = l.length := by
  induction l generalizing i with
  | nil => rfl
  | cons x xs ih => cases i <;> simp [modAt, ih]

@[simp] theorem getElem?_setAt {α : Type} (l : List α) (i j : Nat) (v : α) :
    (setAt l i v)[j]? = if i = j ∧ j < l.length then some v else l[j]? := by
  induction l generalizing i j with
  | nil => simp [setAt]
  | cons x xs ih => cases i <;> cases j <;> simp [setAt, ih]

@[simp] theorem getElem?_modAt {α : Type} (l : List α) (i j : Nat) (f : α → α) :
    (modAt l i f)[j]? = if i = j then l[j]?.map f else l[j]? := by
  induction l generalizing i j with
  | nil => simp [modAt]
  | cons x xs ih => cases i <;> cases j <;> simp [modAt, ih]

/-! ## Memory (R406) -/

/-- A read after a write: the written byte at its address, elsewhere what was there. -/
@[simp] theorem memGet_memPut (m : List Host.Cell) (a : Nat) (b : Byte) (x : Nat) (lo : Nat) (h : memWfFrom lo m = true) :
    memGet (memPut m a b) x = if x = a then b else memGet m x := by
  have low : ∀ (t : List Host.Cell) lo' y, memWfFrom lo' t = true → y < lo' → memGet t y = 0 := by
    intro t
    induction t with
    | nil => intros; rfl
    | cons e t ih =>
      obtain ⟨k, v⟩ := e
      intro lo' y hw hy
      simp only [memWfFrom, Bool.and_eq_true, decide_eq_true_eq] at hw
      simp only [memGet]
      rw [if_neg (by omega)]
      exact ih (k + 1) y hw.2 (by omega)
  induction m generalizing lo with
  | nil => grind [memPut, memGet]
  | cons e t ih =>
    obtain ⟨k, v⟩ := e
    simp only [memWfFrom, Bool.and_eq_true, decide_eq_true_eq] at h
    have h1 := ih (k + 1) h.2
    have h2 : x ≤ k → memGet t x = 0 := fun hx => low t (k + 1) x h.2 (by omega)
    grind [memPut, memGet]

/-- A write keeps the canonical form. -/
theorem memPut_wfFrom (m : List Host.Cell) (a : Nat) (b : Byte) (lo : Nat) (hlo : lo ≤ a) (h : memWfFrom lo m = true) :
    memWfFrom lo (memPut m a b) = true := by
  have mono : ∀ (t : List Host.Cell) lo lo', lo' ≤ lo → memWfFrom lo t = true → memWfFrom lo' t = true := by
    intro t lo lo' hl hw
    cases t with
    | nil => rfl
    | cons e t =>
      obtain ⟨k, v⟩ := e
      simp only [memWfFrom, Bool.and_eq_true, decide_eq_true_eq] at hw ⊢
      exact ⟨⟨by omega, hw.1.2⟩, hw.2⟩
  induction m generalizing lo with
  | nil => simp only [memPut]; split <;> simp_all [memWfFrom]
  | cons e t ih =>
    obtain ⟨k, v⟩ := e
    simp only [memWfFrom, Bool.and_eq_true, decide_eq_true_eq] at h
    simp only [memPut]
    split
    · split
      · simp only [memWfFrom, Bool.and_eq_true, decide_eq_true_eq]; exact h
      · rename_i hk hb
        simp only [memWfFrom, Bool.and_eq_true, decide_eq_true_eq, bne_iff_ne]
        exact ⟨⟨hlo, hb⟩, ⟨by omega, by simpa using h.1.2⟩, h.2⟩
    · split
      · subst_vars
        split
        · exact mono _ _ _ (by omega) h.2
        · simp_all [memWfFrom]
      · simp only [memWfFrom, Bool.and_eq_true, decide_eq_true_eq]
        exact ⟨h.1, ih (k + 1) (by omega) h.2⟩

theorem memPut_wf (m : List Host.Cell) (a : Nat) (b : Byte) (h : Memory.wf m = true) : Memory.wf (memPut m a b) = true :=
  memPut_wfFrom m a b 0 (Nat.zero_le _) h

theorem memWrite_wf (m : List Host.Cell) (a : Nat) (bs : List Byte) (h : Memory.wf m = true) :
    Memory.wf (memWrite m a bs) = true := by
  induction bs generalizing m a with
  | nil => exact h
  | cons b bs ih => exact ih _ _ (memPut_wf m a b h)

/-- A read after a write of several bytes. -/
theorem memGet_memWrite (m : List Host.Cell) (a : Nat) (bs : List Byte) (x : Nat) (h : Memory.wf m = true) :
    memGet (memWrite m a bs) x = if a ≤ x ∧ x < a + bs.length then bs.getD (x - a) 0 else memGet m x := by
  induction bs generalizing m a with
  | nil => simp only [memWrite, List.length_nil]; rw [if_neg]; omega
  | cons b bs ih =>
    simp only [memWrite]
    rw [ih _ _ (memPut_wf m a b h), memGet_memPut m a b x 0 h]
    simp only [List.length_cons]
    by_cases hx : x = a
    · subst hx
      rw [if_neg (by omega), if_pos rfl, if_pos (by omega)]
      simp
    · by_cases hin : a + 1 ≤ x ∧ x < a + 1 + bs.length
      · rw [if_pos hin, if_pos (by omega)]
        obtain ⟨d, hd⟩ : ∃ d, x - a = d + 1 := ⟨x - a - 1, by omega⟩
        rw [hd, show x - (a + 1) = d by omega]
        rfl
      · rw [if_neg hin, if_neg hx, if_neg (by omega)]

/-- A read after a clear: 0 in the range, elsewhere what was there. -/
@[simp] theorem memGet_memClear (m : List Host.Cell) (a n x : Nat) :
    memGet (memClear m a n) x = if a ≤ x ∧ x < a + n then 0 else memGet m x := by
  induction m with
  | nil => simp [memClear, memGet]
  | cons e t ih => obtain ⟨k, v⟩ := e; simp only [memClear] at ih ⊢; grind [memGet]

/-- A clear keeps the canonical form. -/
theorem memClear_wfFrom (m : List Host.Cell) (a n lo : Nat) (h : memWfFrom lo m = true) :
    memWfFrom lo (memClear m a n) = true := by
  have mono : ∀ (t : List Host.Cell) lo lo', lo' ≤ lo → memWfFrom lo t = true → memWfFrom lo' t = true := by
    intro t lo lo' hl hw
    cases t with
    | nil => rfl
    | cons e t =>
      obtain ⟨k, v⟩ := e
      simp only [memWfFrom, Bool.and_eq_true, decide_eq_true_eq] at hw ⊢
      exact ⟨⟨by omega, hw.1.2⟩, hw.2⟩
  induction m generalizing lo with
  | nil => rfl
  | cons e t ih =>
    obtain ⟨k, v⟩ := e
    simp only [memWfFrom, Bool.and_eq_true, decide_eq_true_eq] at h
    have ht := ih (k + 1) h.2
    simp only [memClear, List.filter_cons] at ht ⊢
    split
    · simp only [memWfFrom, Bool.and_eq_true, decide_eq_true_eq]
      exact ⟨h.1, ht⟩
    · exact mono _ _ _ (by omega) ht

theorem memClear_wf (m : List Host.Cell) (a n : Nat) (h : Memory.wf m = true) : Memory.wf (memClear m a n) = true :=
  memClear_wfFrom m a n 0 h

theorem State.write_memWf (s : State) (a : Nat) (bs : List Byte) (h : Memory.wf s.mem = true) :
    Memory.wf (s.write a bs).mem = true := memWrite_wf _ _ _ h

/-- Reset memory lists nothing. -/
theorem reset_memWf : Memory.wf State.reset.mem = true := rfl

/-! ## Status registers (R412) -/

@[simp] theorem SeqReg.has_raise (r : SeqReg) (bits : List Nat) (b : Nat) :
    (r.raise bits).has b = (bits.contains b || r.has b) := by
  unfold SeqReg.raise SeqReg.has
  split
  · simp_all
  · have key : ∀ (l : List Nat) (m : List (Nat × Nat)) (n : Nat),
        (l.foldl (fun l b => insertKey b n l) m).any (fun e => e.1 == b) = (l.contains b || m.any (fun e => e.1 == b)) := by
      intro l
      induction l with
      | nil => intros; simp
      | cons x xs ih => intro m n; simp only [List.foldl, ih, any_insertKey, List.contains_cons]; grind
    simp only [key]
    congr 1
    induction r.set with
    | nil => rfl
    | cons e t ih => simp only [List.map, List.any_cons, ih]

end Sys2Proof.Machine
end

