-- ==== Sys2Proof/Laws/State.lean ====
section
/-! SUPPORT. What each shared update leaves as it is: one lemma a field, so that no proof unfolds a record update. -/
namespace Sys2Proof.Machine
open Sys2Proof

/-! ### State.emit -/
@[simp] theorem State.emit_pending (s : State) (o : Output) : (s.emit o).pending = s.pending := (rfl)
@[simp] theorem State.emit_free (s : State) (o : Output) : (s.emit o).free = s.free := (rfl)
@[simp] theorem State.emit_power (s : State) (o : Output) : (s.emit o).power = s.power := (rfl)
@[simp] theorem State.emit_aon (s : State) (o : Output) : (s.emit o).aon = s.aon := (rfl)
@[simp] theorem State.emit_bwf (s : State) (o : Output) : (s.emit o).bwf = s.bwf := (rfl)
@[simp] theorem State.emit_stats (s : State) (o : Output) : (s.emit o).stats = s.stats := (rfl)
@[simp] theorem State.emit_regs (s : State) (o : Output) : (s.emit o).regs = s.regs := (rfl)
@[simp] theorem State.emit_cfgOfs (s : State) (o : Output) : (s.emit o).cfgOfs = s.cfgOfs := (rfl)
@[simp] theorem State.emit_od (s : State) (o : Output) : (s.emit o).od = s.od := (rfl)
@[simp] theorem State.emit_host (s : State) (o : Output) : (s.emit o).host = s.host := (rfl)
@[simp] theorem State.emit_mbox (s : State) (o : Output) : (s.emit o).mbox = s.mbox := (rfl)
@[simp] theorem State.emit_tide (s : State) (o : Output) : (s.emit o).tide = s.tide := (rfl)
@[simp] theorem State.emit_pa (s : State) (o : Output) : (s.emit o).pa = s.pa := (rfl)
@[simp] theorem State.emit_pb (s : State) (o : Output) : (s.emit o).pb = s.pb := (rfl)
@[simp] theorem State.emit_time (s : State) (o : Output) : (s.emit o).time = s.time := (rfl)
@[simp] theorem State.emit_chain (s : State) (o : Output) : (s.emit o).chain = s.chain := (rfl)
@[simp] theorem State.emit_flash (s : State) (o : Output) : (s.emit o).flash = s.flash := (rfl)
@[simp] theorem State.emit_otp (s : State) (o : Output) : (s.emit o).otp = s.otp := (rfl)
@[simp] theorem State.emit_ident (s : State) (o : Output) : (s.emit o).ident = s.ident := (rfl)
@[simp] theorem State.emit_brew (s : State) (o : Output) : (s.emit o).brew = s.brew := (rfl)
@[simp] theorem State.emit_hk (s : State) (o : Output) : (s.emit o).hk = s.hk := (rfl)
@[simp] theorem State.emit_dram (s : State) (o : Output) : (s.emit o).dram = s.dram := (rfl)
@[simp] theorem State.emit_cask (s : State) (o : Output) : (s.emit o).cask = s.cask := (rfl)
@[simp] theorem State.emit_caps (s : State) (o : Output) : (s.emit o).caps = s.caps := (rfl)
@[simp] theorem State.emit_mem (s : State) (o : Output) : (s.emit o).mem = s.mem := (rfl)

/-! ### State.advance -/
@[simp] theorem State.advance_pending (s : State) (n : Nat) : (s.advance n).pending = s.pending := (rfl)
@[simp] theorem State.advance_free (s : State) (n : Nat) : (s.advance n).free = s.free := (rfl)
@[simp] theorem State.advance_out (s : State) (n : Nat) : (s.advance n).out = s.out := (rfl)
@[simp] theorem State.advance_power (s : State) (n : Nat) : (s.advance n).power = s.power := (rfl)
@[simp] theorem State.advance_aon (s : State) (n : Nat) : (s.advance n).aon = s.aon := (rfl)
@[simp] theorem State.advance_bwf (s : State) (n : Nat) : (s.advance n).bwf = s.bwf := (rfl)
@[simp] theorem State.advance_stats (s : State) (n : Nat) : (s.advance n).stats = s.stats := (rfl)
@[simp] theorem State.advance_regs (s : State) (n : Nat) : (s.advance n).regs = s.regs := (rfl)
@[simp] theorem State.advance_cfgOfs (s : State) (n : Nat) : (s.advance n).cfgOfs = s.cfgOfs := (rfl)
@[simp] theorem State.advance_od (s : State) (n : Nat) : (s.advance n).od = s.od := (rfl)
@[simp] theorem State.advance_host (s : State) (n : Nat) : (s.advance n).host = s.host := (rfl)
@[simp] theorem State.advance_mbox (s : State) (n : Nat) : (s.advance n).mbox = s.mbox := (rfl)
@[simp] theorem State.advance_tide (s : State) (n : Nat) : (s.advance n).tide = s.tide := (rfl)
@[simp] theorem State.advance_pa (s : State) (n : Nat) : (s.advance n).pa = s.pa := (rfl)
@[simp] theorem State.advance_pb (s : State) (n : Nat) : (s.advance n).pb = s.pb := (rfl)
@[simp] theorem State.advance_chain (s : State) (n : Nat) : (s.advance n).chain = s.chain := (rfl)
@[simp] theorem State.advance_flash (s : State) (n : Nat) : (s.advance n).flash = s.flash := (rfl)
@[simp] theorem State.advance_otp (s : State) (n : Nat) : (s.advance n).otp = s.otp := (rfl)
@[simp] theorem State.advance_ident (s : State) (n : Nat) : (s.advance n).ident = s.ident := (rfl)
@[simp] theorem State.advance_brew (s : State) (n : Nat) : (s.advance n).brew = s.brew := (rfl)
@[simp] theorem State.advance_hk (s : State) (n : Nat) : (s.advance n).hk = s.hk := (rfl)
@[simp] theorem State.advance_dram (s : State) (n : Nat) : (s.advance n).dram = s.dram := (rfl)
@[simp] theorem State.advance_cask (s : State) (n : Nat) : (s.advance n).cask = s.cask := (rfl)
@[simp] theorem State.advance_caps (s : State) (n : Nat) : (s.advance n).caps = s.caps := (rfl)
@[simp] theorem State.advance_mem (s : State) (n : Nat) : (s.advance n).mem = s.mem := (rfl)

/-! ### State.setStat -/
@[simp] theorem State.setStat_pending (s : State) (k : Nat) (r : SeqReg) : (s.setStat k r).pending = s.pending := (rfl)
@[simp] theorem State.setStat_free (s : State) (k : Nat) (r : SeqReg) : (s.setStat k r).free = s.free := (rfl)
@[simp] theorem State.setStat_out (s : State) (k : Nat) (r : SeqReg) : (s.setStat k r).out = s.out := (rfl)
@[simp] theorem State.setStat_power (s : State) (k : Nat) (r : SeqReg) : (s.setStat k r).power = s.power := (rfl)
@[simp] theorem State.setStat_aon (s : State) (k : Nat) (r : SeqReg) : (s.setStat k r).aon = s.aon := (rfl)
@[simp] theorem State.setStat_bwf (s : State) (k : Nat) (r : SeqReg) : (s.setStat k r).bwf = s.bwf := (rfl)
@[simp] theorem State.setStat_regs (s : State) (k : Nat) (r : SeqReg) : (s.setStat k r).regs = s.regs := (rfl)
@[simp] theorem State.setStat_cfgOfs (s : State) (k : Nat) (r : SeqReg) : (s.setStat k r).cfgOfs = s.cfgOfs := (rfl)
@[simp] theorem State.setStat_od (s : State) (k : Nat) (r : SeqReg) : (s.setStat k r).od = s.od := (rfl)
@[simp] theorem State.setStat_host (s : State) (k : Nat) (r : SeqReg) : (s.setStat k r).host = s.host := (rfl)
@[simp] theorem State.setStat_mbox (s : State) (k : Nat) (r : SeqReg) : (s.setStat k r).mbox = s.mbox := (rfl)
@[simp] theorem State.setStat_tide (s : State) (k : Nat) (r : SeqReg) : (s.setStat k r).tide = s.tide := (rfl)
@[simp] theorem State.setStat_pa (s : State) (k : Nat) (r : SeqReg) : (s.setStat k r).pa = s.pa := (rfl)
@[simp] theorem State.setStat_pb (s : State) (k : Nat) (r : SeqReg) : (s.setStat k r).pb = s.pb := (rfl)
@[simp] theorem State.setStat_time (s : State) (k : Nat) (r : SeqReg) : (s.setStat k r).time = s.time := (rfl)
@[simp] theorem State.setStat_chain (s : State) (k : Nat) (r : SeqReg) : (s.setStat k r).chain = s.chain := (rfl)
@[simp] theorem State.setStat_flash (s : State) (k : Nat) (r : SeqReg) : (s.setStat k r).flash = s.flash := (rfl)
@[simp] theorem State.setStat_otp (s : State) (k : Nat) (r : SeqReg) : (s.setStat k r).otp = s.otp := (rfl)
@[simp] theorem State.setStat_ident (s : State) (k : Nat) (r : SeqReg) : (s.setStat k r).ident = s.ident := (rfl)
@[simp] theorem State.setStat_brew (s : State) (k : Nat) (r : SeqReg) : (s.setStat k r).brew = s.brew := (rfl)
@[simp] theorem State.setStat_hk (s : State) (k : Nat) (r : SeqReg) : (s.setStat k r).hk = s.hk := (rfl)
@[simp] theorem State.setStat_dram (s : State) (k : Nat) (r : SeqReg) : (s.setStat k r).dram = s.dram := (rfl)
@[simp] theorem State.setStat_cask (s : State) (k : Nat) (r : SeqReg) : (s.setStat k r).cask = s.cask := (rfl)
@[simp] theorem State.setStat_caps (s : State) (k : Nat) (r : SeqReg) : (s.setStat k r).caps = s.caps := (rfl)
@[simp] theorem State.setStat_mem (s : State) (k : Nat) (r : SeqReg) : (s.setStat k r).mem = s.mem := (rfl)

/-! ### State.setObj -/
@[simp] theorem State.setObj_pending (s : State) (i j : Nat) (v : List Byte) : (s.setObj i j v).pending = s.pending := (rfl)
@[simp] theorem State.setObj_free (s : State) (i j : Nat) (v : List Byte) : (s.setObj i j v).free = s.free := (rfl)
@[simp] theorem State.setObj_out (s : State) (i j : Nat) (v : List Byte) : (s.setObj i j v).out = s.out := (rfl)
@[simp] theorem State.setObj_power (s : State) (i j : Nat) (v : List Byte) : (s.setObj i j v).power = s.power := (rfl)
@[simp] theorem State.setObj_aon (s : State) (i j : Nat) (v : List Byte) : (s.setObj i j v).aon = s.aon := (rfl)
@[simp] theorem State.setObj_bwf (s : State) (i j : Nat) (v : List Byte) : (s.setObj i j v).bwf = s.bwf := (rfl)
@[simp] theorem State.setObj_stats (s : State) (i j : Nat) (v : List Byte) : (s.setObj i j v).stats = s.stats := (rfl)
@[simp] theorem State.setObj_regs (s : State) (i j : Nat) (v : List Byte) : (s.setObj i j v).regs = s.regs := (rfl)
@[simp] theorem State.setObj_cfgOfs (s : State) (i j : Nat) (v : List Byte) : (s.setObj i j v).cfgOfs = s.cfgOfs := (rfl)
@[simp] theorem State.setObj_host (s : State) (i j : Nat) (v : List Byte) : (s.setObj i j v).host = s.host := (rfl)
@[simp] theorem State.setObj_mbox (s : State) (i j : Nat) (v : List Byte) : (s.setObj i j v).mbox = s.mbox := (rfl)
@[simp] theorem State.setObj_tide (s : State) (i j : Nat) (v : List Byte) : (s.setObj i j v).tide = s.tide := (rfl)
@[simp] theorem State.setObj_pa (s : State) (i j : Nat) (v : List Byte) : (s.setObj i j v).pa = s.pa := (rfl)
@[simp] theorem State.setObj_pb (s : State) (i j : Nat) (v : List Byte) : (s.setObj i j v).pb = s.pb := (rfl)
@[simp] theorem State.setObj_time (s : State) (i j : Nat) (v : List Byte) : (s.setObj i j v).time = s.time := (rfl)
@[simp] theorem State.setObj_chain (s : State) (i j : Nat) (v : List Byte) : (s.setObj i j v).chain = s.chain := (rfl)
@[simp] theorem State.setObj_flash (s : State) (i j : Nat) (v : List Byte) : (s.setObj i j v).flash = s.flash := (rfl)
@[simp] theorem State.setObj_otp (s : State) (i j : Nat) (v : List Byte) : (s.setObj i j v).otp = s.otp := (rfl)
@[simp] theorem State.setObj_ident (s : State) (i j : Nat) (v : List Byte) : (s.setObj i j v).ident = s.ident := (rfl)
@[simp] theorem State.setObj_brew (s : State) (i j : Nat) (v : List Byte) : (s.setObj i j v).brew = s.brew := (rfl)
@[simp] theorem State.setObj_hk (s : State) (i j : Nat) (v : List Byte) : (s.setObj i j v).hk = s.hk := (rfl)
@[simp] theorem State.setObj_dram (s : State) (i j : Nat) (v : List Byte) : (s.setObj i j v).dram = s.dram := (rfl)
@[simp] theorem State.setObj_cask (s : State) (i j : Nat) (v : List Byte) : (s.setObj i j v).cask = s.cask := (rfl)
@[simp] theorem State.setObj_caps (s : State) (i j : Nat) (v : List Byte) : (s.setObj i j v).caps = s.caps := (rfl)
@[simp] theorem State.setObj_mem (s : State) (i j : Nat) (v : List Byte) : (s.setObj i j v).mem = s.mem := (rfl)

/-! ### State.setPend -/
@[simp] theorem State.setPend_pending (s : State) (i j : Nat) (v : List Byte) : (s.setPend i j v).pending = s.pending := (rfl)
@[simp] theorem State.setPend_free (s : State) (i j : Nat) (v : List Byte) : (s.setPend i j v).free = s.free := (rfl)
@[simp] theorem State.setPend_out (s : State) (i j : Nat) (v : List Byte) : (s.setPend i j v).out = s.out := (rfl)
@[simp] theorem State.setPend_power (s : State) (i j : Nat) (v : List Byte) : (s.setPend i j v).power = s.power := (rfl)
@[simp] theorem State.setPend_aon (s : State) (i j : Nat) (v : List Byte) : (s.setPend i j v).aon = s.aon := (rfl)
@[simp] theorem State.setPend_bwf (s : State) (i j : Nat) (v : List Byte) : (s.setPend i j v).bwf = s.bwf := (rfl)
@[simp] theorem State.setPend_stats (s : State) (i j : Nat) (v : List Byte) : (s.setPend i j v).stats = s.stats := (rfl)
@[simp] theorem State.setPend_regs (s : State) (i j : Nat) (v : List Byte) : (s.setPend i j v).regs = s.regs := (rfl)
@[simp] theorem State.setPend_cfgOfs (s : State) (i j : Nat) (v : List Byte) : (s.setPend i j v).cfgOfs = s.cfgOfs := (rfl)
@[simp] theorem State.setPend_host (s : State) (i j : Nat) (v : List Byte) : (s.setPend i j v).host = s.host := (rfl)
@[simp] theorem State.setPend_mbox (s : State) (i j : Nat) (v : List Byte) : (s.setPend i j v).mbox = s.mbox := (rfl)
@[simp] theorem State.setPend_tide (s : State) (i j : Nat) (v : List Byte) : (s.setPend i j v).tide = s.tide := (rfl)
@[simp] theorem State.setPend_pa (s : State) (i j : Nat) (v : List Byte) : (s.setPend i j v).pa = s.pa := (rfl)
@[simp] theorem State.setPend_pb (s : State) (i j : Nat) (v : List Byte) : (s.setPend i j v).pb = s.pb := (rfl)
@[simp] theorem State.setPend_time (s : State) (i j : Nat) (v : List Byte) : (s.setPend i j v).time = s.time := (rfl)
@[simp] theorem State.setPend_chain (s : State) (i j : Nat) (v : List Byte) : (s.setPend i j v).chain = s.chain := (rfl)
@[simp] theorem State.setPend_flash (s : State) (i j : Nat) (v : List Byte) : (s.setPend i j v).flash = s.flash := (rfl)
@[simp] theorem State.setPend_otp (s : State) (i j : Nat) (v : List Byte) : (s.setPend i j v).otp = s.otp := (rfl)
@[simp] theorem State.setPend_ident (s : State) (i j : Nat) (v : List Byte) : (s.setPend i j v).ident = s.ident := (rfl)
@[simp] theorem State.setPend_brew (s : State) (i j : Nat) (v : List Byte) : (s.setPend i j v).brew = s.brew := (rfl)
@[simp] theorem State.setPend_hk (s : State) (i j : Nat) (v : List Byte) : (s.setPend i j v).hk = s.hk := (rfl)
@[simp] theorem State.setPend_dram (s : State) (i j : Nat) (v : List Byte) : (s.setPend i j v).dram = s.dram := (rfl)
@[simp] theorem State.setPend_cask (s : State) (i j : Nat) (v : List Byte) : (s.setPend i j v).cask = s.cask := (rfl)
@[simp] theorem State.setPend_caps (s : State) (i j : Nat) (v : List Byte) : (s.setPend i j v).caps = s.caps := (rfl)
@[simp] theorem State.setPend_mem (s : State) (i j : Nat) (v : List Byte) : (s.setPend i j v).mem = s.mem := (rfl)

/-! ### State.setReg -/
@[simp] theorem State.setReg_pending (s : State) (w o v : Nat) : (s.setReg w o v).pending = s.pending := (rfl)
@[simp] theorem State.setReg_free (s : State) (w o v : Nat) : (s.setReg w o v).free = s.free := (rfl)
@[simp] theorem State.setReg_out (s : State) (w o v : Nat) : (s.setReg w o v).out = s.out := (rfl)
@[simp] theorem State.setReg_power (s : State) (w o v : Nat) : (s.setReg w o v).power = s.power := (rfl)
@[simp] theorem State.setReg_aon (s : State) (w o v : Nat) : (s.setReg w o v).aon = s.aon := (rfl)
@[simp] theorem State.setReg_bwf (s : State) (w o v : Nat) : (s.setReg w o v).bwf = s.bwf := (rfl)
@[simp] theorem State.setReg_stats (s : State) (w o v : Nat) : (s.setReg w o v).stats = s.stats := (rfl)
@[simp] theorem State.setReg_cfgOfs (s : State) (w o v : Nat) : (s.setReg w o v).cfgOfs = s.cfgOfs := (rfl)
@[simp] theorem State.setReg_od (s : State) (w o v : Nat) : (s.setReg w o v).od = s.od := (rfl)
@[simp] theorem State.setReg_host (s : State) (w o v : Nat) : (s.setReg w o v).host = s.host := (rfl)
@[simp] theorem State.setReg_mbox (s : State) (w o v : Nat) : (s.setReg w o v).mbox = s.mbox := (rfl)
@[simp] theorem State.setReg_tide (s : State) (w o v : Nat) : (s.setReg w o v).tide = s.tide := (rfl)
@[simp] theorem State.setReg_pa (s : State) (w o v : Nat) : (s.setReg w o v).pa = s.pa := (rfl)
@[simp] theorem State.setReg_pb (s : State) (w o v : Nat) : (s.setReg w o v).pb = s.pb := (rfl)
@[simp] theorem State.setReg_time (s : State) (w o v : Nat) : (s.setReg w o v).time = s.time := (rfl)
@[simp] theorem State.setReg_chain (s : State) (w o v : Nat) : (s.setReg w o v).chain = s.chain := (rfl)
@[simp] theorem State.setReg_flash (s : State) (w o v : Nat) : (s.setReg w o v).flash = s.flash := (rfl)
@[simp] theorem State.setReg_otp (s : State) (w o v : Nat) : (s.setReg w o v).otp = s.otp := (rfl)
@[simp] theorem State.setReg_ident (s : State) (w o v : Nat) : (s.setReg w o v).ident = s.ident := (rfl)
@[simp] theorem State.setReg_brew (s : State) (w o v : Nat) : (s.setReg w o v).brew = s.brew := (rfl)
@[simp] theorem State.setReg_hk (s : State) (w o v : Nat) : (s.setReg w o v).hk = s.hk := (rfl)
@[simp] theorem State.setReg_dram (s : State) (w o v : Nat) : (s.setReg w o v).dram = s.dram := (rfl)
@[simp] theorem State.setReg_cask (s : State) (w o v : Nat) : (s.setReg w o v).cask = s.cask := (rfl)
@[simp] theorem State.setReg_caps (s : State) (w o v : Nat) : (s.setReg w o v).caps = s.caps := (rfl)
@[simp] theorem State.setReg_mem (s : State) (w o v : Nat) : (s.setReg w o v).mem = s.mem := (rfl)

/-! ### State.setRegBit -/
@[simp] theorem State.setRegBit_pending (s : State) (w o b : Nat) (v : Bool) : (s.setRegBit w o b v).pending = s.pending := (rfl)
@[simp] theorem State.setRegBit_free (s : State) (w o b : Nat) (v : Bool) : (s.setRegBit w o b v).free = s.free := (rfl)
@[simp] theorem State.setRegBit_out (s : State) (w o b : Nat) (v : Bool) : (s.setRegBit w o b v).out = s.out := (rfl)
@[simp] theorem State.setRegBit_power (s : State) (w o b : Nat) (v : Bool) : (s.setRegBit w o b v).power = s.power := (rfl)
@[simp] theorem State.setRegBit_aon (s : State) (w o b : Nat) (v : Bool) : (s.setRegBit w o b v).aon = s.aon := (rfl)
@[simp] theorem State.setRegBit_bwf (s : State) (w o b : Nat) (v : Bool) : (s.setRegBit w o b v).bwf = s.bwf := (rfl)
@[simp] theorem State.setRegBit_stats (s : State) (w o b : Nat) (v : Bool) : (s.setRegBit w o b v).stats = s.stats := (rfl)
@[simp] theorem State.setRegBit_cfgOfs (s : State) (w o b : Nat) (v : Bool) : (s.setRegBit w o b v).cfgOfs = s.cfgOfs := (rfl)
@[simp] theorem State.setRegBit_od (s : State) (w o b : Nat) (v : Bool) : (s.setRegBit w o b v).od = s.od := (rfl)
@[simp] theorem State.setRegBit_host (s : State) (w o b : Nat) (v : Bool) : (s.setRegBit w o b v).host = s.host := (rfl)
@[simp] theorem State.setRegBit_mbox (s : State) (w o b : Nat) (v : Bool) : (s.setRegBit w o b v).mbox = s.mbox := (rfl)
@[simp] theorem State.setRegBit_tide (s : State) (w o b : Nat) (v : Bool) : (s.setRegBit w o b v).tide = s.tide := (rfl)
@[simp] theorem State.setRegBit_pa (s : State) (w o b : Nat) (v : Bool) : (s.setRegBit w o b v).pa = s.pa := (rfl)
@[simp] theorem State.setRegBit_pb (s : State) (w o b : Nat) (v : Bool) : (s.setRegBit w o b v).pb = s.pb := (rfl)
@[simp] theorem State.setRegBit_time (s : State) (w o b : Nat) (v : Bool) : (s.setRegBit w o b v).time = s.time := (rfl)
@[simp] theorem State.setRegBit_chain (s : State) (w o b : Nat) (v : Bool) : (s.setRegBit w o b v).chain = s.chain := (rfl)
@[simp] theorem State.setRegBit_flash (s : State) (w o b : Nat) (v : Bool) : (s.setRegBit w o b v).flash = s.flash := (rfl)
@[simp] theorem State.setRegBit_otp (s : State) (w o b : Nat) (v : Bool) : (s.setRegBit w o b v).otp = s.otp := (rfl)
@[simp] theorem State.setRegBit_ident (s : State) (w o b : Nat) (v : Bool) : (s.setRegBit w o b v).ident = s.ident := (rfl)
@[simp] theorem State.setRegBit_brew (s : State) (w o b : Nat) (v : Bool) : (s.setRegBit w o b v).brew = s.brew := (rfl)
@[simp] theorem State.setRegBit_hk (s : State) (w o b : Nat) (v : Bool) : (s.setRegBit w o b v).hk = s.hk := (rfl)
@[simp] theorem State.setRegBit_dram (s : State) (w o b : Nat) (v : Bool) : (s.setRegBit w o b v).dram = s.dram := (rfl)
@[simp] theorem State.setRegBit_cask (s : State) (w o b : Nat) (v : Bool) : (s.setRegBit w o b v).cask = s.cask := (rfl)
@[simp] theorem State.setRegBit_caps (s : State) (w o b : Nat) (v : Bool) : (s.setRegBit w o b v).caps = s.caps := (rfl)
@[simp] theorem State.setRegBit_mem (s : State) (w o b : Nat) (v : Bool) : (s.setRegBit w o b v).mem = s.mem := (rfl)

/-! ### State.write -/
@[simp] theorem State.write_pending (s : State) (a : Nat) (bs : List Byte) : (s.write a bs).pending = s.pending := (rfl)
@[simp] theorem State.write_free (s : State) (a : Nat) (bs : List Byte) : (s.write a bs).free = s.free := (rfl)
@[simp] theorem State.write_out (s : State) (a : Nat) (bs : List Byte) : (s.write a bs).out = s.out := (rfl)
@[simp] theorem State.write_power (s : State) (a : Nat) (bs : List Byte) : (s.write a bs).power = s.power := (rfl)
@[simp] theorem State.write_aon (s : State) (a : Nat) (bs : List Byte) : (s.write a bs).aon = s.aon := (rfl)
@[simp] theorem State.write_bwf (s : State) (a : Nat) (bs : List Byte) : (s.write a bs).bwf = s.bwf := (rfl)
@[simp] theorem State.write_stats (s : State) (a : Nat) (bs : List Byte) : (s.write a bs).stats = s.stats := (rfl)
@[simp] theorem State.write_regs (s : State) (a : Nat) (bs : List Byte) : (s.write a bs).regs = s.regs := (rfl)
@[simp] theorem State.write_cfgOfs (s : State) (a : Nat) (bs : List Byte) : (s.write a bs).cfgOfs = s.cfgOfs := (rfl)
@[simp] theorem State.write_od (s : State) (a : Nat) (bs : List Byte) : (s.write a bs).od = s.od := (rfl)
@[simp] theorem State.write_host (s : State) (a : Nat) (bs : List Byte) : (s.write a bs).host = s.host := (rfl)
@[simp] theorem State.write_mbox (s : State) (a : Nat) (bs : List Byte) : (s.write a bs).mbox = s.mbox := (rfl)
@[simp] theorem State.write_tide (s : State) (a : Nat) (bs : List Byte) : (s.write a bs).tide = s.tide := (rfl)
@[simp] theorem State.write_pa (s : State) (a : Nat) (bs : List Byte) : (s.write a bs).pa = s.pa := (rfl)
@[simp] theorem State.write_pb (s : State) (a : Nat) (bs : List Byte) : (s.write a bs).pb = s.pb := (rfl)
@[simp] theorem State.write_time (s : State) (a : Nat) (bs : List Byte) : (s.write a bs).time = s.time := (rfl)
@[simp] theorem State.write_chain (s : State) (a : Nat) (bs : List Byte) : (s.write a bs).chain = s.chain := (rfl)
@[simp] theorem State.write_flash (s : State) (a : Nat) (bs : List Byte) : (s.write a bs).flash = s.flash := (rfl)
@[simp] theorem State.write_otp (s : State) (a : Nat) (bs : List Byte) : (s.write a bs).otp = s.otp := (rfl)
@[simp] theorem State.write_ident (s : State) (a : Nat) (bs : List Byte) : (s.write a bs).ident = s.ident := (rfl)
@[simp] theorem State.write_brew (s : State) (a : Nat) (bs : List Byte) : (s.write a bs).brew = s.brew := (rfl)
@[simp] theorem State.write_hk (s : State) (a : Nat) (bs : List Byte) : (s.write a bs).hk = s.hk := (rfl)
@[simp] theorem State.write_dram (s : State) (a : Nat) (bs : List Byte) : (s.write a bs).dram = s.dram := (rfl)
@[simp] theorem State.write_cask (s : State) (a : Nat) (bs : List Byte) : (s.write a bs).cask = s.cask := (rfl)
@[simp] theorem State.write_caps (s : State) (a : Nat) (bs : List Byte) : (s.write a bs).caps = s.caps := (rfl)

/-! ### State.modPort -/
@[simp] theorem State.modPort_pending (s : State) (p : Port) (f : PortState → PortState) : (s.modPort p f).pending = s.pending := by cases p <;> rfl
@[simp] theorem State.modPort_free (s : State) (p : Port) (f : PortState → PortState) : (s.modPort p f).free = s.free := by cases p <;> rfl
@[simp] theorem State.modPort_out (s : State) (p : Port) (f : PortState → PortState) : (s.modPort p f).out = s.out := by cases p <;> rfl
@[simp] theorem State.modPort_power (s : State) (p : Port) (f : PortState → PortState) : (s.modPort p f).power = s.power := by cases p <;> rfl
@[simp] theorem State.modPort_aon (s : State) (p : Port) (f : PortState → PortState) : (s.modPort p f).aon = s.aon := by cases p <;> rfl
@[simp] theorem State.modPort_bwf (s : State) (p : Port) (f : PortState → PortState) : (s.modPort p f).bwf = s.bwf := by cases p <;> rfl
@[simp] theorem State.modPort_stats (s : State) (p : Port) (f : PortState → PortState) : (s.modPort p f).stats = s.stats := by cases p <;> rfl
@[simp] theorem State.modPort_regs (s : State) (p : Port) (f : PortState → PortState) : (s.modPort p f).regs = s.regs := by cases p <;> rfl
@[simp] theorem State.modPort_cfgOfs (s : State) (p : Port) (f : PortState → PortState) : (s.modPort p f).cfgOfs = s.cfgOfs := by cases p <;> rfl
@[simp] theorem State.modPort_od (s : State) (p : Port) (f : PortState → PortState) : (s.modPort p f).od = s.od := by cases p <;> rfl
@[simp] theorem State.modPort_host (s : State) (p : Port) (f : PortState → PortState) : (s.modPort p f).host = s.host := by cases p <;> rfl
@[simp] theorem State.modPort_mbox (s : State) (p : Port) (f : PortState → PortState) : (s.modPort p f).mbox = s.mbox := by cases p <;> rfl
@[simp] theorem State.modPort_tide (s : State) (p : Port) (f : PortState → PortState) : (s.modPort p f).tide = s.tide := by cases p <;> rfl
@[simp] theorem State.modPort_time (s : State) (p : Port) (f : PortState → PortState) : (s.modPort p f).time = s.time := by cases p <;> rfl
@[simp] theorem State.modPort_chain (s : State) (p : Port) (f : PortState → PortState) : (s.modPort p f).chain = s.chain := by cases p <;> rfl
@[simp] theorem State.modPort_flash (s : State) (p : Port) (f : PortState → PortState) : (s.modPort p f).flash = s.flash := by cases p <;> rfl
@[simp] theorem State.modPort_otp (s : State) (p : Port) (f : PortState → PortState) : (s.modPort p f).otp = s.otp := by cases p <;> rfl
@[simp] theorem State.modPort_ident (s : State) (p : Port) (f : PortState → PortState) : (s.modPort p f).ident = s.ident := by cases p <;> rfl
@[simp] theorem State.modPort_brew (s : State) (p : Port) (f : PortState → PortState) : (s.modPort p f).brew = s.brew := by cases p <;> rfl
@[simp] theorem State.modPort_hk (s : State) (p : Port) (f : PortState → PortState) : (s.modPort p f).hk = s.hk := by cases p <;> rfl
@[simp] theorem State.modPort_dram (s : State) (p : Port) (f : PortState → PortState) : (s.modPort p f).dram = s.dram := by cases p <;> rfl
@[simp] theorem State.modPort_cask (s : State) (p : Port) (f : PortState → PortState) : (s.modPort p f).cask = s.cask := by cases p <;> rfl
@[simp] theorem State.modPort_caps (s : State) (p : Port) (f : PortState → PortState) : (s.modPort p f).caps = s.caps := by cases p <;> rfl
@[simp] theorem State.modPort_mem (s : State) (p : Port) (f : PortState → PortState) : (s.modPort p f).mem = s.mem := by cases p <;> rfl

/-! ### State.modBoth -/
@[simp] theorem State.modBoth_pending (s : State) (f : Port → PortState → PortState) : (s.modBoth f).pending = s.pending := (rfl)
@[simp] theorem State.modBoth_free (s : State) (f : Port → PortState → PortState) : (s.modBoth f).free = s.free := (rfl)
@[simp] theorem State.modBoth_out (s : State) (f : Port → PortState → PortState) : (s.modBoth f).out = s.out := (rfl)
@[simp] theorem State.modBoth_power (s : State) (f : Port → PortState → PortState) : (s.modBoth f).power = s.power := (rfl)
@[simp] theorem State.modBoth_aon (s : State) (f : Port → PortState → PortState) : (s.modBoth f).aon = s.aon := (rfl)
@[simp] theorem State.modBoth_bwf (s : State) (f : Port → PortState → PortState) : (s.modBoth f).bwf = s.bwf := (rfl)
@[simp] theorem State.modBoth_stats (s : State) (f : Port → PortState → PortState) : (s.modBoth f).stats = s.stats := (rfl)
@[simp] theorem State.modBoth_regs (s : State) (f : Port → PortState → PortState) : (s.modBoth f).regs = s.regs := (rfl)
@[simp] theorem State.modBoth_cfgOfs (s : State) (f : Port → PortState → PortState) : (s.modBoth f).cfgOfs = s.cfgOfs := (rfl)
@[simp] theorem State.modBoth_od (s : State) (f : Port → PortState → PortState) : (s.modBoth f).od = s.od := (rfl)
@[simp] theorem State.modBoth_host (s : State) (f : Port → PortState → PortState) : (s.modBoth f).host = s.host := (rfl)
@[simp] theorem State.modBoth_mbox (s : State) (f : Port → PortState → PortState) : (s.modBoth f).mbox = s.mbox := (rfl)
@[simp] theorem State.modBoth_tide (s : State) (f : Port → PortState → PortState) : (s.modBoth f).tide = s.tide := (rfl)
@[simp] theorem State.modBoth_time (s : State) (f : Port → PortState → PortState) : (s.modBoth f).time = s.time := (rfl)
@[simp] theorem State.modBoth_chain (s : State) (f : Port → PortState → PortState) : (s.modBoth f).chain = s.chain := (rfl)
@[simp] theorem State.modBoth_flash (s : State) (f : Port → PortState → PortState) : (s.modBoth f).flash = s.flash := (rfl)
@[simp] theorem State.modBoth_otp (s : State) (f : Port → PortState → PortState) : (s.modBoth f).otp = s.otp := (rfl)
@[simp] theorem State.modBoth_ident (s : State) (f : Port → PortState → PortState) : (s.modBoth f).ident = s.ident := (rfl)
@[simp] theorem State.modBoth_brew (s : State) (f : Port → PortState → PortState) : (s.modBoth f).brew = s.brew := (rfl)
@[simp] theorem State.modBoth_hk (s : State) (f : Port → PortState → PortState) : (s.modBoth f).hk = s.hk := (rfl)
@[simp] theorem State.modBoth_dram (s : State) (f : Port → PortState → PortState) : (s.modBoth f).dram = s.dram := (rfl)
@[simp] theorem State.modBoth_cask (s : State) (f : Port → PortState → PortState) : (s.modBoth f).cask = s.cask := (rfl)
@[simp] theorem State.modBoth_caps (s : State) (f : Port → PortState → PortState) : (s.modBoth f).caps = s.caps := (rfl)
@[simp] theorem State.modBoth_mem (s : State) (f : Port → PortState → PortState) : (s.modBoth f).mem = s.mem := (rfl)

/-! ### State.toRing -/
@[simp] theorem State.toRing_pending (s : State) (p : Port) (r : RingRec) : (s.toRing p r).pending = s.pending := by simp [State.toRing]
@[simp] theorem State.toRing_free (s : State) (p : Port) (r : RingRec) : (s.toRing p r).free = s.free := by simp [State.toRing]
@[simp] theorem State.toRing_out (s : State) (p : Port) (r : RingRec) : (s.toRing p r).out = s.out := by simp [State.toRing]
@[simp] theorem State.toRing_power (s : State) (p : Port) (r : RingRec) : (s.toRing p r).power = s.power := by simp [State.toRing]
@[simp] theorem State.toRing_aon (s : State) (p : Port) (r : RingRec) : (s.toRing p r).aon = s.aon := by simp [State.toRing]
@[simp] theorem State.toRing_bwf (s : State) (p : Port) (r : RingRec) : (s.toRing p r).bwf = s.bwf := by simp [State.toRing]
@[simp] theorem State.toRing_stats (s : State) (p : Port) (r : RingRec) : (s.toRing p r).stats = s.stats := by simp [State.toRing]
@[simp] theorem State.toRing_regs (s : State) (p : Port) (r : RingRec) : (s.toRing p r).regs = s.regs := by simp [State.toRing]
@[simp] theorem State.toRing_cfgOfs (s : State) (p : Port) (r : RingRec) : (s.toRing p r).cfgOfs = s.cfgOfs := by simp [State.toRing]
@[simp] theorem State.toRing_od (s : State) (p : Port) (r : RingRec) : (s.toRing p r).od = s.od := by simp [State.toRing]
@[simp] theorem State.toRing_host (s : State) (p : Port) (r : RingRec) : (s.toRing p r).host = s.host := by simp [State.toRing]
@[simp] theorem State.toRing_mbox (s : State) (p : Port) (r : RingRec) : (s.toRing p r).mbox = s.mbox := by simp [State.toRing]
@[simp] theorem State.toRing_tide (s : State) (p : Port) (r : RingRec) : (s.toRing p r).tide = s.tide := by simp [State.toRing]
@[simp] theorem State.toRing_time (s : State) (p : Port) (r : RingRec) : (s.toRing p r).time = s.time := by simp [State.toRing]
@[simp] theorem State.toRing_chain (s : State) (p : Port) (r : RingRec) : (s.toRing p r).chain = s.chain := by simp [State.toRing]
@[simp] theorem State.toRing_flash (s : State) (p : Port) (r : RingRec) : (s.toRing p r).flash = s.flash := by simp [State.toRing]
@[simp] theorem State.toRing_otp (s : State) (p : Port) (r : RingRec) : (s.toRing p r).otp = s.otp := by simp [State.toRing]
@[simp] theorem State.toRing_ident (s : State) (p : Port) (r : RingRec) : (s.toRing p r).ident = s.ident := by simp [State.toRing]
@[simp] theorem State.toRing_brew (s : State) (p : Port) (r : RingRec) : (s.toRing p r).brew = s.brew := by simp [State.toRing]
@[simp] theorem State.toRing_hk (s : State) (p : Port) (r : RingRec) : (s.toRing p r).hk = s.hk := by simp [State.toRing]
@[simp] theorem State.toRing_dram (s : State) (p : Port) (r : RingRec) : (s.toRing p r).dram = s.dram := by simp [State.toRing]
@[simp] theorem State.toRing_cask (s : State) (p : Port) (r : RingRec) : (s.toRing p r).cask = s.cask := by simp [State.toRing]
@[simp] theorem State.toRing_caps (s : State) (p : Port) (r : RingRec) : (s.toRing p r).caps = s.caps := by simp [State.toRing]
@[simp] theorem State.toRing_mem (s : State) (p : Port) (r : RingRec) : (s.toRing p r).mem = s.mem := by simp [State.toRing]

/-! ### State.toExport -/
@[simp] theorem State.toExport_pending (s : State) (r : ExportRec) : (s.toExport r).pending = s.pending := by unfold State.toExport; split <;> rfl
@[simp] theorem State.toExport_free (s : State) (r : ExportRec) : (s.toExport r).free = s.free := by unfold State.toExport; split <;> rfl
@[simp] theorem State.toExport_out (s : State) (r : ExportRec) : (s.toExport r).out = s.out := by unfold State.toExport; split <;> rfl
@[simp] theorem State.toExport_power (s : State) (r : ExportRec) : (s.toExport r).power = s.power := by unfold State.toExport; split <;> rfl
@[simp] theorem State.toExport_aon (s : State) (r : ExportRec) : (s.toExport r).aon = s.aon := by unfold State.toExport; split <;> rfl
@[simp] theorem State.toExport_bwf (s : State) (r : ExportRec) : (s.toExport r).bwf = s.bwf := by unfold State.toExport; split <;> rfl
@[simp] theorem State.toExport_stats (s : State) (r : ExportRec) : (s.toExport r).stats = s.stats := by unfold State.toExport; split <;> rfl
@[simp] theorem State.toExport_regs (s : State) (r : ExportRec) : (s.toExport r).regs = s.regs := by unfold State.toExport; split <;> rfl
@[simp] theorem State.toExport_cfgOfs (s : State) (r : ExportRec) : (s.toExport r).cfgOfs = s.cfgOfs := by unfold State.toExport; split <;> rfl
@[simp] theorem State.toExport_od (s : State) (r : ExportRec) : (s.toExport r).od = s.od := by unfold State.toExport; split <;> rfl
@[simp] theorem State.toExport_mbox (s : State) (r : ExportRec) : (s.toExport r).mbox = s.mbox := by unfold State.toExport; split <;> rfl
@[simp] theorem State.toExport_tide (s : State) (r : ExportRec) : (s.toExport r).tide = s.tide := by unfold State.toExport; split <;> rfl
@[simp] theorem State.toExport_pa (s : State) (r : ExportRec) : (s.toExport r).pa = s.pa := by unfold State.toExport; split <;> rfl
@[simp] theorem State.toExport_pb (s : State) (r : ExportRec) : (s.toExport r).pb = s.pb := by unfold State.toExport; split <;> rfl
@[simp] theorem State.toExport_time (s : State) (r : ExportRec) : (s.toExport r).time = s.time := by unfold State.toExport; split <;> rfl
@[simp] theorem State.toExport_chain (s : State) (r : ExportRec) : (s.toExport r).chain = s.chain := by unfold State.toExport; split <;> rfl
@[simp] theorem State.toExport_flash (s : State) (r : ExportRec) : (s.toExport r).flash = s.flash := by unfold State.toExport; split <;> rfl
@[simp] theorem State.toExport_otp (s : State) (r : ExportRec) : (s.toExport r).otp = s.otp := by unfold State.toExport; split <;> rfl
@[simp] theorem State.toExport_ident (s : State) (r : ExportRec) : (s.toExport r).ident = s.ident := by unfold State.toExport; split <;> rfl
@[simp] theorem State.toExport_brew (s : State) (r : ExportRec) : (s.toExport r).brew = s.brew := by unfold State.toExport; split <;> rfl
@[simp] theorem State.toExport_hk (s : State) (r : ExportRec) : (s.toExport r).hk = s.hk := by unfold State.toExport; split <;> rfl
@[simp] theorem State.toExport_dram (s : State) (r : ExportRec) : (s.toExport r).dram = s.dram := by unfold State.toExport; split <;> rfl
@[simp] theorem State.toExport_cask (s : State) (r : ExportRec) : (s.toExport r).cask = s.cask := by unfold State.toExport; split <;> rfl
@[simp] theorem State.toExport_caps (s : State) (r : ExportRec) : (s.toExport r).caps = s.caps := by unfold State.toExport; split <;> rfl
@[simp] theorem State.toExport_mem (s : State) (r : ExportRec) : (s.toExport r).mem = s.mem := by unfold State.toExport; split <;> rfl

/-! ### State.fireHost -/
@[simp] theorem State.fireHost_pending (s : State) : (s.fireHost).pending = s.pending := by unfold State.fireHost; split <;> rfl
@[simp] theorem State.fireHost_free (s : State) : (s.fireHost).free = s.free := by unfold State.fireHost; split <;> rfl
@[simp] theorem State.fireHost_power (s : State) : (s.fireHost).power = s.power := by unfold State.fireHost; split <;> rfl
@[simp] theorem State.fireHost_aon (s : State) : (s.fireHost).aon = s.aon := by unfold State.fireHost; split <;> rfl
@[simp] theorem State.fireHost_bwf (s : State) : (s.fireHost).bwf = s.bwf := by unfold State.fireHost; split <;> rfl
@[simp] theorem State.fireHost_stats (s : State) : (s.fireHost).stats = s.stats := by unfold State.fireHost; split <;> rfl
@[simp] theorem State.fireHost_regs (s : State) : (s.fireHost).regs = s.regs := by unfold State.fireHost; split <;> rfl
@[simp] theorem State.fireHost_cfgOfs (s : State) : (s.fireHost).cfgOfs = s.cfgOfs := by unfold State.fireHost; split <;> rfl
@[simp] theorem State.fireHost_od (s : State) : (s.fireHost).od = s.od := by unfold State.fireHost; split <;> rfl
@[simp] theorem State.fireHost_host (s : State) : (s.fireHost).host = s.host := by unfold State.fireHost; split <;> rfl
@[simp] theorem State.fireHost_mbox (s : State) : (s.fireHost).mbox = s.mbox := by unfold State.fireHost; split <;> rfl
@[simp] theorem State.fireHost_tide (s : State) : (s.fireHost).tide = s.tide := by unfold State.fireHost; split <;> rfl
@[simp] theorem State.fireHost_pa (s : State) : (s.fireHost).pa = s.pa := by unfold State.fireHost; split <;> rfl
@[simp] theorem State.fireHost_pb (s : State) : (s.fireHost).pb = s.pb := by unfold State.fireHost; split <;> rfl
@[simp] theorem State.fireHost_time (s : State) : (s.fireHost).time = s.time := by unfold State.fireHost; split <;> rfl
@[simp] theorem State.fireHost_chain (s : State) : (s.fireHost).chain = s.chain := by unfold State.fireHost; split <;> rfl
@[simp] theorem State.fireHost_flash (s : State) : (s.fireHost).flash = s.flash := by unfold State.fireHost; split <;> rfl
@[simp] theorem State.fireHost_otp (s : State) : (s.fireHost).otp = s.otp := by unfold State.fireHost; split <;> rfl
@[simp] theorem State.fireHost_ident (s : State) : (s.fireHost).ident = s.ident := by unfold State.fireHost; split <;> rfl
@[simp] theorem State.fireHost_brew (s : State) : (s.fireHost).brew = s.brew := by unfold State.fireHost; split <;> rfl
@[simp] theorem State.fireHost_hk (s : State) : (s.fireHost).hk = s.hk := by unfold State.fireHost; split <;> rfl
@[simp] theorem State.fireHost_dram (s : State) : (s.fireHost).dram = s.dram := by unfold State.fireHost; split <;> rfl
@[simp] theorem State.fireHost_cask (s : State) : (s.fireHost).cask = s.cask := by unfold State.fireHost; split <;> rfl
@[simp] theorem State.fireHost_caps (s : State) : (s.fireHost).caps = s.caps := by unfold State.fireHost; split <;> rfl
@[simp] theorem State.fireHost_mem (s : State) : (s.fireHost).mem = s.mem := by unfold State.fireHost; split <;> rfl

/-! ### State.afterRise -/
@[simp] theorem State.afterRise_pending (s : State) (x : State) : (s.afterRise x).pending = s.pending := by unfold State.afterRise; split <;> simp
@[simp] theorem State.afterRise_free (s : State) (x : State) : (s.afterRise x).free = s.free := by unfold State.afterRise; split <;> simp
@[simp] theorem State.afterRise_power (s : State) (x : State) : (s.afterRise x).power = s.power := by unfold State.afterRise; split <;> simp
@[simp] theorem State.afterRise_aon (s : State) (x : State) : (s.afterRise x).aon = s.aon := by unfold State.afterRise; split <;> simp
@[simp] theorem State.afterRise_bwf (s : State) (x : State) : (s.afterRise x).bwf = s.bwf := by unfold State.afterRise; split <;> simp
@[simp] theorem State.afterRise_stats (s : State) (x : State) : (s.afterRise x).stats = s.stats := by unfold State.afterRise; split <;> simp
@[simp] theorem State.afterRise_regs (s : State) (x : State) : (s.afterRise x).regs = s.regs := by unfold State.afterRise; split <;> simp
@[simp] theorem State.afterRise_cfgOfs (s : State) (x : State) : (s.afterRise x).cfgOfs = s.cfgOfs := by unfold State.afterRise; split <;> simp
@[simp] theorem State.afterRise_od (s : State) (x : State) : (s.afterRise x).od = s.od := by unfold State.afterRise; split <;> simp
@[simp] theorem State.afterRise_host (s : State) (x : State) : (s.afterRise x).host = s.host := by unfold State.afterRise; split <;> simp
@[simp] theorem State.afterRise_mbox (s : State) (x : State) : (s.afterRise x).mbox = s.mbox := by unfold State.afterRise; split <;> simp
@[simp] theorem State.afterRise_tide (s : State) (x : State) : (s.afterRise x).tide = s.tide := by unfold State.afterRise; split <;> simp
@[simp] theorem State.afterRise_pa (s : State) (x : State) : (s.afterRise x).pa = s.pa := by unfold State.afterRise; split <;> simp
@[simp] theorem State.afterRise_pb (s : State) (x : State) : (s.afterRise x).pb = s.pb := by unfold State.afterRise; split <;> simp
@[simp] theorem State.afterRise_time (s : State) (x : State) : (s.afterRise x).time = s.time := by unfold State.afterRise; split <;> simp
@[simp] theorem State.afterRise_chain (s : State) (x : State) : (s.afterRise x).chain = s.chain := by unfold State.afterRise; split <;> simp
@[simp] theorem State.afterRise_flash (s : State) (x : State) : (s.afterRise x).flash = s.flash := by unfold State.afterRise; split <;> simp
@[simp] theorem State.afterRise_otp (s : State) (x : State) : (s.afterRise x).otp = s.otp := by unfold State.afterRise; split <;> simp
@[simp] theorem State.afterRise_ident (s : State) (x : State) : (s.afterRise x).ident = s.ident := by unfold State.afterRise; split <;> simp
@[simp] theorem State.afterRise_brew (s : State) (x : State) : (s.afterRise x).brew = s.brew := by unfold State.afterRise; split <;> simp
@[simp] theorem State.afterRise_hk (s : State) (x : State) : (s.afterRise x).hk = s.hk := by unfold State.afterRise; split <;> simp
@[simp] theorem State.afterRise_dram (s : State) (x : State) : (s.afterRise x).dram = s.dram := by unfold State.afterRise; split <;> simp
@[simp] theorem State.afterRise_cask (s : State) (x : State) : (s.afterRise x).cask = s.cask := by unfold State.afterRise; split <;> simp
@[simp] theorem State.afterRise_caps (s : State) (x : State) : (s.afterRise x).caps = s.caps := by unfold State.afterRise; split <;> simp
@[simp] theorem State.afterRise_mem (s : State) (x : State) : (s.afterRise x).mem = s.mem := by unfold State.afterRise; split <;> simp

/-! ### State.raise -/
@[simp] theorem State.raise_pending (s : State) (k : Nat) (bs : List Nat) : (s.raise k bs).pending = s.pending := by simp [State.raise]
@[simp] theorem State.raise_free (s : State) (k : Nat) (bs : List Nat) : (s.raise k bs).free = s.free := by simp [State.raise]
@[simp] theorem State.raise_power (s : State) (k : Nat) (bs : List Nat) : (s.raise k bs).power = s.power := by simp [State.raise]
@[simp] theorem State.raise_aon (s : State) (k : Nat) (bs : List Nat) : (s.raise k bs).aon = s.aon := by simp [State.raise]
@[simp] theorem State.raise_bwf (s : State) (k : Nat) (bs : List Nat) : (s.raise k bs).bwf = s.bwf := by simp [State.raise]
@[simp] theorem State.raise_regs (s : State) (k : Nat) (bs : List Nat) : (s.raise k bs).regs = s.regs := by simp [State.raise]
@[simp] theorem State.raise_cfgOfs (s : State) (k : Nat) (bs : List Nat) : (s.raise k bs).cfgOfs = s.cfgOfs := by simp [State.raise]
@[simp] theorem State.raise_od (s : State) (k : Nat) (bs : List Nat) : (s.raise k bs).od = s.od := by simp [State.raise]
@[simp] theorem State.raise_host (s : State) (k : Nat) (bs : List Nat) : (s.raise k bs).host = s.host := by simp [State.raise]
@[simp] theorem State.raise_mbox (s : State) (k : Nat) (bs : List Nat) : (s.raise k bs).mbox = s.mbox := by simp [State.raise]
@[simp] theorem State.raise_tide (s : State) (k : Nat) (bs : List Nat) : (s.raise k bs).tide = s.tide := by simp [State.raise]
@[simp] theorem State.raise_pa (s : State) (k : Nat) (bs : List Nat) : (s.raise k bs).pa = s.pa := by simp [State.raise]
@[simp] theorem State.raise_pb (s : State) (k : Nat) (bs : List Nat) : (s.raise k bs).pb = s.pb := by simp [State.raise]
@[simp] theorem State.raise_time (s : State) (k : Nat) (bs : List Nat) : (s.raise k bs).time = s.time := by simp [State.raise]
@[simp] theorem State.raise_chain (s : State) (k : Nat) (bs : List Nat) : (s.raise k bs).chain = s.chain := by simp [State.raise]
@[simp] theorem State.raise_flash (s : State) (k : Nat) (bs : List Nat) : (s.raise k bs).flash = s.flash := by simp [State.raise]
@[simp] theorem State.raise_otp (s : State) (k : Nat) (bs : List Nat) : (s.raise k bs).otp = s.otp := by simp [State.raise]
@[simp] theorem State.raise_ident (s : State) (k : Nat) (bs : List Nat) : (s.raise k bs).ident = s.ident := by simp [State.raise]
@[simp] theorem State.raise_brew (s : State) (k : Nat) (bs : List Nat) : (s.raise k bs).brew = s.brew := by simp [State.raise]
@[simp] theorem State.raise_hk (s : State) (k : Nat) (bs : List Nat) : (s.raise k bs).hk = s.hk := by simp [State.raise]
@[simp] theorem State.raise_dram (s : State) (k : Nat) (bs : List Nat) : (s.raise k bs).dram = s.dram := by simp [State.raise]
@[simp] theorem State.raise_cask (s : State) (k : Nat) (bs : List Nat) : (s.raise k bs).cask = s.cask := by simp [State.raise]
@[simp] theorem State.raise_caps (s : State) (k : Nat) (bs : List Nat) : (s.raise k bs).caps = s.caps := by simp [State.raise]
@[simp] theorem State.raise_mem (s : State) (k : Nat) (bs : List Nat) : (s.raise k bs).mem = s.mem := by simp [State.raise]

/-! ### State.raiseIf -/
@[simp] theorem State.raiseIf_pending (s : State) (c : Bool) (k b : Nat) : (s.raiseIf c k b).pending = s.pending := by unfold State.raiseIf; split <;> simp
@[simp] theorem State.raiseIf_free (s : State) (c : Bool) (k b : Nat) : (s.raiseIf c k b).free = s.free := by unfold State.raiseIf; split <;> simp
@[simp] theorem State.raiseIf_power (s : State) (c : Bool) (k b : Nat) : (s.raiseIf c k b).power = s.power := by unfold State.raiseIf; split <;> simp
@[simp] theorem State.raiseIf_aon (s : State) (c : Bool) (k b : Nat) : (s.raiseIf c k b).aon = s.aon := by unfold State.raiseIf; split <;> simp
@[simp] theorem State.raiseIf_bwf (s : State) (c : Bool) (k b : Nat) : (s.raiseIf c k b).bwf = s.bwf := by unfold State.raiseIf; split <;> simp
@[simp] theorem State.raiseIf_regs (s : State) (c : Bool) (k b : Nat) : (s.raiseIf c k b).regs = s.regs := by unfold State.raiseIf; split <;> simp
@[simp] theorem State.raiseIf_cfgOfs (s : State) (c : Bool) (k b : Nat) : (s.raiseIf c k b).cfgOfs = s.cfgOfs := by unfold State.raiseIf; split <;> simp
@[simp] theorem State.raiseIf_od (s : State) (c : Bool) (k b : Nat) : (s.raiseIf c k b).od = s.od := by unfold State.raiseIf; split <;> simp
@[simp] theorem State.raiseIf_host (s : State) (c : Bool) (k b : Nat) : (s.raiseIf c k b).host = s.host := by unfold State.raiseIf; split <;> simp
@[simp] theorem State.raiseIf_mbox (s : State) (c : Bool) (k b : Nat) : (s.raiseIf c k b).mbox = s.mbox := by unfold State.raiseIf; split <;> simp
@[simp] theorem State.raiseIf_tide (s : State) (c : Bool) (k b : Nat) : (s.raiseIf c k b).tide = s.tide := by unfold State.raiseIf; split <;> simp
@[simp] theorem State.raiseIf_pa (s : State) (c : Bool) (k b : Nat) : (s.raiseIf c k b).pa = s.pa := by unfold State.raiseIf; split <;> simp
@[simp] theorem State.raiseIf_pb (s : State) (c : Bool) (k b : Nat) : (s.raiseIf c k b).pb = s.pb := by unfold State.raiseIf; split <;> simp
@[simp] theorem State.raiseIf_time (s : State) (c : Bool) (k b : Nat) : (s.raiseIf c k b).time = s.time := by unfold State.raiseIf; split <;> simp
@[simp] theorem State.raiseIf_chain (s : State) (c : Bool) (k b : Nat) : (s.raiseIf c k b).chain = s.chain := by unfold State.raiseIf; split <;> simp
@[simp] theorem State.raiseIf_flash (s : State) (c : Bool) (k b : Nat) : (s.raiseIf c k b).flash = s.flash := by unfold State.raiseIf; split <;> simp
@[simp] theorem State.raiseIf_otp (s : State) (c : Bool) (k b : Nat) : (s.raiseIf c k b).otp = s.otp := by unfold State.raiseIf; split <;> simp
@[simp] theorem State.raiseIf_ident (s : State) (c : Bool) (k b : Nat) : (s.raiseIf c k b).ident = s.ident := by unfold State.raiseIf; split <;> simp
@[simp] theorem State.raiseIf_brew (s : State) (c : Bool) (k b : Nat) : (s.raiseIf c k b).brew = s.brew := by unfold State.raiseIf; split <;> simp
@[simp] theorem State.raiseIf_hk (s : State) (c : Bool) (k b : Nat) : (s.raiseIf c k b).hk = s.hk := by unfold State.raiseIf; split <;> simp
@[simp] theorem State.raiseIf_dram (s : State) (c : Bool) (k b : Nat) : (s.raiseIf c k b).dram = s.dram := by unfold State.raiseIf; split <;> simp
@[simp] theorem State.raiseIf_cask (s : State) (c : Bool) (k b : Nat) : (s.raiseIf c k b).cask = s.cask := by unfold State.raiseIf; split <;> simp
@[simp] theorem State.raiseIf_caps (s : State) (c : Bool) (k b : Nat) : (s.raiseIf c k b).caps = s.caps := by unfold State.raiseIf; split <;> simp
@[simp] theorem State.raiseIf_mem (s : State) (c : Bool) (k b : Nat) : (s.raiseIf c k b).mem = s.mem := by unfold State.raiseIf; split <;> simp

/-! ### State.writeStat -/
@[simp] theorem State.writeStat_pending (s : State) (k v : Nat) : (s.writeStat k v).pending = s.pending := by unfold State.writeStat; dsimp only; split <;> simp
@[simp] theorem State.writeStat_free (s : State) (k v : Nat) : (s.writeStat k v).free = s.free := by unfold State.writeStat; dsimp only; split <;> simp
@[simp] theorem State.writeStat_power (s : State) (k v : Nat) : (s.writeStat k v).power = s.power := by unfold State.writeStat; dsimp only; split <;> simp
@[simp] theorem State.writeStat_aon (s : State) (k v : Nat) : (s.writeStat k v).aon = s.aon := by unfold State.writeStat; dsimp only; split <;> simp
@[simp] theorem State.writeStat_bwf (s : State) (k v : Nat) : (s.writeStat k v).bwf = s.bwf := by unfold State.writeStat; dsimp only; split <;> simp
@[simp] theorem State.writeStat_regs (s : State) (k v : Nat) : (s.writeStat k v).regs = s.regs := by unfold State.writeStat; dsimp only; split <;> simp
@[simp] theorem State.writeStat_cfgOfs (s : State) (k v : Nat) : (s.writeStat k v).cfgOfs = s.cfgOfs := by unfold State.writeStat; dsimp only; split <;> simp
@[simp] theorem State.writeStat_od (s : State) (k v : Nat) : (s.writeStat k v).od = s.od := by unfold State.writeStat; dsimp only; split <;> simp
@[simp] theorem State.writeStat_host (s : State) (k v : Nat) : (s.writeStat k v).host = s.host := by unfold State.writeStat; dsimp only; split <;> simp
@[simp] theorem State.writeStat_mbox (s : State) (k v : Nat) : (s.writeStat k v).mbox = s.mbox := by unfold State.writeStat; dsimp only; split <;> simp
@[simp] theorem State.writeStat_tide (s : State) (k v : Nat) : (s.writeStat k v).tide = s.tide := by unfold State.writeStat; dsimp only; split <;> simp
@[simp] theorem State.writeStat_pa (s : State) (k v : Nat) : (s.writeStat k v).pa = s.pa := by unfold State.writeStat; dsimp only; split <;> simp
@[simp] theorem State.writeStat_pb (s : State) (k v : Nat) : (s.writeStat k v).pb = s.pb := by unfold State.writeStat; dsimp only; split <;> simp
@[simp] theorem State.writeStat_time (s : State) (k v : Nat) : (s.writeStat k v).time = s.time := by unfold State.writeStat; dsimp only; split <;> simp
@[simp] theorem State.writeStat_chain (s : State) (k v : Nat) : (s.writeStat k v).chain = s.chain := by unfold State.writeStat; dsimp only; split <;> simp
@[simp] theorem State.writeStat_flash (s : State) (k v : Nat) : (s.writeStat k v).flash = s.flash := by unfold State.writeStat; dsimp only; split <;> simp
@[simp] theorem State.writeStat_otp (s : State) (k v : Nat) : (s.writeStat k v).otp = s.otp := by unfold State.writeStat; dsimp only; split <;> simp
@[simp] theorem State.writeStat_ident (s : State) (k v : Nat) : (s.writeStat k v).ident = s.ident := by unfold State.writeStat; dsimp only; split <;> simp
@[simp] theorem State.writeStat_brew (s : State) (k v : Nat) : (s.writeStat k v).brew = s.brew := by unfold State.writeStat; dsimp only; split <;> simp
@[simp] theorem State.writeStat_hk (s : State) (k v : Nat) : (s.writeStat k v).hk = s.hk := by unfold State.writeStat; dsimp only; split <;> simp
@[simp] theorem State.writeStat_dram (s : State) (k v : Nat) : (s.writeStat k v).dram = s.dram := by unfold State.writeStat; dsimp only; split <;> simp
@[simp] theorem State.writeStat_cask (s : State) (k v : Nat) : (s.writeStat k v).cask = s.cask := by unfold State.writeStat; dsimp only; split <;> simp
@[simp] theorem State.writeStat_caps (s : State) (k v : Nat) : (s.writeStat k v).caps = s.caps := by unfold State.writeStat; dsimp only; split <;> simp
@[simp] theorem State.writeStat_mem (s : State) (k v : Nat) : (s.writeStat k v).mem = s.mem := by unfold State.writeStat; dsimp only; split <;> simp

/-! ### State.cfgErr -/
@[simp] theorem State.cfgErr_pending (s : State) (k b o : Nat) : (s.cfgErr k b o).pending = s.pending := by unfold State.cfgErr; dsimp only; split <;> simp
@[simp] theorem State.cfgErr_free (s : State) (k b o : Nat) : (s.cfgErr k b o).free = s.free := by unfold State.cfgErr; dsimp only; split <;> simp
@[simp] theorem State.cfgErr_power (s : State) (k b o : Nat) : (s.cfgErr k b o).power = s.power := by unfold State.cfgErr; dsimp only; split <;> simp
@[simp] theorem State.cfgErr_aon (s : State) (k b o : Nat) : (s.cfgErr k b o).aon = s.aon := by unfold State.cfgErr; dsimp only; split <;> simp
@[simp] theorem State.cfgErr_bwf (s : State) (k b o : Nat) : (s.cfgErr k b o).bwf = s.bwf := by unfold State.cfgErr; dsimp only; split <;> simp
@[simp] theorem State.cfgErr_regs (s : State) (k b o : Nat) : (s.cfgErr k b o).regs = s.regs := by unfold State.cfgErr; dsimp only; split <;> simp
@[simp] theorem State.cfgErr_od (s : State) (k b o : Nat) : (s.cfgErr k b o).od = s.od := by unfold State.cfgErr; dsimp only; split <;> simp
@[simp] theorem State.cfgErr_host (s : State) (k b o : Nat) : (s.cfgErr k b o).host = s.host := by unfold State.cfgErr; dsimp only; split <;> simp
@[simp] theorem State.cfgErr_mbox (s : State) (k b o : Nat) : (s.cfgErr k b o).mbox = s.mbox := by unfold State.cfgErr; dsimp only; split <;> simp
@[simp] theorem State.cfgErr_tide (s : State) (k b o : Nat) : (s.cfgErr k b o).tide = s.tide := by unfold State.cfgErr; dsimp only; split <;> simp
@[simp] theorem State.cfgErr_pa (s : State) (k b o : Nat) : (s.cfgErr k b o).pa = s.pa := by unfold State.cfgErr; dsimp only; split <;> simp
@[simp] theorem State.cfgErr_pb (s : State) (k b o : Nat) : (s.cfgErr k b o).pb = s.pb := by unfold State.cfgErr; dsimp only; split <;> simp
@[simp] theorem State.cfgErr_time (s : State) (k b o : Nat) : (s.cfgErr k b o).time = s.time := by unfold State.cfgErr; dsimp only; split <;> simp
@[simp] theorem State.cfgErr_chain (s : State) (k b o : Nat) : (s.cfgErr k b o).chain = s.chain := by unfold State.cfgErr; dsimp only; split <;> simp
@[simp] theorem State.cfgErr_flash (s : State) (k b o : Nat) : (s.cfgErr k b o).flash = s.flash := by unfold State.cfgErr; dsimp only; split <;> simp
@[simp] theorem State.cfgErr_otp (s : State) (k b o : Nat) : (s.cfgErr k b o).otp = s.otp := by unfold State.cfgErr; dsimp only; split <;> simp
@[simp] theorem State.cfgErr_ident (s : State) (k b o : Nat) : (s.cfgErr k b o).ident = s.ident := by unfold State.cfgErr; dsimp only; split <;> simp
@[simp] theorem State.cfgErr_brew (s : State) (k b o : Nat) : (s.cfgErr k b o).brew = s.brew := by unfold State.cfgErr; dsimp only; split <;> simp
@[simp] theorem State.cfgErr_hk (s : State) (k b o : Nat) : (s.cfgErr k b o).hk = s.hk := by unfold State.cfgErr; dsimp only; split <;> simp
@[simp] theorem State.cfgErr_dram (s : State) (k b o : Nat) : (s.cfgErr k b o).dram = s.dram := by unfold State.cfgErr; dsimp only; split <;> simp
@[simp] theorem State.cfgErr_cask (s : State) (k b o : Nat) : (s.cfgErr k b o).cask = s.cask := by unfold State.cfgErr; dsimp only; split <;> simp
@[simp] theorem State.cfgErr_caps (s : State) (k b o : Nat) : (s.cfgErr k b o).caps = s.caps := by unfold State.cfgErr; dsimp only; split <;> simp
@[simp] theorem State.cfgErr_mem (s : State) (k b o : Nat) : (s.cfgErr k b o).mem = s.mem := by unfold State.cfgErr; dsimp only; split <;> simp

/-! ### State.busError -/
@[simp] theorem State.busError_pending (s : State) (i a : Nat) (w : Bool) : (s.busError i a w).pending = s.pending := by simp [State.busError]
@[simp] theorem State.busError_free (s : State) (i a : Nat) (w : Bool) : (s.busError i a w).free = s.free := by simp [State.busError]
@[simp] theorem State.busError_power (s : State) (i a : Nat) (w : Bool) : (s.busError i a w).power = s.power := by simp [State.busError]
@[simp] theorem State.busError_aon (s : State) (i a : Nat) (w : Bool) : (s.busError i a w).aon = s.aon := by simp [State.busError]
@[simp] theorem State.busError_bwf (s : State) (i a : Nat) (w : Bool) : (s.busError i a w).bwf = s.bwf := by simp [State.busError]
@[simp] theorem State.busError_regs (s : State) (i a : Nat) (w : Bool) : (s.busError i a w).regs = s.regs := by simp [State.busError]
@[simp] theorem State.busError_cfgOfs (s : State) (i a : Nat) (w : Bool) : (s.busError i a w).cfgOfs = s.cfgOfs := by simp [State.busError]
@[simp] theorem State.busError_od (s : State) (i a : Nat) (w : Bool) : (s.busError i a w).od = s.od := by simp [State.busError]
@[simp] theorem State.busError_mbox (s : State) (i a : Nat) (w : Bool) : (s.busError i a w).mbox = s.mbox := by simp [State.busError]
@[simp] theorem State.busError_tide (s : State) (i a : Nat) (w : Bool) : (s.busError i a w).tide = s.tide := by simp [State.busError]
@[simp] theorem State.busError_pa (s : State) (i a : Nat) (w : Bool) : (s.busError i a w).pa = s.pa := by simp [State.busError]
@[simp] theorem State.busError_pb (s : State) (i a : Nat) (w : Bool) : (s.busError i a w).pb = s.pb := by simp [State.busError]
@[simp] theorem State.busError_time (s : State) (i a : Nat) (w : Bool) : (s.busError i a w).time = s.time := by simp [State.busError]
@[simp] theorem State.busError_chain (s : State) (i a : Nat) (w : Bool) : (s.busError i a w).chain = s.chain := by simp [State.busError]
@[simp] theorem State.busError_flash (s : State) (i a : Nat) (w : Bool) : (s.busError i a w).flash = s.flash := by simp [State.busError]
@[simp] theorem State.busError_otp (s : State) (i a : Nat) (w : Bool) : (s.busError i a w).otp = s.otp := by simp [State.busError]
@[simp] theorem State.busError_ident (s : State) (i a : Nat) (w : Bool) : (s.busError i a w).ident = s.ident := by simp [State.busError]
@[simp] theorem State.busError_brew (s : State) (i a : Nat) (w : Bool) : (s.busError i a w).brew = s.brew := by simp [State.busError]
@[simp] theorem State.busError_hk (s : State) (i a : Nat) (w : Bool) : (s.busError i a w).hk = s.hk := by simp [State.busError]
@[simp] theorem State.busError_dram (s : State) (i a : Nat) (w : Bool) : (s.busError i a w).dram = s.dram := by simp [State.busError]
@[simp] theorem State.busError_cask (s : State) (i a : Nat) (w : Bool) : (s.busError i a w).cask = s.cask := by simp [State.busError]
@[simp] theorem State.busError_caps (s : State) (i a : Nat) (w : Bool) : (s.busError i a w).caps = s.caps := by simp [State.busError]
@[simp] theorem State.busError_mem (s : State) (i a : Nat) (w : Bool) : (s.busError i a w).mem = s.mem := by simp [State.busError]

/-! ### State.containedKey -/
@[simp] theorem State.containedKey_pending (s : State) (k : Nat) : (s.containedKey k).pending = s.pending := by unfold State.containedKey; dsimp only; split <;> (try split) <;> simp
@[simp] theorem State.containedKey_free (s : State) (k : Nat) : (s.containedKey k).free = s.free := by unfold State.containedKey; dsimp only; split <;> (try split) <;> simp
@[simp] theorem State.containedKey_power (s : State) (k : Nat) : (s.containedKey k).power = s.power := by unfold State.containedKey; dsimp only; split <;> (try split) <;> simp
@[simp] theorem State.containedKey_aon (s : State) (k : Nat) : (s.containedKey k).aon = s.aon := by unfold State.containedKey; dsimp only; split <;> (try split) <;> simp
@[simp] theorem State.containedKey_regs (s : State) (k : Nat) : (s.containedKey k).regs = s.regs := by unfold State.containedKey; dsimp only; split <;> (try split) <;> simp
@[simp] theorem State.containedKey_cfgOfs (s : State) (k : Nat) : (s.containedKey k).cfgOfs = s.cfgOfs := by unfold State.containedKey; dsimp only; split <;> (try split) <;> simp
@[simp] theorem State.containedKey_od (s : State) (k : Nat) : (s.containedKey k).od = s.od := by unfold State.containedKey; dsimp only; split <;> (try split) <;> simp
@[simp] theorem State.containedKey_host (s : State) (k : Nat) : (s.containedKey k).host = s.host := by unfold State.containedKey; dsimp only; split <;> (try split) <;> simp
@[simp] theorem State.containedKey_mbox (s : State) (k : Nat) : (s.containedKey k).mbox = s.mbox := by unfold State.containedKey; dsimp only; split <;> (try split) <;> simp
@[simp] theorem State.containedKey_tide (s : State) (k : Nat) : (s.containedKey k).tide = s.tide := by unfold State.containedKey; dsimp only; split <;> (try split) <;> simp
@[simp] theorem State.containedKey_pa (s : State) (k : Nat) : (s.containedKey k).pa = s.pa := by unfold State.containedKey; dsimp only; split <;> (try split) <;> simp
@[simp] theorem State.containedKey_pb (s : State) (k : Nat) : (s.containedKey k).pb = s.pb := by unfold State.containedKey; dsimp only; split <;> (try split) <;> simp
@[simp] theorem State.containedKey_time (s : State) (k : Nat) : (s.containedKey k).time = s.time := by unfold State.containedKey; dsimp only; split <;> (try split) <;> simp
@[simp] theorem State.containedKey_chain (s : State) (k : Nat) : (s.containedKey k).chain = s.chain := by unfold State.containedKey; dsimp only; split <;> (try split) <;> simp
@[simp] theorem State.containedKey_flash (s : State) (k : Nat) : (s.containedKey k).flash = s.flash := by unfold State.containedKey; dsimp only; split <;> (try split) <;> simp
@[simp] theorem State.containedKey_otp (s : State) (k : Nat) : (s.containedKey k).otp = s.otp := by unfold State.containedKey; dsimp only; split <;> (try split) <;> simp
@[simp] theorem State.containedKey_ident (s : State) (k : Nat) : (s.containedKey k).ident = s.ident := by unfold State.containedKey; dsimp only; split <;> (try split) <;> simp
@[simp] theorem State.containedKey_brew (s : State) (k : Nat) : (s.containedKey k).brew = s.brew := by unfold State.containedKey; dsimp only; split <;> (try split) <;> simp
@[simp] theorem State.containedKey_hk (s : State) (k : Nat) : (s.containedKey k).hk = s.hk := by unfold State.containedKey; dsimp only; split <;> (try split) <;> simp
@[simp] theorem State.containedKey_dram (s : State) (k : Nat) : (s.containedKey k).dram = s.dram := by unfold State.containedKey; dsimp only; split <;> (try split) <;> simp
@[simp] theorem State.containedKey_cask (s : State) (k : Nat) : (s.containedKey k).cask = s.cask := by unfold State.containedKey; dsimp only; split <;> (try split) <;> simp
@[simp] theorem State.containedKey_caps (s : State) (k : Nat) : (s.containedKey k).caps = s.caps := by unfold State.containedKey; dsimp only; split <;> (try split) <;> simp
@[simp] theorem State.containedKey_mem (s : State) (k : Nat) : (s.containedKey k).mem = s.mem := by unfold State.containedKey; dsimp only; split <;> (try split) <;> simp

/-! ### State.contained -/
@[simp] theorem State.contained_pending (s : State) (u i n : Nat) : (s.contained u i n).pending = s.pending := by simp [State.contained]
@[simp] theorem State.contained_free (s : State) (u i n : Nat) : (s.contained u i n).free = s.free := by simp [State.contained]
@[simp] theorem State.contained_power (s : State) (u i n : Nat) : (s.contained u i n).power = s.power := by simp [State.contained]
@[simp] theorem State.contained_aon (s : State) (u i n : Nat) : (s.contained u i n).aon = s.aon := by simp [State.contained]
@[simp] theorem State.contained_regs (s : State) (u i n : Nat) : (s.contained u i n).regs = s.regs := by simp [State.contained]
@[simp] theorem State.contained_cfgOfs (s : State) (u i n : Nat) : (s.contained u i n).cfgOfs = s.cfgOfs := by simp [State.contained]
@[simp] theorem State.contained_od (s : State) (u i n : Nat) : (s.contained u i n).od = s.od := by simp [State.contained]
@[simp] theorem State.contained_host (s : State) (u i n : Nat) : (s.contained u i n).host = s.host := by simp [State.contained]
@[simp] theorem State.contained_mbox (s : State) (u i n : Nat) : (s.contained u i n).mbox = s.mbox := by simp [State.contained]
@[simp] theorem State.contained_tide (s : State) (u i n : Nat) : (s.contained u i n).tide = s.tide := by simp [State.contained]
@[simp] theorem State.contained_pa (s : State) (u i n : Nat) : (s.contained u i n).pa = s.pa := by simp [State.contained]
@[simp] theorem State.contained_pb (s : State) (u i n : Nat) : (s.contained u i n).pb = s.pb := by simp [State.contained]
@[simp] theorem State.contained_time (s : State) (u i n : Nat) : (s.contained u i n).time = s.time := by simp [State.contained]
@[simp] theorem State.contained_chain (s : State) (u i n : Nat) : (s.contained u i n).chain = s.chain := by simp [State.contained]
@[simp] theorem State.contained_flash (s : State) (u i n : Nat) : (s.contained u i n).flash = s.flash := by simp [State.contained]
@[simp] theorem State.contained_otp (s : State) (u i n : Nat) : (s.contained u i n).otp = s.otp := by simp [State.contained]
@[simp] theorem State.contained_ident (s : State) (u i n : Nat) : (s.contained u i n).ident = s.ident := by simp [State.contained]
@[simp] theorem State.contained_brew (s : State) (u i n : Nat) : (s.contained u i n).brew = s.brew := by simp [State.contained]
@[simp] theorem State.contained_hk (s : State) (u i n : Nat) : (s.contained u i n).hk = s.hk := by simp [State.contained]
@[simp] theorem State.contained_dram (s : State) (u i n : Nat) : (s.contained u i n).dram = s.dram := by simp [State.contained]
@[simp] theorem State.contained_cask (s : State) (u i n : Nat) : (s.contained u i n).cask = s.cask := by simp [State.contained]
@[simp] theorem State.contained_caps (s : State) (u i n : Nat) : (s.contained u i n).caps = s.caps := by simp [State.contained]
@[simp] theorem State.contained_mem (s : State) (u i n : Nat) : (s.contained u i n).mem = s.mem := by simp [State.contained]

/-! ### State.containedFw -/
@[simp] theorem State.containedFw_pending (s : State) (u i n : Nat) : (s.containedFw u i n).pending = s.pending := by simp [State.containedFw]
@[simp] theorem State.containedFw_free (s : State) (u i n : Nat) : (s.containedFw u i n).free = s.free := by simp [State.containedFw]
@[simp] theorem State.containedFw_power (s : State) (u i n : Nat) : (s.containedFw u i n).power = s.power := by simp [State.containedFw]
@[simp] theorem State.containedFw_aon (s : State) (u i n : Nat) : (s.containedFw u i n).aon = s.aon := by simp [State.containedFw]
@[simp] theorem State.containedFw_regs (s : State) (u i n : Nat) : (s.containedFw u i n).regs = s.regs := by simp [State.containedFw]
@[simp] theorem State.containedFw_cfgOfs (s : State) (u i n : Nat) : (s.containedFw u i n).cfgOfs = s.cfgOfs := by simp [State.containedFw]
@[simp] theorem State.containedFw_od (s : State) (u i n : Nat) : (s.containedFw u i n).od = s.od := by simp [State.containedFw]
@[simp] theorem State.containedFw_host (s : State) (u i n : Nat) : (s.containedFw u i n).host = s.host := by simp [State.containedFw]
@[simp] theorem State.containedFw_mbox (s : State) (u i n : Nat) : (s.containedFw u i n).mbox = s.mbox := by simp [State.containedFw]
@[simp] theorem State.containedFw_tide (s : State) (u i n : Nat) : (s.containedFw u i n).tide = s.tide := by simp [State.containedFw]
@[simp] theorem State.containedFw_pa (s : State) (u i n : Nat) : (s.containedFw u i n).pa = s.pa := by simp [State.containedFw]
@[simp] theorem State.containedFw_pb (s : State) (u i n : Nat) : (s.containedFw u i n).pb = s.pb := by simp [State.containedFw]
@[simp] theorem State.containedFw_time (s : State) (u i n : Nat) : (s.containedFw u i n).time = s.time := by simp [State.containedFw]
@[simp] theorem State.containedFw_chain (s : State) (u i n : Nat) : (s.containedFw u i n).chain = s.chain := by simp [State.containedFw]
@[simp] theorem State.containedFw_flash (s : State) (u i n : Nat) : (s.containedFw u i n).flash = s.flash := by simp [State.containedFw]
@[simp] theorem State.containedFw_otp (s : State) (u i n : Nat) : (s.containedFw u i n).otp = s.otp := by simp [State.containedFw]
@[simp] theorem State.containedFw_brew (s : State) (u i n : Nat) : (s.containedFw u i n).brew = s.brew := by simp [State.containedFw]
@[simp] theorem State.containedFw_hk (s : State) (u i n : Nat) : (s.containedFw u i n).hk = s.hk := by simp [State.containedFw]
@[simp] theorem State.containedFw_dram (s : State) (u i n : Nat) : (s.containedFw u i n).dram = s.dram := by simp [State.containedFw]
@[simp] theorem State.containedFw_cask (s : State) (u i n : Nat) : (s.containedFw u i n).cask = s.cask := by simp [State.containedFw]
@[simp] theorem State.containedFw_caps (s : State) (u i n : Nat) : (s.containedFw u i n).caps = s.caps := by simp [State.containedFw]
@[simp] theorem State.containedFw_mem (s : State) (u i n : Nat) : (s.containedFw u i n).mem = s.mem := by simp [State.containedFw]

/-! ### State.corrected -/
@[simp] theorem State.corrected_pending (s : State) : (s.corrected).pending = s.pending := by simp [State.corrected]
@[simp] theorem State.corrected_free (s : State) : (s.corrected).free = s.free := by simp [State.corrected]
@[simp] theorem State.corrected_power (s : State) : (s.corrected).power = s.power := by simp [State.corrected]
@[simp] theorem State.corrected_aon (s : State) : (s.corrected).aon = s.aon := by simp [State.corrected]
@[simp] theorem State.corrected_regs (s : State) : (s.corrected).regs = s.regs := by simp [State.corrected]
@[simp] theorem State.corrected_cfgOfs (s : State) : (s.corrected).cfgOfs = s.cfgOfs := by simp [State.corrected]
@[simp] theorem State.corrected_od (s : State) : (s.corrected).od = s.od := by simp [State.corrected]
@[simp] theorem State.corrected_host (s : State) : (s.corrected).host = s.host := by simp [State.corrected]
@[simp] theorem State.corrected_mbox (s : State) : (s.corrected).mbox = s.mbox := by simp [State.corrected]
@[simp] theorem State.corrected_tide (s : State) : (s.corrected).tide = s.tide := by simp [State.corrected]
@[simp] theorem State.corrected_pa (s : State) : (s.corrected).pa = s.pa := by simp [State.corrected]
@[simp] theorem State.corrected_pb (s : State) : (s.corrected).pb = s.pb := by simp [State.corrected]
@[simp] theorem State.corrected_time (s : State) : (s.corrected).time = s.time := by simp [State.corrected]
@[simp] theorem State.corrected_chain (s : State) : (s.corrected).chain = s.chain := by simp [State.corrected]
@[simp] theorem State.corrected_flash (s : State) : (s.corrected).flash = s.flash := by simp [State.corrected]
@[simp] theorem State.corrected_otp (s : State) : (s.corrected).otp = s.otp := by simp [State.corrected]
@[simp] theorem State.corrected_ident (s : State) : (s.corrected).ident = s.ident := by simp [State.corrected]
@[simp] theorem State.corrected_brew (s : State) : (s.corrected).brew = s.brew := by simp [State.corrected]
@[simp] theorem State.corrected_hk (s : State) : (s.corrected).hk = s.hk := by simp [State.corrected]
@[simp] theorem State.corrected_dram (s : State) : (s.corrected).dram = s.dram := by simp [State.corrected]
@[simp] theorem State.corrected_cask (s : State) : (s.corrected).cask = s.cask := by simp [State.corrected]
@[simp] theorem State.corrected_caps (s : State) : (s.corrected).caps = s.caps := by simp [State.corrected]
@[simp] theorem State.corrected_mem (s : State) : (s.corrected).mem = s.mem := by simp [State.corrected]

/-! ### State.storeWrite -/
@[simp] theorem State.storeWrite_pending (s : State) (k : Nat) (v : List Byte) : (s.storeWrite k v).pending = s.pending := (rfl)
@[simp] theorem State.storeWrite_free (s : State) (k : Nat) (v : List Byte) : (s.storeWrite k v).free = s.free := (rfl)
@[simp] theorem State.storeWrite_out (s : State) (k : Nat) (v : List Byte) : (s.storeWrite k v).out = s.out := (rfl)
@[simp] theorem State.storeWrite_power (s : State) (k : Nat) (v : List Byte) : (s.storeWrite k v).power = s.power := (rfl)
@[simp] theorem State.storeWrite_aon (s : State) (k : Nat) (v : List Byte) : (s.storeWrite k v).aon = s.aon := (rfl)
@[simp] theorem State.storeWrite_bwf (s : State) (k : Nat) (v : List Byte) : (s.storeWrite k v).bwf = s.bwf := (rfl)
@[simp] theorem State.storeWrite_stats (s : State) (k : Nat) (v : List Byte) : (s.storeWrite k v).stats = s.stats := (rfl)
@[simp] theorem State.storeWrite_regs (s : State) (k : Nat) (v : List Byte) : (s.storeWrite k v).regs = s.regs := (rfl)
@[simp] theorem State.storeWrite_cfgOfs (s : State) (k : Nat) (v : List Byte) : (s.storeWrite k v).cfgOfs = s.cfgOfs := (rfl)
@[simp] theorem State.storeWrite_host (s : State) (k : Nat) (v : List Byte) : (s.storeWrite k v).host = s.host := (rfl)
@[simp] theorem State.storeWrite_mbox (s : State) (k : Nat) (v : List Byte) : (s.storeWrite k v).mbox = s.mbox := (rfl)
@[simp] theorem State.storeWrite_tide (s : State) (k : Nat) (v : List Byte) : (s.storeWrite k v).tide = s.tide := (rfl)
@[simp] theorem State.storeWrite_pa (s : State) (k : Nat) (v : List Byte) : (s.storeWrite k v).pa = s.pa := (rfl)
@[simp] theorem State.storeWrite_pb (s : State) (k : Nat) (v : List Byte) : (s.storeWrite k v).pb = s.pb := (rfl)
@[simp] theorem State.storeWrite_time (s : State) (k : Nat) (v : List Byte) : (s.storeWrite k v).time = s.time := (rfl)
@[simp] theorem State.storeWrite_chain (s : State) (k : Nat) (v : List Byte) : (s.storeWrite k v).chain = s.chain := (rfl)
@[simp] theorem State.storeWrite_flash (s : State) (k : Nat) (v : List Byte) : (s.storeWrite k v).flash = s.flash := (rfl)
@[simp] theorem State.storeWrite_otp (s : State) (k : Nat) (v : List Byte) : (s.storeWrite k v).otp = s.otp := (rfl)
@[simp] theorem State.storeWrite_ident (s : State) (k : Nat) (v : List Byte) : (s.storeWrite k v).ident = s.ident := (rfl)
@[simp] theorem State.storeWrite_brew (s : State) (k : Nat) (v : List Byte) : (s.storeWrite k v).brew = s.brew := (rfl)
@[simp] theorem State.storeWrite_hk (s : State) (k : Nat) (v : List Byte) : (s.storeWrite k v).hk = s.hk := (rfl)
@[simp] theorem State.storeWrite_dram (s : State) (k : Nat) (v : List Byte) : (s.storeWrite k v).dram = s.dram := (rfl)
@[simp] theorem State.storeWrite_cask (s : State) (k : Nat) (v : List Byte) : (s.storeWrite k v).cask = s.cask := (rfl)
@[simp] theorem State.storeWrite_caps (s : State) (k : Nat) (v : List Byte) : (s.storeWrite k v).caps = s.caps := (rfl)
@[simp] theorem State.storeWrite_mem (s : State) (k : Nat) (v : List Byte) : (s.storeWrite k v).mem = s.mem := (rfl)

/-! ### State.commitStore -/
@[simp] theorem State.commitStore_pending (s : State) (ok : Bool) : (s.commitStore ok).pending = s.pending := by cases ok <;> simp [State.commitStore]
@[simp] theorem State.commitStore_free (s : State) (ok : Bool) : (s.commitStore ok).free = s.free := by cases ok <;> simp [State.commitStore]
@[simp] theorem State.commitStore_power (s : State) (ok : Bool) : (s.commitStore ok).power = s.power := by cases ok <;> simp [State.commitStore]
@[simp] theorem State.commitStore_aon (s : State) (ok : Bool) : (s.commitStore ok).aon = s.aon := by cases ok <;> simp [State.commitStore]
@[simp] theorem State.commitStore_regs (s : State) (ok : Bool) : (s.commitStore ok).regs = s.regs := by cases ok <;> simp [State.commitStore]
@[simp] theorem State.commitStore_cfgOfs (s : State) (ok : Bool) : (s.commitStore ok).cfgOfs = s.cfgOfs := by cases ok <;> simp [State.commitStore]
@[simp] theorem State.commitStore_host (s : State) (ok : Bool) : (s.commitStore ok).host = s.host := by cases ok <;> simp [State.commitStore]
@[simp] theorem State.commitStore_mbox (s : State) (ok : Bool) : (s.commitStore ok).mbox = s.mbox := by cases ok <;> simp [State.commitStore]
@[simp] theorem State.commitStore_tide (s : State) (ok : Bool) : (s.commitStore ok).tide = s.tide := by cases ok <;> simp [State.commitStore]
@[simp] theorem State.commitStore_pa (s : State) (ok : Bool) : (s.commitStore ok).pa = s.pa := by cases ok <;> simp [State.commitStore]
@[simp] theorem State.commitStore_pb (s : State) (ok : Bool) : (s.commitStore ok).pb = s.pb := by cases ok <;> simp [State.commitStore]
@[simp] theorem State.commitStore_time (s : State) (ok : Bool) : (s.commitStore ok).time = s.time := by cases ok <;> simp [State.commitStore]
@[simp] theorem State.commitStore_chain (s : State) (ok : Bool) : (s.commitStore ok).chain = s.chain := by cases ok <;> simp [State.commitStore]
@[simp] theorem State.commitStore_otp (s : State) (ok : Bool) : (s.commitStore ok).otp = s.otp := by cases ok <;> simp [State.commitStore]
@[simp] theorem State.commitStore_brew (s : State) (ok : Bool) : (s.commitStore ok).brew = s.brew := by cases ok <;> simp [State.commitStore]
@[simp] theorem State.commitStore_hk (s : State) (ok : Bool) : (s.commitStore ok).hk = s.hk := by cases ok <;> simp [State.commitStore]
@[simp] theorem State.commitStore_dram (s : State) (ok : Bool) : (s.commitStore ok).dram = s.dram := by cases ok <;> simp [State.commitStore]
@[simp] theorem State.commitStore_cask (s : State) (ok : Bool) : (s.commitStore ok).cask = s.cask := by cases ok <;> simp [State.commitStore]
@[simp] theorem State.commitStore_caps (s : State) (ok : Bool) : (s.commitStore ok).caps = s.caps := by cases ok <;> simp [State.commitStore]
@[simp] theorem State.commitStore_mem (s : State) (ok : Bool) : (s.commitStore ok).mem = s.mem := by cases ok <;> simp [State.commitStore]

/-! ### State.modTime -/
@[simp] theorem State.modTime_pending (s : State) (f : TimeBase → TimeBase) : (s.modTime f).pending = s.pending := (rfl)
@[simp] theorem State.modTime_free (s : State) (f : TimeBase → TimeBase) : (s.modTime f).free = s.free := (rfl)
@[simp] theorem State.modTime_out (s : State) (f : TimeBase → TimeBase) : (s.modTime f).out = s.out := (rfl)
@[simp] theorem State.modTime_power (s : State) (f : TimeBase → TimeBase) : (s.modTime f).power = s.power := (rfl)
@[simp] theorem State.modTime_aon (s : State) (f : TimeBase → TimeBase) : (s.modTime f).aon = s.aon := (rfl)
@[simp] theorem State.modTime_bwf (s : State) (f : TimeBase → TimeBase) : (s.modTime f).bwf = s.bwf := (rfl)
@[simp] theorem State.modTime_stats (s : State) (f : TimeBase → TimeBase) : (s.modTime f).stats = s.stats := (rfl)
@[simp] theorem State.modTime_regs (s : State) (f : TimeBase → TimeBase) : (s.modTime f).regs = s.regs := (rfl)
@[simp] theorem State.modTime_cfgOfs (s : State) (f : TimeBase → TimeBase) : (s.modTime f).cfgOfs = s.cfgOfs := (rfl)
@[simp] theorem State.modTime_od (s : State) (f : TimeBase → TimeBase) : (s.modTime f).od = s.od := (rfl)
@[simp] theorem State.modTime_host (s : State) (f : TimeBase → TimeBase) : (s.modTime f).host = s.host := (rfl)
@[simp] theorem State.modTime_mbox (s : State) (f : TimeBase → TimeBase) : (s.modTime f).mbox = s.mbox := (rfl)
@[simp] theorem State.modTime_tide (s : State) (f : TimeBase → TimeBase) : (s.modTime f).tide = s.tide := (rfl)
@[simp] theorem State.modTime_pa (s : State) (f : TimeBase → TimeBase) : (s.modTime f).pa = s.pa := (rfl)
@[simp] theorem State.modTime_pb (s : State) (f : TimeBase → TimeBase) : (s.modTime f).pb = s.pb := (rfl)
@[simp] theorem State.modTime_chain (s : State) (f : TimeBase → TimeBase) : (s.modTime f).chain = s.chain := (rfl)
@[simp] theorem State.modTime_flash (s : State) (f : TimeBase → TimeBase) : (s.modTime f).flash = s.flash := (rfl)
@[simp] theorem State.modTime_otp (s : State) (f : TimeBase → TimeBase) : (s.modTime f).otp = s.otp := (rfl)
@[simp] theorem State.modTime_ident (s : State) (f : TimeBase → TimeBase) : (s.modTime f).ident = s.ident := (rfl)
@[simp] theorem State.modTime_brew (s : State) (f : TimeBase → TimeBase) : (s.modTime f).brew = s.brew := (rfl)
@[simp] theorem State.modTime_hk (s : State) (f : TimeBase → TimeBase) : (s.modTime f).hk = s.hk := (rfl)
@[simp] theorem State.modTime_dram (s : State) (f : TimeBase → TimeBase) : (s.modTime f).dram = s.dram := (rfl)
@[simp] theorem State.modTime_cask (s : State) (f : TimeBase → TimeBase) : (s.modTime f).cask = s.cask := (rfl)
@[simp] theorem State.modTime_caps (s : State) (f : TimeBase → TimeBase) : (s.modTime f).caps = s.caps := (rfl)
@[simp] theorem State.modTime_mem (s : State) (f : TimeBase → TimeBase) : (s.modTime f).mem = s.mem := (rfl)

/-! ### State.modChain -/
@[simp] theorem State.modChain_pending (s : State) (f : Chain → Chain) : (s.modChain f).pending = s.pending := (rfl)
@[simp] theorem State.modChain_free (s : State) (f : Chain → Chain) : (s.modChain f).free = s.free := (rfl)
@[simp] theorem State.modChain_out (s : State) (f : Chain → Chain) : (s.modChain f).out = s.out := (rfl)
@[simp] theorem State.modChain_power (s : State) (f : Chain → Chain) : (s.modChain f).power = s.power := (rfl)
@[simp] theorem State.modChain_aon (s : State) (f : Chain → Chain) : (s.modChain f).aon = s.aon := (rfl)
@[simp] theorem State.modChain_bwf (s : State) (f : Chain → Chain) : (s.modChain f).bwf = s.bwf := (rfl)
@[simp] theorem State.modChain_stats (s : State) (f : Chain → Chain) : (s.modChain f).stats = s.stats := (rfl)
@[simp] theorem State.modChain_regs (s : State) (f : Chain → Chain) : (s.modChain f).regs = s.regs := (rfl)
@[simp] theorem State.modChain_cfgOfs (s : State) (f : Chain → Chain) : (s.modChain f).cfgOfs = s.cfgOfs := (rfl)
@[simp] theorem State.modChain_od (s : State) (f : Chain → Chain) : (s.modChain f).od = s.od := (rfl)
@[simp] theorem State.modChain_host (s : State) (f : Chain → Chain) : (s.modChain f).host = s.host := (rfl)
@[simp] theorem State.modChain_mbox (s : State) (f : Chain → Chain) : (s.modChain f).mbox = s.mbox := (rfl)
@[simp] theorem State.modChain_tide (s : State) (f : Chain → Chain) : (s.modChain f).tide = s.tide := (rfl)
@[simp] theorem State.modChain_pa (s : State) (f : Chain → Chain) : (s.modChain f).pa = s.pa := (rfl)
@[simp] theorem State.modChain_pb (s : State) (f : Chain → Chain) : (s.modChain f).pb = s.pb := (rfl)
@[simp] theorem State.modChain_time (s : State) (f : Chain → Chain) : (s.modChain f).time = s.time := (rfl)
@[simp] theorem State.modChain_flash (s : State) (f : Chain → Chain) : (s.modChain f).flash = s.flash := (rfl)
@[simp] theorem State.modChain_otp (s : State) (f : Chain → Chain) : (s.modChain f).otp = s.otp := (rfl)
@[simp] theorem State.modChain_ident (s : State) (f : Chain → Chain) : (s.modChain f).ident = s.ident := (rfl)
@[simp] theorem State.modChain_brew (s : State) (f : Chain → Chain) : (s.modChain f).brew = s.brew := (rfl)
@[simp] theorem State.modChain_hk (s : State) (f : Chain → Chain) : (s.modChain f).hk = s.hk := (rfl)
@[simp] theorem State.modChain_dram (s : State) (f : Chain → Chain) : (s.modChain f).dram = s.dram := (rfl)
@[simp] theorem State.modChain_cask (s : State) (f : Chain → Chain) : (s.modChain f).cask = s.cask := (rfl)
@[simp] theorem State.modChain_caps (s : State) (f : Chain → Chain) : (s.modChain f).caps = s.caps := (rfl)
@[simp] theorem State.modChain_mem (s : State) (f : Chain → Chain) : (s.modChain f).mem = s.mem := (rfl)

/-! ### State.modLink -/
@[simp] theorem State.modLink_pending (s : State) (d : Side) (f : Link → Link) : (s.modLink d f).pending = s.pending := (rfl)
@[simp] theorem State.modLink_free (s : State) (d : Side) (f : Link → Link) : (s.modLink d f).free = s.free := (rfl)
@[simp] theorem State.modLink_out (s : State) (d : Side) (f : Link → Link) : (s.modLink d f).out = s.out := (rfl)
@[simp] theorem State.modLink_power (s : State) (d : Side) (f : Link → Link) : (s.modLink d f).power = s.power := (rfl)
@[simp] theorem State.modLink_aon (s : State) (d : Side) (f : Link → Link) : (s.modLink d f).aon = s.aon := (rfl)
@[simp] theorem State.modLink_bwf (s : State) (d : Side) (f : Link → Link) : (s.modLink d f).bwf = s.bwf := (rfl)
@[simp] theorem State.modLink_stats (s : State) (d : Side) (f : Link → Link) : (s.modLink d f).stats = s.stats := (rfl)
@[simp] theorem State.modLink_regs (s : State) (d : Side) (f : Link → Link) : (s.modLink d f).regs = s.regs := (rfl)
@[simp] theorem State.modLink_cfgOfs (s : State) (d : Side) (f : Link → Link) : (s.modLink d f).cfgOfs = s.cfgOfs := (rfl)
@[simp] theorem State.modLink_od (s : State) (d : Side) (f : Link → Link) : (s.modLink d f).od = s.od := (rfl)
@[simp] theorem State.modLink_host (s : State) (d : Side) (f : Link → Link) : (s.modLink d f).host = s.host := (rfl)
@[simp] theorem State.modLink_mbox (s : State) (d : Side) (f : Link → Link) : (s.modLink d f).mbox = s.mbox := (rfl)
@[simp] theorem State.modLink_tide (s : State) (d : Side) (f : Link → Link) : (s.modLink d f).tide = s.tide := (rfl)
@[simp] theorem State.modLink_pa (s : State) (d : Side) (f : Link → Link) : (s.modLink d f).pa = s.pa := (rfl)
@[simp] theorem State.modLink_pb (s : State) (d : Side) (f : Link → Link) : (s.modLink d f).pb = s.pb := (rfl)
@[simp] theorem State.modLink_time (s : State) (d : Side) (f : Link → Link) : (s.modLink d f).time = s.time := (rfl)
@[simp] theorem State.modLink_flash (s : State) (d : Side) (f : Link → Link) : (s.modLink d f).flash = s.flash := (rfl)
@[simp] theorem State.modLink_otp (s : State) (d : Side) (f : Link → Link) : (s.modLink d f).otp = s.otp := (rfl)
@[simp] theorem State.modLink_ident (s : State) (d : Side) (f : Link → Link) : (s.modLink d f).ident = s.ident := (rfl)
@[simp] theorem State.modLink_brew (s : State) (d : Side) (f : Link → Link) : (s.modLink d f).brew = s.brew := (rfl)
@[simp] theorem State.modLink_hk (s : State) (d : Side) (f : Link → Link) : (s.modLink d f).hk = s.hk := (rfl)
@[simp] theorem State.modLink_dram (s : State) (d : Side) (f : Link → Link) : (s.modLink d f).dram = s.dram := (rfl)
@[simp] theorem State.modLink_cask (s : State) (d : Side) (f : Link → Link) : (s.modLink d f).cask = s.cask := (rfl)
@[simp] theorem State.modLink_caps (s : State) (d : Side) (f : Link → Link) : (s.modLink d f).caps = s.caps := (rfl)
@[simp] theorem State.modLink_mem (s : State) (d : Side) (f : Link → Link) : (s.modLink d f).mem = s.mem := (rfl)

/-! ### State.modOd -/
@[simp] theorem State.modOd_pending (s : State) (f : Od → Od) : (s.modOd f).pending = s.pending := (rfl)
@[simp] theorem State.modOd_free (s : State) (f : Od → Od) : (s.modOd f).free = s.free := (rfl)
@[simp] theorem State.modOd_out (s : State) (f : Od → Od) : (s.modOd f).out = s.out := (rfl)
@[simp] theorem State.modOd_power (s : State) (f : Od → Od) : (s.modOd f).power = s.power := (rfl)
@[simp] theorem State.modOd_aon (s : State) (f : Od → Od) : (s.modOd f).aon = s.aon := (rfl)
@[simp] theorem State.modOd_bwf (s : State) (f : Od → Od) : (s.modOd f).bwf = s.bwf := (rfl)
@[simp] theorem State.modOd_stats (s : State) (f : Od → Od) : (s.modOd f).stats = s.stats := (rfl)
@[simp] theorem State.modOd_regs (s : State) (f : Od → Od) : (s.modOd f).regs = s.regs := (rfl)
@[simp] theorem State.modOd_cfgOfs (s : State) (f : Od → Od) : (s.modOd f).cfgOfs = s.cfgOfs := (rfl)
@[simp] theorem State.modOd_host (s : State) (f : Od → Od) : (s.modOd f).host = s.host := (rfl)
@[simp] theorem State.modOd_mbox (s : State) (f : Od → Od) : (s.modOd f).mbox = s.mbox := (rfl)
@[simp] theorem State.modOd_tide (s : State) (f : Od → Od) : (s.modOd f).tide = s.tide := (rfl)
@[simp] theorem State.modOd_pa (s : State) (f : Od → Od) : (s.modOd f).pa = s.pa := (rfl)
@[simp] theorem State.modOd_pb (s : State) (f : Od → Od) : (s.modOd f).pb = s.pb := (rfl)
@[simp] theorem State.modOd_time (s : State) (f : Od → Od) : (s.modOd f).time = s.time := (rfl)
@[simp] theorem State.modOd_chain (s : State) (f : Od → Od) : (s.modOd f).chain = s.chain := (rfl)
@[simp] theorem State.modOd_flash (s : State) (f : Od → Od) : (s.modOd f).flash = s.flash := (rfl)
@[simp] theorem State.modOd_otp (s : State) (f : Od → Od) : (s.modOd f).otp = s.otp := (rfl)
@[simp] theorem State.modOd_ident (s : State) (f : Od → Od) : (s.modOd f).ident = s.ident := (rfl)
@[simp] theorem State.modOd_brew (s : State) (f : Od → Od) : (s.modOd f).brew = s.brew := (rfl)
@[simp] theorem State.modOd_hk (s : State) (f : Od → Od) : (s.modOd f).hk = s.hk := (rfl)
@[simp] theorem State.modOd_dram (s : State) (f : Od → Od) : (s.modOd f).dram = s.dram := (rfl)
@[simp] theorem State.modOd_cask (s : State) (f : Od → Od) : (s.modOd f).cask = s.cask := (rfl)
@[simp] theorem State.modOd_caps (s : State) (f : Od → Od) : (s.modOd f).caps = s.caps := (rfl)
@[simp] theorem State.modOd_mem (s : State) (f : Od → Od) : (s.modOd f).mem = s.mem := (rfl)

/-! ### State.modIdent -/
@[simp] theorem State.modIdent_pending (s : State) (f : Ident → Ident) : (s.modIdent f).pending = s.pending := (rfl)
@[simp] theorem State.modIdent_free (s : State) (f : Ident → Ident) : (s.modIdent f).free = s.free := (rfl)
@[simp] theorem State.modIdent_out (s : State) (f : Ident → Ident) : (s.modIdent f).out = s.out := (rfl)
@[simp] theorem State.modIdent_power (s : State) (f : Ident → Ident) : (s.modIdent f).power = s.power := (rfl)
@[simp] theorem State.modIdent_aon (s : State) (f : Ident → Ident) : (s.modIdent f).aon = s.aon := (rfl)
@[simp] theorem State.modIdent_bwf (s : State) (f : Ident → Ident) : (s.modIdent f).bwf = s.bwf := (rfl)
@[simp] theorem State.modIdent_stats (s : State) (f : Ident → Ident) : (s.modIdent f).stats = s.stats := (rfl)
@[simp] theorem State.modIdent_regs (s : State) (f : Ident → Ident) : (s.modIdent f).regs = s.regs := (rfl)
@[simp] theorem State.modIdent_cfgOfs (s : State) (f : Ident → Ident) : (s.modIdent f).cfgOfs = s.cfgOfs := (rfl)
@[simp] theorem State.modIdent_od (s : State) (f : Ident → Ident) : (s.modIdent f).od = s.od := (rfl)
@[simp] theorem State.modIdent_host (s : State) (f : Ident → Ident) : (s.modIdent f).host = s.host := (rfl)
@[simp] theorem State.modIdent_mbox (s : State) (f : Ident → Ident) : (s.modIdent f).mbox = s.mbox := (rfl)
@[simp] theorem State.modIdent_tide (s : State) (f : Ident → Ident) : (s.modIdent f).tide = s.tide := (rfl)
@[simp] theorem State.modIdent_pa (s : State) (f : Ident → Ident) : (s.modIdent f).pa = s.pa := (rfl)
@[simp] theorem State.modIdent_pb (s : State) (f : Ident → Ident) : (s.modIdent f).pb = s.pb := (rfl)
@[simp] theorem State.modIdent_time (s : State) (f : Ident → Ident) : (s.modIdent f).time = s.time := (rfl)
@[simp] theorem State.modIdent_chain (s : State) (f : Ident → Ident) : (s.modIdent f).chain = s.chain := (rfl)
@[simp] theorem State.modIdent_flash (s : State) (f : Ident → Ident) : (s.modIdent f).flash = s.flash := (rfl)
@[simp] theorem State.modIdent_otp (s : State) (f : Ident → Ident) : (s.modIdent f).otp = s.otp := (rfl)
@[simp] theorem State.modIdent_brew (s : State) (f : Ident → Ident) : (s.modIdent f).brew = s.brew := (rfl)
@[simp] theorem State.modIdent_hk (s : State) (f : Ident → Ident) : (s.modIdent f).hk = s.hk := (rfl)
@[simp] theorem State.modIdent_dram (s : State) (f : Ident → Ident) : (s.modIdent f).dram = s.dram := (rfl)
@[simp] theorem State.modIdent_cask (s : State) (f : Ident → Ident) : (s.modIdent f).cask = s.cask := (rfl)
@[simp] theorem State.modIdent_caps (s : State) (f : Ident → Ident) : (s.modIdent f).caps = s.caps := (rfl)
@[simp] theorem State.modIdent_mem (s : State) (f : Ident → Ident) : (s.modIdent f).mem = s.mem := (rfl)

/-! ### State.modFlash -/
@[simp] theorem State.modFlash_pending (s : State) (f : Flash → Flash) : (s.modFlash f).pending = s.pending := (rfl)
@[simp] theorem State.modFlash_free (s : State) (f : Flash → Flash) : (s.modFlash f).free = s.free := (rfl)
@[simp] theorem State.modFlash_out (s : State) (f : Flash → Flash) : (s.modFlash f).out = s.out := (rfl)
@[simp] theorem State.modFlash_power (s : State) (f : Flash → Flash) : (s.modFlash f).power = s.power := (rfl)
@[simp] theorem State.modFlash_aon (s : State) (f : Flash → Flash) : (s.modFlash f).aon = s.aon := (rfl)
@[simp] theorem State.modFlash_bwf (s : State) (f : Flash → Flash) : (s.modFlash f).bwf = s.bwf := (rfl)
@[simp] theorem State.modFlash_stats (s : State) (f : Flash → Flash) : (s.modFlash f).stats = s.stats := (rfl)
@[simp] theorem State.modFlash_regs (s : State) (f : Flash → Flash) : (s.modFlash f).regs = s.regs := (rfl)
@[simp] theorem State.modFlash_cfgOfs (s : State) (f : Flash → Flash) : (s.modFlash f).cfgOfs = s.cfgOfs := (rfl)
@[simp] theorem State.modFlash_od (s : State) (f : Flash → Flash) : (s.modFlash f).od = s.od := (rfl)
@[simp] theorem State.modFlash_host (s : State) (f : Flash → Flash) : (s.modFlash f).host = s.host := (rfl)
@[simp] theorem State.modFlash_mbox (s : State) (f : Flash → Flash) : (s.modFlash f).mbox = s.mbox := (rfl)
@[simp] theorem State.modFlash_tide (s : State) (f : Flash → Flash) : (s.modFlash f).tide = s.tide := (rfl)
@[simp] theorem State.modFlash_pa (s : State) (f : Flash → Flash) : (s.modFlash f).pa = s.pa := (rfl)
@[simp] theorem State.modFlash_pb (s : State) (f : Flash → Flash) : (s.modFlash f).pb = s.pb := (rfl)
@[simp] theorem State.modFlash_time (s : State) (f : Flash → Flash) : (s.modFlash f).time = s.time := (rfl)
@[simp] theorem State.modFlash_chain (s : State) (f : Flash → Flash) : (s.modFlash f).chain = s.chain := (rfl)
@[simp] theorem State.modFlash_otp (s : State) (f : Flash → Flash) : (s.modFlash f).otp = s.otp := (rfl)
@[simp] theorem State.modFlash_ident (s : State) (f : Flash → Flash) : (s.modFlash f).ident = s.ident := (rfl)
@[simp] theorem State.modFlash_brew (s : State) (f : Flash → Flash) : (s.modFlash f).brew = s.brew := (rfl)
@[simp] theorem State.modFlash_hk (s : State) (f : Flash → Flash) : (s.modFlash f).hk = s.hk := (rfl)
@[simp] theorem State.modFlash_dram (s : State) (f : Flash → Flash) : (s.modFlash f).dram = s.dram := (rfl)
@[simp] theorem State.modFlash_cask (s : State) (f : Flash → Flash) : (s.modFlash f).cask = s.cask := (rfl)
@[simp] theorem State.modFlash_caps (s : State) (f : Flash → Flash) : (s.modFlash f).caps = s.caps := (rfl)
@[simp] theorem State.modFlash_mem (s : State) (f : Flash → Flash) : (s.modFlash f).mem = s.mem := (rfl)

/-! ### State.modHk -/
@[simp] theorem State.modHk_pending (s : State) (f : Hk → Hk) : (s.modHk f).pending = s.pending := (rfl)
@[simp] theorem State.modHk_free (s : State) (f : Hk → Hk) : (s.modHk f).free = s.free := (rfl)
@[simp] theorem State.modHk_out (s : State) (f : Hk → Hk) : (s.modHk f).out = s.out := (rfl)
@[simp] theorem State.modHk_power (s : State) (f : Hk → Hk) : (s.modHk f).power = s.power := (rfl)
@[simp] theorem State.modHk_aon (s : State) (f : Hk → Hk) : (s.modHk f).aon = s.aon := (rfl)
@[simp] theorem State.modHk_bwf (s : State) (f : Hk → Hk) : (s.modHk f).bwf = s.bwf := (rfl)
@[simp] theorem State.modHk_stats (s : State) (f : Hk → Hk) : (s.modHk f).stats = s.stats := (rfl)
@[simp] theorem State.modHk_regs (s : State) (f : Hk → Hk) : (s.modHk f).regs = s.regs := (rfl)
@[simp] theorem State.modHk_cfgOfs (s : State) (f : Hk → Hk) : (s.modHk f).cfgOfs = s.cfgOfs := (rfl)
@[simp] theorem State.modHk_od (s : State) (f : Hk → Hk) : (s.modHk f).od = s.od := (rfl)
@[simp] theorem State.modHk_host (s : State) (f : Hk → Hk) : (s.modHk f).host = s.host := (rfl)
@[simp] theorem State.modHk_mbox (s : State) (f : Hk → Hk) : (s.modHk f).mbox = s.mbox := (rfl)
@[simp] theorem State.modHk_tide (s : State) (f : Hk → Hk) : (s.modHk f).tide = s.tide := (rfl)
@[simp] theorem State.modHk_pa (s : State) (f : Hk → Hk) : (s.modHk f).pa = s.pa := (rfl)
@[simp] theorem State.modHk_pb (s : State) (f : Hk → Hk) : (s.modHk f).pb = s.pb := (rfl)
@[simp] theorem State.modHk_time (s : State) (f : Hk → Hk) : (s.modHk f).time = s.time := (rfl)
@[simp] theorem State.modHk_chain (s : State) (f : Hk → Hk) : (s.modHk f).chain = s.chain := (rfl)
@[simp] theorem State.modHk_flash (s : State) (f : Hk → Hk) : (s.modHk f).flash = s.flash := (rfl)
@[simp] theorem State.modHk_otp (s : State) (f : Hk → Hk) : (s.modHk f).otp = s.otp := (rfl)
@[simp] theorem State.modHk_ident (s : State) (f : Hk → Hk) : (s.modHk f).ident = s.ident := (rfl)
@[simp] theorem State.modHk_brew (s : State) (f : Hk → Hk) : (s.modHk f).brew = s.brew := (rfl)
@[simp] theorem State.modHk_dram (s : State) (f : Hk → Hk) : (s.modHk f).dram = s.dram := (rfl)
@[simp] theorem State.modHk_cask (s : State) (f : Hk → Hk) : (s.modHk f).cask = s.cask := (rfl)
@[simp] theorem State.modHk_caps (s : State) (f : Hk → Hk) : (s.modHk f).caps = s.caps := (rfl)
@[simp] theorem State.modHk_mem (s : State) (f : Hk → Hk) : (s.modHk f).mem = s.mem := (rfl)

/-! ### State.modBr -/
@[simp] theorem State.modBr_pending (s : State) (n : Nat) (f : Bridge → Bridge) : (s.modBr n f).pending = s.pending := (rfl)
@[simp] theorem State.modBr_free (s : State) (n : Nat) (f : Bridge → Bridge) : (s.modBr n f).free = s.free := (rfl)
@[simp] theorem State.modBr_out (s : State) (n : Nat) (f : Bridge → Bridge) : (s.modBr n f).out = s.out := (rfl)
@[simp] theorem State.modBr_power (s : State) (n : Nat) (f : Bridge → Bridge) : (s.modBr n f).power = s.power := (rfl)
@[simp] theorem State.modBr_aon (s : State) (n : Nat) (f : Bridge → Bridge) : (s.modBr n f).aon = s.aon := (rfl)
@[simp] theorem State.modBr_bwf (s : State) (n : Nat) (f : Bridge → Bridge) : (s.modBr n f).bwf = s.bwf := (rfl)
@[simp] theorem State.modBr_stats (s : State) (n : Nat) (f : Bridge → Bridge) : (s.modBr n f).stats = s.stats := (rfl)
@[simp] theorem State.modBr_regs (s : State) (n : Nat) (f : Bridge → Bridge) : (s.modBr n f).regs = s.regs := (rfl)
@[simp] theorem State.modBr_cfgOfs (s : State) (n : Nat) (f : Bridge → Bridge) : (s.modBr n f).cfgOfs = s.cfgOfs := (rfl)
@[simp] theorem State.modBr_od (s : State) (n : Nat) (f : Bridge → Bridge) : (s.modBr n f).od = s.od := (rfl)
@[simp] theorem State.modBr_host (s : State) (n : Nat) (f : Bridge → Bridge) : (s.modBr n f).host = s.host := (rfl)
@[simp] theorem State.modBr_mbox (s : State) (n : Nat) (f : Bridge → Bridge) : (s.modBr n f).mbox = s.mbox := (rfl)
@[simp] theorem State.modBr_tide (s : State) (n : Nat) (f : Bridge → Bridge) : (s.modBr n f).tide = s.tide := (rfl)
@[simp] theorem State.modBr_pa (s : State) (n : Nat) (f : Bridge → Bridge) : (s.modBr n f).pa = s.pa := (rfl)
@[simp] theorem State.modBr_pb (s : State) (n : Nat) (f : Bridge → Bridge) : (s.modBr n f).pb = s.pb := (rfl)
@[simp] theorem State.modBr_time (s : State) (n : Nat) (f : Bridge → Bridge) : (s.modBr n f).time = s.time := (rfl)
@[simp] theorem State.modBr_chain (s : State) (n : Nat) (f : Bridge → Bridge) : (s.modBr n f).chain = s.chain := (rfl)
@[simp] theorem State.modBr_flash (s : State) (n : Nat) (f : Bridge → Bridge) : (s.modBr n f).flash = s.flash := (rfl)
@[simp] theorem State.modBr_otp (s : State) (n : Nat) (f : Bridge → Bridge) : (s.modBr n f).otp = s.otp := (rfl)
@[simp] theorem State.modBr_ident (s : State) (n : Nat) (f : Bridge → Bridge) : (s.modBr n f).ident = s.ident := (rfl)
@[simp] theorem State.modBr_brew (s : State) (n : Nat) (f : Bridge → Bridge) : (s.modBr n f).brew = s.brew := (rfl)
@[simp] theorem State.modBr_dram (s : State) (n : Nat) (f : Bridge → Bridge) : (s.modBr n f).dram = s.dram := (rfl)
@[simp] theorem State.modBr_cask (s : State) (n : Nat) (f : Bridge → Bridge) : (s.modBr n f).cask = s.cask := (rfl)
@[simp] theorem State.modBr_caps (s : State) (n : Nat) (f : Bridge → Bridge) : (s.modBr n f).caps = s.caps := (rfl)
@[simp] theorem State.modBr_mem (s : State) (n : Nat) (f : Bridge → Bridge) : (s.modBr n f).mem = s.mem := (rfl)

/-! ### State.modDram -/
@[simp] theorem State.modDram_pending (s : State) (f : Dram → Dram) : (s.modDram f).pending = s.pending := (rfl)
@[simp] theorem State.modDram_free (s : State) (f : Dram → Dram) : (s.modDram f).free = s.free := (rfl)
@[simp] theorem State.modDram_out (s : State) (f : Dram → Dram) : (s.modDram f).out = s.out := (rfl)
@[simp] theorem State.modDram_power (s : State) (f : Dram → Dram) : (s.modDram f).power = s.power := (rfl)
@[simp] theorem State.modDram_aon (s : State) (f : Dram → Dram) : (s.modDram f).aon = s.aon := (rfl)
@[simp] theorem State.modDram_bwf (s : State) (f : Dram → Dram) : (s.modDram f).bwf = s.bwf := (rfl)
@[simp] theorem State.modDram_stats (s : State) (f : Dram → Dram) : (s.modDram f).stats = s.stats := (rfl)
@[simp] theorem State.modDram_regs (s : State) (f : Dram → Dram) : (s.modDram f).regs = s.regs := (rfl)
@[simp] theorem State.modDram_cfgOfs (s : State) (f : Dram → Dram) : (s.modDram f).cfgOfs = s.cfgOfs := (rfl)
@[simp] theorem State.modDram_od (s : State) (f : Dram → Dram) : (s.modDram f).od = s.od := (rfl)
@[simp] theorem State.modDram_host (s : State) (f : Dram → Dram) : (s.modDram f).host = s.host := (rfl)
@[simp] theorem State.modDram_mbox (s : State) (f : Dram → Dram) : (s.modDram f).mbox = s.mbox := (rfl)
@[simp] theorem State.modDram_tide (s : State) (f : Dram → Dram) : (s.modDram f).tide = s.tide := (rfl)
@[simp] theorem State.modDram_pa (s : State) (f : Dram → Dram) : (s.modDram f).pa = s.pa := (rfl)
@[simp] theorem State.modDram_pb (s : State) (f : Dram → Dram) : (s.modDram f).pb = s.pb := (rfl)
@[simp] theorem State.modDram_time (s : State) (f : Dram → Dram) : (s.modDram f).time = s.time := (rfl)
@[simp] theorem State.modDram_chain (s : State) (f : Dram → Dram) : (s.modDram f).chain = s.chain := (rfl)
@[simp] theorem State.modDram_flash (s : State) (f : Dram → Dram) : (s.modDram f).flash = s.flash := (rfl)
@[simp] theorem State.modDram_otp (s : State) (f : Dram → Dram) : (s.modDram f).otp = s.otp := (rfl)
@[simp] theorem State.modDram_ident (s : State) (f : Dram → Dram) : (s.modDram f).ident = s.ident := (rfl)
@[simp] theorem State.modDram_brew (s : State) (f : Dram → Dram) : (s.modDram f).brew = s.brew := (rfl)
@[simp] theorem State.modDram_hk (s : State) (f : Dram → Dram) : (s.modDram f).hk = s.hk := (rfl)
@[simp] theorem State.modDram_cask (s : State) (f : Dram → Dram) : (s.modDram f).cask = s.cask := (rfl)
@[simp] theorem State.modDram_caps (s : State) (f : Dram → Dram) : (s.modDram f).caps = s.caps := (rfl)
@[simp] theorem State.modDram_mem (s : State) (f : Dram → Dram) : (s.modDram f).mem = s.mem := (rfl)

/-! ### State.modEng -/
@[simp] theorem State.modEng_pending (s : State) (e : Nat) (f : CaskEng → CaskEng) : (s.modEng e f).pending = s.pending := (rfl)
@[simp] theorem State.modEng_free (s : State) (e : Nat) (f : CaskEng → CaskEng) : (s.modEng e f).free = s.free := (rfl)
@[simp] theorem State.modEng_out (s : State) (e : Nat) (f : CaskEng → CaskEng) : (s.modEng e f).out = s.out := (rfl)
@[simp] theorem State.modEng_power (s : State) (e : Nat) (f : CaskEng → CaskEng) : (s.modEng e f).power = s.power := (rfl)
@[simp] theorem State.modEng_aon (s : State) (e : Nat) (f : CaskEng → CaskEng) : (s.modEng e f).aon = s.aon := (rfl)
@[simp] theorem State.modEng_bwf (s : State) (e : Nat) (f : CaskEng → CaskEng) : (s.modEng e f).bwf = s.bwf := (rfl)
@[simp] theorem State.modEng_stats (s : State) (e : Nat) (f : CaskEng → CaskEng) : (s.modEng e f).stats = s.stats := (rfl)
@[simp] theorem State.modEng_regs (s : State) (e : Nat) (f : CaskEng → CaskEng) : (s.modEng e f).regs = s.regs := (rfl)
@[simp] theorem State.modEng_cfgOfs (s : State) (e : Nat) (f : CaskEng → CaskEng) : (s.modEng e f).cfgOfs = s.cfgOfs := (rfl)
@[simp] theorem State.modEng_od (s : State) (e : Nat) (f : CaskEng → CaskEng) : (s.modEng e f).od = s.od := (rfl)
@[simp] theorem State.modEng_host (s : State) (e : Nat) (f : CaskEng → CaskEng) : (s.modEng e f).host = s.host := (rfl)
@[simp] theorem State.modEng_mbox (s : State) (e : Nat) (f : CaskEng → CaskEng) : (s.modEng e f).mbox = s.mbox := (rfl)
@[simp] theorem State.modEng_tide (s : State) (e : Nat) (f : CaskEng → CaskEng) : (s.modEng e f).tide = s.tide := (rfl)
@[simp] theorem State.modEng_pa (s : State) (e : Nat) (f : CaskEng → CaskEng) : (s.modEng e f).pa = s.pa := (rfl)
@[simp] theorem State.modEng_pb (s : State) (e : Nat) (f : CaskEng → CaskEng) : (s.modEng e f).pb = s.pb := (rfl)
@[simp] theorem State.modEng_time (s : State) (e : Nat) (f : CaskEng → CaskEng) : (s.modEng e f).time = s.time := (rfl)
@[simp] theorem State.modEng_chain (s : State) (e : Nat) (f : CaskEng → CaskEng) : (s.modEng e f).chain = s.chain := (rfl)
@[simp] theorem State.modEng_flash (s : State) (e : Nat) (f : CaskEng → CaskEng) : (s.modEng e f).flash = s.flash := (rfl)
@[simp] theorem State.modEng_otp (s : State) (e : Nat) (f : CaskEng → CaskEng) : (s.modEng e f).otp = s.otp := (rfl)
@[simp] theorem State.modEng_ident (s : State) (e : Nat) (f : CaskEng → CaskEng) : (s.modEng e f).ident = s.ident := (rfl)
@[simp] theorem State.modEng_brew (s : State) (e : Nat) (f : CaskEng → CaskEng) : (s.modEng e f).brew = s.brew := (rfl)
@[simp] theorem State.modEng_hk (s : State) (e : Nat) (f : CaskEng → CaskEng) : (s.modEng e f).hk = s.hk := (rfl)
@[simp] theorem State.modEng_dram (s : State) (e : Nat) (f : CaskEng → CaskEng) : (s.modEng e f).dram = s.dram := (rfl)
@[simp] theorem State.modEng_caps (s : State) (e : Nat) (f : CaskEng → CaskEng) : (s.modEng e f).caps = s.caps := (rfl)
@[simp] theorem State.modEng_mem (s : State) (e : Nat) (f : CaskEng → CaskEng) : (s.modEng e f).mem = s.mem := (rfl)

/-! ### State.modCap -/
@[simp] theorem State.modCap_pending (s : State) (d : Nat) (f : Capture → Capture) : (s.modCap d f).pending = s.pending := (rfl)
@[simp] theorem State.modCap_free (s : State) (d : Nat) (f : Capture → Capture) : (s.modCap d f).free = s.free := (rfl)
@[simp] theorem State.modCap_out (s : State) (d : Nat) (f : Capture → Capture) : (s.modCap d f).out = s.out := (rfl)
@[simp] theorem State.modCap_power (s : State) (d : Nat) (f : Capture → Capture) : (s.modCap d f).power = s.power := (rfl)
@[simp] theorem State.modCap_aon (s : State) (d : Nat) (f : Capture → Capture) : (s.modCap d f).aon = s.aon := (rfl)
@[simp] theorem State.modCap_bwf (s : State) (d : Nat) (f : Capture → Capture) : (s.modCap d f).bwf = s.bwf := (rfl)
@[simp] theorem State.modCap_stats (s : State) (d : Nat) (f : Capture → Capture) : (s.modCap d f).stats = s.stats := (rfl)
@[simp] theorem State.modCap_regs (s : State) (d : Nat) (f : Capture → Capture) : (s.modCap d f).regs = s.regs := (rfl)
@[simp] theorem State.modCap_cfgOfs (s : State) (d : Nat) (f : Capture → Capture) : (s.modCap d f).cfgOfs = s.cfgOfs := (rfl)
@[simp] theorem State.modCap_od (s : State) (d : Nat) (f : Capture → Capture) : (s.modCap d f).od = s.od := (rfl)
@[simp] theorem State.modCap_host (s : State) (d : Nat) (f : Capture → Capture) : (s.modCap d f).host = s.host := (rfl)
@[simp] theorem State.modCap_mbox (s : State) (d : Nat) (f : Capture → Capture) : (s.modCap d f).mbox = s.mbox := (rfl)
@[simp] theorem State.modCap_tide (s : State) (d : Nat) (f : Capture → Capture) : (s.modCap d f).tide = s.tide := (rfl)
@[simp] theorem State.modCap_pa (s : State) (d : Nat) (f : Capture → Capture) : (s.modCap d f).pa = s.pa := (rfl)
@[simp] theorem State.modCap_pb (s : State) (d : Nat) (f : Capture → Capture) : (s.modCap d f).pb = s.pb := (rfl)
@[simp] theorem State.modCap_time (s : State) (d : Nat) (f : Capture → Capture) : (s.modCap d f).time = s.time := (rfl)
@[simp] theorem State.modCap_chain (s : State) (d : Nat) (f : Capture → Capture) : (s.modCap d f).chain = s.chain := (rfl)
@[simp] theorem State.modCap_flash (s : State) (d : Nat) (f : Capture → Capture) : (s.modCap d f).flash = s.flash := (rfl)
@[simp] theorem State.modCap_otp (s : State) (d : Nat) (f : Capture → Capture) : (s.modCap d f).otp = s.otp := (rfl)
@[simp] theorem State.modCap_ident (s : State) (d : Nat) (f : Capture → Capture) : (s.modCap d f).ident = s.ident := (rfl)
@[simp] theorem State.modCap_brew (s : State) (d : Nat) (f : Capture → Capture) : (s.modCap d f).brew = s.brew := (rfl)
@[simp] theorem State.modCap_hk (s : State) (d : Nat) (f : Capture → Capture) : (s.modCap d f).hk = s.hk := (rfl)
@[simp] theorem State.modCap_dram (s : State) (d : Nat) (f : Capture → Capture) : (s.modCap d f).dram = s.dram := (rfl)
@[simp] theorem State.modCap_cask (s : State) (d : Nat) (f : Capture → Capture) : (s.modCap d f).cask = s.cask := (rfl)
@[simp] theorem State.modCap_mem (s : State) (d : Nat) (f : Capture → Capture) : (s.modCap d f).mem = s.mem := (rfl)

/-! ### State.modProg -/
@[simp] theorem State.modProg_pending (s : State) (p : Nat) (f : Program → Program) : (s.modProg p f).pending = s.pending := (rfl)
@[simp] theorem State.modProg_free (s : State) (p : Nat) (f : Program → Program) : (s.modProg p f).free = s.free := (rfl)
@[simp] theorem State.modProg_out (s : State) (p : Nat) (f : Program → Program) : (s.modProg p f).out = s.out := (rfl)
@[simp] theorem State.modProg_power (s : State) (p : Nat) (f : Program → Program) : (s.modProg p f).power = s.power := (rfl)
@[simp] theorem State.modProg_aon (s : State) (p : Nat) (f : Program → Program) : (s.modProg p f).aon = s.aon := (rfl)
@[simp] theorem State.modProg_bwf (s : State) (p : Nat) (f : Program → Program) : (s.modProg p f).bwf = s.bwf := (rfl)
@[simp] theorem State.modProg_stats (s : State) (p : Nat) (f : Program → Program) : (s.modProg p f).stats = s.stats := (rfl)
@[simp] theorem State.modProg_regs (s : State) (p : Nat) (f : Program → Program) : (s.modProg p f).regs = s.regs := (rfl)
@[simp] theorem State.modProg_cfgOfs (s : State) (p : Nat) (f : Program → Program) : (s.modProg p f).cfgOfs = s.cfgOfs := (rfl)
@[simp] theorem State.modProg_od (s : State) (p : Nat) (f : Program → Program) : (s.modProg p f).od = s.od := (rfl)
@[simp] theorem State.modProg_host (s : State) (p : Nat) (f : Program → Program) : (s.modProg p f).host = s.host := (rfl)
@[simp] theorem State.modProg_mbox (s : State) (p : Nat) (f : Program → Program) : (s.modProg p f).mbox = s.mbox := (rfl)
@[simp] theorem State.modProg_tide (s : State) (p : Nat) (f : Program → Program) : (s.modProg p f).tide = s.tide := (rfl)
@[simp] theorem State.modProg_pa (s : State) (p : Nat) (f : Program → Program) : (s.modProg p f).pa = s.pa := (rfl)
@[simp] theorem State.modProg_pb (s : State) (p : Nat) (f : Program → Program) : (s.modProg p f).pb = s.pb := (rfl)
@[simp] theorem State.modProg_time (s : State) (p : Nat) (f : Program → Program) : (s.modProg p f).time = s.time := (rfl)
@[simp] theorem State.modProg_chain (s : State) (p : Nat) (f : Program → Program) : (s.modProg p f).chain = s.chain := (rfl)
@[simp] theorem State.modProg_flash (s : State) (p : Nat) (f : Program → Program) : (s.modProg p f).flash = s.flash := (rfl)
@[simp] theorem State.modProg_otp (s : State) (p : Nat) (f : Program → Program) : (s.modProg p f).otp = s.otp := (rfl)
@[simp] theorem State.modProg_ident (s : State) (p : Nat) (f : Program → Program) : (s.modProg p f).ident = s.ident := (rfl)
@[simp] theorem State.modProg_hk (s : State) (p : Nat) (f : Program → Program) : (s.modProg p f).hk = s.hk := (rfl)
@[simp] theorem State.modProg_dram (s : State) (p : Nat) (f : Program → Program) : (s.modProg p f).dram = s.dram := (rfl)
@[simp] theorem State.modProg_cask (s : State) (p : Nat) (f : Program → Program) : (s.modProg p f).cask = s.cask := (rfl)
@[simp] theorem State.modProg_caps (s : State) (p : Nat) (f : Program → Program) : (s.modProg p f).caps = s.caps := (rfl)
@[simp] theorem State.modProg_mem (s : State) (p : Nat) (f : Program → Program) : (s.modProg p f).mem = s.mem := (rfl)

/-! ### State.modCore -/
@[simp] theorem State.modCore_pending (s : State) (c : Nat) (f : Core → Core) : (s.modCore c f).pending = s.pending := (rfl)
@[simp] theorem State.modCore_free (s : State) (c : Nat) (f : Core → Core) : (s.modCore c f).free = s.free := (rfl)
@[simp] theorem State.modCore_out (s : State) (c : Nat) (f : Core → Core) : (s.modCore c f).out = s.out := (rfl)
@[simp] theorem State.modCore_power (s : State) (c : Nat) (f : Core → Core) : (s.modCore c f).power = s.power := (rfl)
@[simp] theorem State.modCore_aon (s : State) (c : Nat) (f : Core → Core) : (s.modCore c f).aon = s.aon := (rfl)
@[simp] theorem State.modCore_bwf (s : State) (c : Nat) (f : Core → Core) : (s.modCore c f).bwf = s.bwf := (rfl)
@[simp] theorem State.modCore_stats (s : State) (c : Nat) (f : Core → Core) : (s.modCore c f).stats = s.stats := (rfl)
@[simp] theorem State.modCore_regs (s : State) (c : Nat) (f : Core → Core) : (s.modCore c f).regs = s.regs := (rfl)
@[simp] theorem State.modCore_cfgOfs (s : State) (c : Nat) (f : Core → Core) : (s.modCore c f).cfgOfs = s.cfgOfs := (rfl)
@[simp] theorem State.modCore_od (s : State) (c : Nat) (f : Core → Core) : (s.modCore c f).od = s.od := (rfl)
@[simp] theorem State.modCore_host (s : State) (c : Nat) (f : Core → Core) : (s.modCore c f).host = s.host := (rfl)
@[simp] theorem State.modCore_mbox (s : State) (c : Nat) (f : Core → Core) : (s.modCore c f).mbox = s.mbox := (rfl)
@[simp] theorem State.modCore_tide (s : State) (c : Nat) (f : Core → Core) : (s.modCore c f).tide = s.tide := (rfl)
@[simp] theorem State.modCore_pa (s : State) (c : Nat) (f : Core → Core) : (s.modCore c f).pa = s.pa := (rfl)
@[simp] theorem State.modCore_pb (s : State) (c : Nat) (f : Core → Core) : (s.modCore c f).pb = s.pb := (rfl)
@[simp] theorem State.modCore_time (s : State) (c : Nat) (f : Core → Core) : (s.modCore c f).time = s.time := (rfl)
@[simp] theorem State.modCore_chain (s : State) (c : Nat) (f : Core → Core) : (s.modCore c f).chain = s.chain := (rfl)
@[simp] theorem State.modCore_flash (s : State) (c : Nat) (f : Core → Core) : (s.modCore c f).flash = s.flash := (rfl)
@[simp] theorem State.modCore_otp (s : State) (c : Nat) (f : Core → Core) : (s.modCore c f).otp = s.otp := (rfl)
@[simp] theorem State.modCore_ident (s : State) (c : Nat) (f : Core → Core) : (s.modCore c f).ident = s.ident := (rfl)
@[simp] theorem State.modCore_hk (s : State) (c : Nat) (f : Core → Core) : (s.modCore c f).hk = s.hk := (rfl)
@[simp] theorem State.modCore_dram (s : State) (c : Nat) (f : Core → Core) : (s.modCore c f).dram = s.dram := (rfl)
@[simp] theorem State.modCore_cask (s : State) (c : Nat) (f : Core → Core) : (s.modCore c f).cask = s.cask := (rfl)
@[simp] theorem State.modCore_caps (s : State) (c : Nat) (f : Core → Core) : (s.modCore c f).caps = s.caps := (rfl)
@[simp] theorem State.modCore_mem (s : State) (c : Nat) (f : Core → Core) : (s.modCore c f).mem = s.mem := (rfl)

/-! ### State.modExp -/
@[simp] theorem State.modExp_pending (s : State) (n : Nat) (f : ExpRing → ExpRing) : (s.modExp n f).pending = s.pending := (rfl)
@[simp] theorem State.modExp_free (s : State) (n : Nat) (f : ExpRing → ExpRing) : (s.modExp n f).free = s.free := (rfl)
@[simp] theorem State.modExp_out (s : State) (n : Nat) (f : ExpRing → ExpRing) : (s.modExp n f).out = s.out := (rfl)
@[simp] theorem State.modExp_power (s : State) (n : Nat) (f : ExpRing → ExpRing) : (s.modExp n f).power = s.power := (rfl)
@[simp] theorem State.modExp_aon (s : State) (n : Nat) (f : ExpRing → ExpRing) : (s.modExp n f).aon = s.aon := (rfl)
@[simp] theorem State.modExp_bwf (s : State) (n : Nat) (f : ExpRing → ExpRing) : (s.modExp n f).bwf = s.bwf := (rfl)
@[simp] theorem State.modExp_stats (s : State) (n : Nat) (f : ExpRing → ExpRing) : (s.modExp n f).stats = s.stats := (rfl)
@[simp] theorem State.modExp_regs (s : State) (n : Nat) (f : ExpRing → ExpRing) : (s.modExp n f).regs = s.regs := (rfl)
@[simp] theorem State.modExp_cfgOfs (s : State) (n : Nat) (f : ExpRing → ExpRing) : (s.modExp n f).cfgOfs = s.cfgOfs := (rfl)
@[simp] theorem State.modExp_od (s : State) (n : Nat) (f : ExpRing → ExpRing) : (s.modExp n f).od = s.od := (rfl)
@[simp] theorem State.modExp_mbox (s : State) (n : Nat) (f : ExpRing → ExpRing) : (s.modExp n f).mbox = s.mbox := (rfl)
@[simp] theorem State.modExp_tide (s : State) (n : Nat) (f : ExpRing → ExpRing) : (s.modExp n f).tide = s.tide := (rfl)
@[simp] theorem State.modExp_pa (s : State) (n : Nat) (f : ExpRing → ExpRing) : (s.modExp n f).pa = s.pa := (rfl)
@[simp] theorem State.modExp_pb (s : State) (n : Nat) (f : ExpRing → ExpRing) : (s.modExp n f).pb = s.pb := (rfl)
@[simp] theorem State.modExp_time (s : State) (n : Nat) (f : ExpRing → ExpRing) : (s.modExp n f).time = s.time := (rfl)
@[simp] theorem State.modExp_chain (s : State) (n : Nat) (f : ExpRing → ExpRing) : (s.modExp n f).chain = s.chain := (rfl)
@[simp] theorem State.modExp_flash (s : State) (n : Nat) (f : ExpRing → ExpRing) : (s.modExp n f).flash = s.flash := (rfl)
@[simp] theorem State.modExp_otp (s : State) (n : Nat) (f : ExpRing → ExpRing) : (s.modExp n f).otp = s.otp := (rfl)
@[simp] theorem State.modExp_ident (s : State) (n : Nat) (f : ExpRing → ExpRing) : (s.modExp n f).ident = s.ident := (rfl)
@[simp] theorem State.modExp_brew (s : State) (n : Nat) (f : ExpRing → ExpRing) : (s.modExp n f).brew = s.brew := (rfl)
@[simp] theorem State.modExp_hk (s : State) (n : Nat) (f : ExpRing → ExpRing) : (s.modExp n f).hk = s.hk := (rfl)
@[simp] theorem State.modExp_dram (s : State) (n : Nat) (f : ExpRing → ExpRing) : (s.modExp n f).dram = s.dram := (rfl)
@[simp] theorem State.modExp_cask (s : State) (n : Nat) (f : ExpRing → ExpRing) : (s.modExp n f).cask = s.cask := (rfl)
@[simp] theorem State.modExp_caps (s : State) (n : Nat) (f : ExpRing → ExpRing) : (s.modExp n f).caps = s.caps := (rfl)
@[simp] theorem State.modExp_mem (s : State) (n : Nat) (f : ExpRing → ExpRing) : (s.modExp n f).mem = s.mem := (rfl)

/-! ### State.modMbox -/
@[simp] theorem State.modMbox_pending (s : State) (f : Mbox → Mbox) : (s.modMbox f).pending = s.pending := (rfl)
@[simp] theorem State.modMbox_free (s : State) (f : Mbox → Mbox) : (s.modMbox f).free = s.free := (rfl)
@[simp] theorem State.modMbox_out (s : State) (f : Mbox → Mbox) : (s.modMbox f).out = s.out := (rfl)
@[simp] theorem State.modMbox_power (s : State) (f : Mbox → Mbox) : (s.modMbox f).power = s.power := (rfl)
@[simp] theorem State.modMbox_aon (s : State) (f : Mbox → Mbox) : (s.modMbox f).aon = s.aon := (rfl)
@[simp] theorem State.modMbox_bwf (s : State) (f : Mbox → Mbox) : (s.modMbox f).bwf = s.bwf := (rfl)
@[simp] theorem State.modMbox_stats (s : State) (f : Mbox → Mbox) : (s.modMbox f).stats = s.stats := (rfl)
@[simp] theorem State.modMbox_regs (s : State) (f : Mbox → Mbox) : (s.modMbox f).regs = s.regs := (rfl)
@[simp] theorem State.modMbox_cfgOfs (s : State) (f : Mbox → Mbox) : (s.modMbox f).cfgOfs = s.cfgOfs := (rfl)
@[simp] theorem State.modMbox_od (s : State) (f : Mbox → Mbox) : (s.modMbox f).od = s.od := (rfl)
@[simp] theorem State.modMbox_host (s : State) (f : Mbox → Mbox) : (s.modMbox f).host = s.host := (rfl)
@[simp] theorem State.modMbox_tide (s : State) (f : Mbox → Mbox) : (s.modMbox f).tide = s.tide := (rfl)
@[simp] theorem State.modMbox_pa (s : State) (f : Mbox → Mbox) : (s.modMbox f).pa = s.pa := (rfl)
@[simp] theorem State.modMbox_pb (s : State) (f : Mbox → Mbox) : (s.modMbox f).pb = s.pb := (rfl)
@[simp] theorem State.modMbox_time (s : State) (f : Mbox → Mbox) : (s.modMbox f).time = s.time := (rfl)
@[simp] theorem State.modMbox_chain (s : State) (f : Mbox → Mbox) : (s.modMbox f).chain = s.chain := (rfl)
@[simp] theorem State.modMbox_flash (s : State) (f : Mbox → Mbox) : (s.modMbox f).flash = s.flash := (rfl)
@[simp] theorem State.modMbox_otp (s : State) (f : Mbox → Mbox) : (s.modMbox f).otp = s.otp := (rfl)
@[simp] theorem State.modMbox_ident (s : State) (f : Mbox → Mbox) : (s.modMbox f).ident = s.ident := (rfl)
@[simp] theorem State.modMbox_brew (s : State) (f : Mbox → Mbox) : (s.modMbox f).brew = s.brew := (rfl)
@[simp] theorem State.modMbox_hk (s : State) (f : Mbox → Mbox) : (s.modMbox f).hk = s.hk := (rfl)
@[simp] theorem State.modMbox_dram (s : State) (f : Mbox → Mbox) : (s.modMbox f).dram = s.dram := (rfl)
@[simp] theorem State.modMbox_cask (s : State) (f : Mbox → Mbox) : (s.modMbox f).cask = s.cask := (rfl)
@[simp] theorem State.modMbox_caps (s : State) (f : Mbox → Mbox) : (s.modMbox f).caps = s.caps := (rfl)
@[simp] theorem State.modMbox_mem (s : State) (f : Mbox → Mbox) : (s.modMbox f).mem = s.mem := (rfl)

/-! ### State.modChan -/
@[simp] theorem State.modChan_pending (s : State) (a b : Nat) (f : Chan → Chan) : (s.modChan a b f).pending = s.pending := (rfl)
@[simp] theorem State.modChan_free (s : State) (a b : Nat) (f : Chan → Chan) : (s.modChan a b f).free = s.free := (rfl)
@[simp] theorem State.modChan_out (s : State) (a b : Nat) (f : Chan → Chan) : (s.modChan a b f).out = s.out := (rfl)
@[simp] theorem State.modChan_power (s : State) (a b : Nat) (f : Chan → Chan) : (s.modChan a b f).power = s.power := (rfl)
@[simp] theorem State.modChan_aon (s : State) (a b : Nat) (f : Chan → Chan) : (s.modChan a b f).aon = s.aon := (rfl)
@[simp] theorem State.modChan_bwf (s : State) (a b : Nat) (f : Chan → Chan) : (s.modChan a b f).bwf = s.bwf := (rfl)
@[simp] theorem State.modChan_stats (s : State) (a b : Nat) (f : Chan → Chan) : (s.modChan a b f).stats = s.stats := (rfl)
@[simp] theorem State.modChan_regs (s : State) (a b : Nat) (f : Chan → Chan) : (s.modChan a b f).regs = s.regs := (rfl)
@[simp] theorem State.modChan_cfgOfs (s : State) (a b : Nat) (f : Chan → Chan) : (s.modChan a b f).cfgOfs = s.cfgOfs := (rfl)
@[simp] theorem State.modChan_od (s : State) (a b : Nat) (f : Chan → Chan) : (s.modChan a b f).od = s.od := (rfl)
@[simp] theorem State.modChan_host (s : State) (a b : Nat) (f : Chan → Chan) : (s.modChan a b f).host = s.host := (rfl)
@[simp] theorem State.modChan_tide (s : State) (a b : Nat) (f : Chan → Chan) : (s.modChan a b f).tide = s.tide := (rfl)
@[simp] theorem State.modChan_pa (s : State) (a b : Nat) (f : Chan → Chan) : (s.modChan a b f).pa = s.pa := (rfl)
@[simp] theorem State.modChan_pb (s : State) (a b : Nat) (f : Chan → Chan) : (s.modChan a b f).pb = s.pb := (rfl)
@[simp] theorem State.modChan_time (s : State) (a b : Nat) (f : Chan → Chan) : (s.modChan a b f).time = s.time := (rfl)
@[simp] theorem State.modChan_chain (s : State) (a b : Nat) (f : Chan → Chan) : (s.modChan a b f).chain = s.chain := (rfl)
@[simp] theorem State.modChan_flash (s : State) (a b : Nat) (f : Chan → Chan) : (s.modChan a b f).flash = s.flash := (rfl)
@[simp] theorem State.modChan_otp (s : State) (a b : Nat) (f : Chan → Chan) : (s.modChan a b f).otp = s.otp := (rfl)
@[simp] theorem State.modChan_ident (s : State) (a b : Nat) (f : Chan → Chan) : (s.modChan a b f).ident = s.ident := (rfl)
@[simp] theorem State.modChan_brew (s : State) (a b : Nat) (f : Chan → Chan) : (s.modChan a b f).brew = s.brew := (rfl)
@[simp] theorem State.modChan_hk (s : State) (a b : Nat) (f : Chan → Chan) : (s.modChan a b f).hk = s.hk := (rfl)
@[simp] theorem State.modChan_dram (s : State) (a b : Nat) (f : Chan → Chan) : (s.modChan a b f).dram = s.dram := (rfl)
@[simp] theorem State.modChan_cask (s : State) (a b : Nat) (f : Chan → Chan) : (s.modChan a b f).cask = s.cask := (rfl)
@[simp] theorem State.modChan_caps (s : State) (a b : Nat) (f : Chan → Chan) : (s.modChan a b f).caps = s.caps := (rfl)
@[simp] theorem State.modChan_mem (s : State) (a b : Nat) (f : Chan → Chan) : (s.modChan a b f).mem = s.mem := (rfl)

/-! ### State.modEnd -/
@[simp] theorem State.modEnd_pending (s : State) (e : Nat) (f : EndPt → EndPt) : (s.modEnd e f).pending = s.pending := (rfl)
@[simp] theorem State.modEnd_free (s : State) (e : Nat) (f : EndPt → EndPt) : (s.modEnd e f).free = s.free := (rfl)
@[simp] theorem State.modEnd_out (s : State) (e : Nat) (f : EndPt → EndPt) : (s.modEnd e f).out = s.out := (rfl)
@[simp] theorem State.modEnd_power (s : State) (e : Nat) (f : EndPt → EndPt) : (s.modEnd e f).power = s.power := (rfl)
@[simp] theorem State.modEnd_aon (s : State) (e : Nat) (f : EndPt → EndPt) : (s.modEnd e f).aon = s.aon := (rfl)
@[simp] theorem State.modEnd_bwf (s : State) (e : Nat) (f : EndPt → EndPt) : (s.modEnd e f).bwf = s.bwf := (rfl)
@[simp] theorem State.modEnd_stats (s : State) (e : Nat) (f : EndPt → EndPt) : (s.modEnd e f).stats = s.stats := (rfl)
@[simp] theorem State.modEnd_regs (s : State) (e : Nat) (f : EndPt → EndPt) : (s.modEnd e f).regs = s.regs := (rfl)
@[simp] theorem State.modEnd_cfgOfs (s : State) (e : Nat) (f : EndPt → EndPt) : (s.modEnd e f).cfgOfs = s.cfgOfs := (rfl)
@[simp] theorem State.modEnd_od (s : State) (e : Nat) (f : EndPt → EndPt) : (s.modEnd e f).od = s.od := (rfl)
@[simp] theorem State.modEnd_host (s : State) (e : Nat) (f : EndPt → EndPt) : (s.modEnd e f).host = s.host := (rfl)
@[simp] theorem State.modEnd_tide (s : State) (e : Nat) (f : EndPt → EndPt) : (s.modEnd e f).tide = s.tide := (rfl)
@[simp] theorem State.modEnd_pa (s : State) (e : Nat) (f : EndPt → EndPt) : (s.modEnd e f).pa = s.pa := (rfl)
@[simp] theorem State.modEnd_pb (s : State) (e : Nat) (f : EndPt → EndPt) : (s.modEnd e f).pb = s.pb := (rfl)
@[simp] theorem State.modEnd_time (s : State) (e : Nat) (f : EndPt → EndPt) : (s.modEnd e f).time = s.time := (rfl)
@[simp] theorem State.modEnd_chain (s : State) (e : Nat) (f : EndPt → EndPt) : (s.modEnd e f).chain = s.chain := (rfl)
@[simp] theorem State.modEnd_flash (s : State) (e : Nat) (f : EndPt → EndPt) : (s.modEnd e f).flash = s.flash := (rfl)
@[simp] theorem State.modEnd_otp (s : State) (e : Nat) (f : EndPt → EndPt) : (s.modEnd e f).otp = s.otp := (rfl)
@[simp] theorem State.modEnd_ident (s : State) (e : Nat) (f : EndPt → EndPt) : (s.modEnd e f).ident = s.ident := (rfl)
@[simp] theorem State.modEnd_brew (s : State) (e : Nat) (f : EndPt → EndPt) : (s.modEnd e f).brew = s.brew := (rfl)
@[simp] theorem State.modEnd_hk (s : State) (e : Nat) (f : EndPt → EndPt) : (s.modEnd e f).hk = s.hk := (rfl)
@[simp] theorem State.modEnd_dram (s : State) (e : Nat) (f : EndPt → EndPt) : (s.modEnd e f).dram = s.dram := (rfl)
@[simp] theorem State.modEnd_cask (s : State) (e : Nat) (f : EndPt → EndPt) : (s.modEnd e f).cask = s.cask := (rfl)
@[simp] theorem State.modEnd_caps (s : State) (e : Nat) (f : EndPt → EndPt) : (s.modEnd e f).caps = s.caps := (rfl)
@[simp] theorem State.modEnd_mem (s : State) (e : Nat) (f : EndPt → EndPt) : (s.modEnd e f).mem = s.mem := (rfl)

/-! ### State.modOpt -/
@[simp] theorem State.modOpt_pending (s : State) (q : Port) (f : Optics → Optics) : (s.modOpt q f).pending = s.pending := by simp [State.modOpt]
@[simp] theorem State.modOpt_free (s : State) (q : Port) (f : Optics → Optics) : (s.modOpt q f).free = s.free := by simp [State.modOpt]
@[simp] theorem State.modOpt_out (s : State) (q : Port) (f : Optics → Optics) : (s.modOpt q f).out = s.out := by simp [State.modOpt]
@[simp] theorem State.modOpt_power (s : State) (q : Port) (f : Optics → Optics) : (s.modOpt q f).power = s.power := by simp [State.modOpt]
@[simp] theorem State.modOpt_aon (s : State) (q : Port) (f : Optics → Optics) : (s.modOpt q f).aon = s.aon := by simp [State.modOpt]
@[simp] theorem State.modOpt_bwf (s : State) (q : Port) (f : Optics → Optics) : (s.modOpt q f).bwf = s.bwf := by simp [State.modOpt]
@[simp] theorem State.modOpt_stats (s : State) (q : Port) (f : Optics → Optics) : (s.modOpt q f).stats = s.stats := by simp [State.modOpt]
@[simp] theorem State.modOpt_regs (s : State) (q : Port) (f : Optics → Optics) : (s.modOpt q f).regs = s.regs := by simp [State.modOpt]
@[simp] theorem State.modOpt_cfgOfs (s : State) (q : Port) (f : Optics → Optics) : (s.modOpt q f).cfgOfs = s.cfgOfs := by simp [State.modOpt]
@[simp] theorem State.modOpt_od (s : State) (q : Port) (f : Optics → Optics) : (s.modOpt q f).od = s.od := by simp [State.modOpt]
@[simp] theorem State.modOpt_host (s : State) (q : Port) (f : Optics → Optics) : (s.modOpt q f).host = s.host := by simp [State.modOpt]
@[simp] theorem State.modOpt_mbox (s : State) (q : Port) (f : Optics → Optics) : (s.modOpt q f).mbox = s.mbox := by simp [State.modOpt]
@[simp] theorem State.modOpt_tide (s : State) (q : Port) (f : Optics → Optics) : (s.modOpt q f).tide = s.tide := by simp [State.modOpt]
@[simp] theorem State.modOpt_time (s : State) (q : Port) (f : Optics → Optics) : (s.modOpt q f).time = s.time := by simp [State.modOpt]
@[simp] theorem State.modOpt_chain (s : State) (q : Port) (f : Optics → Optics) : (s.modOpt q f).chain = s.chain := by simp [State.modOpt]
@[simp] theorem State.modOpt_flash (s : State) (q : Port) (f : Optics → Optics) : (s.modOpt q f).flash = s.flash := by simp [State.modOpt]
@[simp] theorem State.modOpt_otp (s : State) (q : Port) (f : Optics → Optics) : (s.modOpt q f).otp = s.otp := by simp [State.modOpt]
@[simp] theorem State.modOpt_ident (s : State) (q : Port) (f : Optics → Optics) : (s.modOpt q f).ident = s.ident := by simp [State.modOpt]
@[simp] theorem State.modOpt_brew (s : State) (q : Port) (f : Optics → Optics) : (s.modOpt q f).brew = s.brew := by simp [State.modOpt]
@[simp] theorem State.modOpt_hk (s : State) (q : Port) (f : Optics → Optics) : (s.modOpt q f).hk = s.hk := by simp [State.modOpt]
@[simp] theorem State.modOpt_dram (s : State) (q : Port) (f : Optics → Optics) : (s.modOpt q f).dram = s.dram := by simp [State.modOpt]
@[simp] theorem State.modOpt_cask (s : State) (q : Port) (f : Optics → Optics) : (s.modOpt q f).cask = s.cask := by simp [State.modOpt]
@[simp] theorem State.modOpt_caps (s : State) (q : Port) (f : Optics → Optics) : (s.modOpt q f).caps = s.caps := by simp [State.modOpt]
@[simp] theorem State.modOpt_mem (s : State) (q : Port) (f : Optics → Optics) : (s.modOpt q f).mem = s.mem := by simp [State.modOpt]

/-! ### State.modLaser -/
@[simp] theorem State.modLaser_pending (s : State) (q : Port) (f : LaserSet → LaserSet) : (s.modLaser q f).pending = s.pending := by simp [State.modLaser]
@[simp] theorem State.modLaser_free (s : State) (q : Port) (f : LaserSet → LaserSet) : (s.modLaser q f).free = s.free := by simp [State.modLaser]
@[simp] theorem State.modLaser_out (s : State) (q : Port) (f : LaserSet → LaserSet) : (s.modLaser q f).out = s.out := by simp [State.modLaser]
@[simp] theorem State.modLaser_power (s : State) (q : Port) (f : LaserSet → LaserSet) : (s.modLaser q f).power = s.power := by simp [State.modLaser]
@[simp] theorem State.modLaser_aon (s : State) (q : Port) (f : LaserSet → LaserSet) : (s.modLaser q f).aon = s.aon := by simp [State.modLaser]
@[simp] theorem State.modLaser_bwf (s : State) (q : Port) (f : LaserSet → LaserSet) : (s.modLaser q f).bwf = s.bwf := by simp [State.modLaser]
@[simp] theorem State.modLaser_stats (s : State) (q : Port) (f : LaserSet → LaserSet) : (s.modLaser q f).stats = s.stats := by simp [State.modLaser]
@[simp] theorem State.modLaser_regs (s : State) (q : Port) (f : LaserSet → LaserSet) : (s.modLaser q f).regs = s.regs := by simp [State.modLaser]
@[simp] theorem State.modLaser_cfgOfs (s : State) (q : Port) (f : LaserSet → LaserSet) : (s.modLaser q f).cfgOfs = s.cfgOfs := by simp [State.modLaser]
@[simp] theorem State.modLaser_od (s : State) (q : Port) (f : LaserSet → LaserSet) : (s.modLaser q f).od = s.od := by simp [State.modLaser]
@[simp] theorem State.modLaser_host (s : State) (q : Port) (f : LaserSet → LaserSet) : (s.modLaser q f).host = s.host := by simp [State.modLaser]
@[simp] theorem State.modLaser_mbox (s : State) (q : Port) (f : LaserSet → LaserSet) : (s.modLaser q f).mbox = s.mbox := by simp [State.modLaser]
@[simp] theorem State.modLaser_tide (s : State) (q : Port) (f : LaserSet → LaserSet) : (s.modLaser q f).tide = s.tide := by simp [State.modLaser]
@[simp] theorem State.modLaser_time (s : State) (q : Port) (f : LaserSet → LaserSet) : (s.modLaser q f).time = s.time := by simp [State.modLaser]
@[simp] theorem State.modLaser_chain (s : State) (q : Port) (f : LaserSet → LaserSet) : (s.modLaser q f).chain = s.chain := by simp [State.modLaser]
@[simp] theorem State.modLaser_flash (s : State) (q : Port) (f : LaserSet → LaserSet) : (s.modLaser q f).flash = s.flash := by simp [State.modLaser]
@[simp] theorem State.modLaser_otp (s : State) (q : Port) (f : LaserSet → LaserSet) : (s.modLaser q f).otp = s.otp := by simp [State.modLaser]
@[simp] theorem State.modLaser_ident (s : State) (q : Port) (f : LaserSet → LaserSet) : (s.modLaser q f).ident = s.ident := by simp [State.modLaser]
@[simp] theorem State.modLaser_brew (s : State) (q : Port) (f : LaserSet → LaserSet) : (s.modLaser q f).brew = s.brew := by simp [State.modLaser]
@[simp] theorem State.modLaser_hk (s : State) (q : Port) (f : LaserSet → LaserSet) : (s.modLaser q f).hk = s.hk := by simp [State.modLaser]
@[simp] theorem State.modLaser_dram (s : State) (q : Port) (f : LaserSet → LaserSet) : (s.modLaser q f).dram = s.dram := by simp [State.modLaser]
@[simp] theorem State.modLaser_cask (s : State) (q : Port) (f : LaserSet → LaserSet) : (s.modLaser q f).cask = s.cask := by simp [State.modLaser]
@[simp] theorem State.modLaser_caps (s : State) (q : Port) (f : LaserSet → LaserSet) : (s.modLaser q f).caps = s.caps := by simp [State.modLaser]
@[simp] theorem State.modLaser_mem (s : State) (q : Port) (f : LaserSet → LaserSet) : (s.modLaser q f).mem = s.mem := by simp [State.modLaser]

/-! ### State.modRx -/
@[simp] theorem State.modRx_pending (s : State) (q : Port) (f : Rx → Rx) : (s.modRx q f).pending = s.pending := by simp [State.modRx]
@[simp] theorem State.modRx_free (s : State) (q : Port) (f : Rx → Rx) : (s.modRx q f).free = s.free := by simp [State.modRx]
@[simp] theorem State.modRx_out (s : State) (q : Port) (f : Rx → Rx) : (s.modRx q f).out = s.out := by simp [State.modRx]
@[simp] theorem State.modRx_power (s : State) (q : Port) (f : Rx → Rx) : (s.modRx q f).power = s.power := by simp [State.modRx]
@[simp] theorem State.modRx_aon (s : State) (q : Port) (f : Rx → Rx) : (s.modRx q f).aon = s.aon := by simp [State.modRx]
@[simp] theorem State.modRx_bwf (s : State) (q : Port) (f : Rx → Rx) : (s.modRx q f).bwf = s.bwf := by simp [State.modRx]
@[simp] theorem State.modRx_stats (s : State) (q : Port) (f : Rx → Rx) : (s.modRx q f).stats = s.stats := by simp [State.modRx]
@[simp] theorem State.modRx_regs (s : State) (q : Port) (f : Rx → Rx) : (s.modRx q f).regs = s.regs := by simp [State.modRx]
@[simp] theorem State.modRx_cfgOfs (s : State) (q : Port) (f : Rx → Rx) : (s.modRx q f).cfgOfs = s.cfgOfs := by simp [State.modRx]
@[simp] theorem State.modRx_od (s : State) (q : Port) (f : Rx → Rx) : (s.modRx q f).od = s.od := by simp [State.modRx]
@[simp] theorem State.modRx_host (s : State) (q : Port) (f : Rx → Rx) : (s.modRx q f).host = s.host := by simp [State.modRx]
@[simp] theorem State.modRx_mbox (s : State) (q : Port) (f : Rx → Rx) : (s.modRx q f).mbox = s.mbox := by simp [State.modRx]
@[simp] theorem State.modRx_tide (s : State) (q : Port) (f : Rx → Rx) : (s.modRx q f).tide = s.tide := by simp [State.modRx]
@[simp] theorem State.modRx_time (s : State) (q : Port) (f : Rx → Rx) : (s.modRx q f).time = s.time := by simp [State.modRx]
@[simp] theorem State.modRx_chain (s : State) (q : Port) (f : Rx → Rx) : (s.modRx q f).chain = s.chain := by simp [State.modRx]
@[simp] theorem State.modRx_flash (s : State) (q : Port) (f : Rx → Rx) : (s.modRx q f).flash = s.flash := by simp [State.modRx]
@[simp] theorem State.modRx_otp (s : State) (q : Port) (f : Rx → Rx) : (s.modRx q f).otp = s.otp := by simp [State.modRx]
@[simp] theorem State.modRx_ident (s : State) (q : Port) (f : Rx → Rx) : (s.modRx q f).ident = s.ident := by simp [State.modRx]
@[simp] theorem State.modRx_brew (s : State) (q : Port) (f : Rx → Rx) : (s.modRx q f).brew = s.brew := by simp [State.modRx]
@[simp] theorem State.modRx_hk (s : State) (q : Port) (f : Rx → Rx) : (s.modRx q f).hk = s.hk := by simp [State.modRx]
@[simp] theorem State.modRx_dram (s : State) (q : Port) (f : Rx → Rx) : (s.modRx q f).dram = s.dram := by simp [State.modRx]
@[simp] theorem State.modRx_cask (s : State) (q : Port) (f : Rx → Rx) : (s.modRx q f).cask = s.cask := by simp [State.modRx]
@[simp] theorem State.modRx_caps (s : State) (q : Port) (f : Rx → Rx) : (s.modRx q f).caps = s.caps := by simp [State.modRx]
@[simp] theorem State.modRx_mem (s : State) (q : Port) (f : Rx → Rx) : (s.modRx q f).mem = s.mem := by simp [State.modRx]

/-! ### State.modSw -/
@[simp] theorem State.modSw_pending (s : State) (q : Port) (f : Swash → Swash) : (s.modSw q f).pending = s.pending := by simp [State.modSw]
@[simp] theorem State.modSw_free (s : State) (q : Port) (f : Swash → Swash) : (s.modSw q f).free = s.free := by simp [State.modSw]
@[simp] theorem State.modSw_out (s : State) (q : Port) (f : Swash → Swash) : (s.modSw q f).out = s.out := by simp [State.modSw]
@[simp] theorem State.modSw_power (s : State) (q : Port) (f : Swash → Swash) : (s.modSw q f).power = s.power := by simp [State.modSw]
@[simp] theorem State.modSw_aon (s : State) (q : Port) (f : Swash → Swash) : (s.modSw q f).aon = s.aon := by simp [State.modSw]
@[simp] theorem State.modSw_bwf (s : State) (q : Port) (f : Swash → Swash) : (s.modSw q f).bwf = s.bwf := by simp [State.modSw]
@[simp] theorem State.modSw_stats (s : State) (q : Port) (f : Swash → Swash) : (s.modSw q f).stats = s.stats := by simp [State.modSw]
@[simp] theorem State.modSw_regs (s : State) (q : Port) (f : Swash → Swash) : (s.modSw q f).regs = s.regs := by simp [State.modSw]
@[simp] theorem State.modSw_cfgOfs (s : State) (q : Port) (f : Swash → Swash) : (s.modSw q f).cfgOfs = s.cfgOfs := by simp [State.modSw]
@[simp] theorem State.modSw_od (s : State) (q : Port) (f : Swash → Swash) : (s.modSw q f).od = s.od := by simp [State.modSw]
@[simp] theorem State.modSw_host (s : State) (q : Port) (f : Swash → Swash) : (s.modSw q f).host = s.host := by simp [State.modSw]
@[simp] theorem State.modSw_mbox (s : State) (q : Port) (f : Swash → Swash) : (s.modSw q f).mbox = s.mbox := by simp [State.modSw]
@[simp] theorem State.modSw_tide (s : State) (q : Port) (f : Swash → Swash) : (s.modSw q f).tide = s.tide := by simp [State.modSw]
@[simp] theorem State.modSw_time (s : State) (q : Port) (f : Swash → Swash) : (s.modSw q f).time = s.time := by simp [State.modSw]
@[simp] theorem State.modSw_chain (s : State) (q : Port) (f : Swash → Swash) : (s.modSw q f).chain = s.chain := by simp [State.modSw]
@[simp] theorem State.modSw_flash (s : State) (q : Port) (f : Swash → Swash) : (s.modSw q f).flash = s.flash := by simp [State.modSw]
@[simp] theorem State.modSw_otp (s : State) (q : Port) (f : Swash → Swash) : (s.modSw q f).otp = s.otp := by simp [State.modSw]
@[simp] theorem State.modSw_ident (s : State) (q : Port) (f : Swash → Swash) : (s.modSw q f).ident = s.ident := by simp [State.modSw]
@[simp] theorem State.modSw_brew (s : State) (q : Port) (f : Swash → Swash) : (s.modSw q f).brew = s.brew := by simp [State.modSw]
@[simp] theorem State.modSw_hk (s : State) (q : Port) (f : Swash → Swash) : (s.modSw q f).hk = s.hk := by simp [State.modSw]
@[simp] theorem State.modSw_dram (s : State) (q : Port) (f : Swash → Swash) : (s.modSw q f).dram = s.dram := by simp [State.modSw]
@[simp] theorem State.modSw_cask (s : State) (q : Port) (f : Swash → Swash) : (s.modSw q f).cask = s.cask := by simp [State.modSw]
@[simp] theorem State.modSw_caps (s : State) (q : Port) (f : Swash → Swash) : (s.modSw q f).caps = s.caps := by simp [State.modSw]
@[simp] theorem State.modSw_mem (s : State) (q : Port) (f : Swash → Swash) : (s.modSw q f).mem = s.mem := by simp [State.modSw]

/-! ### State.modKiln -/
@[simp] theorem State.modKiln_pending (s : State) (q : Port) (f : Kiln → Kiln) : (s.modKiln q f).pending = s.pending := by simp [State.modKiln]
@[simp] theorem State.modKiln_free (s : State) (q : Port) (f : Kiln → Kiln) : (s.modKiln q f).free = s.free := by simp [State.modKiln]
@[simp] theorem State.modKiln_out (s : State) (q : Port) (f : Kiln → Kiln) : (s.modKiln q f).out = s.out := by simp [State.modKiln]
@[simp] theorem State.modKiln_power (s : State) (q : Port) (f : Kiln → Kiln) : (s.modKiln q f).power = s.power := by simp [State.modKiln]
@[simp] theorem State.modKiln_aon (s : State) (q : Port) (f : Kiln → Kiln) : (s.modKiln q f).aon = s.aon := by simp [State.modKiln]
@[simp] theorem State.modKiln_bwf (s : State) (q : Port) (f : Kiln → Kiln) : (s.modKiln q f).bwf = s.bwf := by simp [State.modKiln]
@[simp] theorem State.modKiln_stats (s : State) (q : Port) (f : Kiln → Kiln) : (s.modKiln q f).stats = s.stats := by simp [State.modKiln]
@[simp] theorem State.modKiln_regs (s : State) (q : Port) (f : Kiln → Kiln) : (s.modKiln q f).regs = s.regs := by simp [State.modKiln]
@[simp] theorem State.modKiln_cfgOfs (s : State) (q : Port) (f : Kiln → Kiln) : (s.modKiln q f).cfgOfs = s.cfgOfs := by simp [State.modKiln]
@[simp] theorem State.modKiln_od (s : State) (q : Port) (f : Kiln → Kiln) : (s.modKiln q f).od = s.od := by simp [State.modKiln]
@[simp] theorem State.modKiln_host (s : State) (q : Port) (f : Kiln → Kiln) : (s.modKiln q f).host = s.host := by simp [State.modKiln]
@[simp] theorem State.modKiln_mbox (s : State) (q : Port) (f : Kiln → Kiln) : (s.modKiln q f).mbox = s.mbox := by simp [State.modKiln]
@[simp] theorem State.modKiln_tide (s : State) (q : Port) (f : Kiln → Kiln) : (s.modKiln q f).tide = s.tide := by simp [State.modKiln]
@[simp] theorem State.modKiln_time (s : State) (q : Port) (f : Kiln → Kiln) : (s.modKiln q f).time = s.time := by simp [State.modKiln]
@[simp] theorem State.modKiln_chain (s : State) (q : Port) (f : Kiln → Kiln) : (s.modKiln q f).chain = s.chain := by simp [State.modKiln]
@[simp] theorem State.modKiln_flash (s : State) (q : Port) (f : Kiln → Kiln) : (s.modKiln q f).flash = s.flash := by simp [State.modKiln]
@[simp] theorem State.modKiln_otp (s : State) (q : Port) (f : Kiln → Kiln) : (s.modKiln q f).otp = s.otp := by simp [State.modKiln]
@[simp] theorem State.modKiln_ident (s : State) (q : Port) (f : Kiln → Kiln) : (s.modKiln q f).ident = s.ident := by simp [State.modKiln]
@[simp] theorem State.modKiln_brew (s : State) (q : Port) (f : Kiln → Kiln) : (s.modKiln q f).brew = s.brew := by simp [State.modKiln]
@[simp] theorem State.modKiln_hk (s : State) (q : Port) (f : Kiln → Kiln) : (s.modKiln q f).hk = s.hk := by simp [State.modKiln]
@[simp] theorem State.modKiln_dram (s : State) (q : Port) (f : Kiln → Kiln) : (s.modKiln q f).dram = s.dram := by simp [State.modKiln]
@[simp] theorem State.modKiln_cask (s : State) (q : Port) (f : Kiln → Kiln) : (s.modKiln q f).cask = s.cask := by simp [State.modKiln]
@[simp] theorem State.modKiln_caps (s : State) (q : Port) (f : Kiln → Kiln) : (s.modKiln q f).caps = s.caps := by simp [State.modKiln]
@[simp] theorem State.modKiln_mem (s : State) (q : Port) (f : Kiln → Kiln) : (s.modKiln q f).mem = s.mem := by simp [State.modKiln]

/-! ### State.modDet -/
@[simp] theorem State.modDet_pending (s : State) (q : Port) (f : Detect → Detect) : (s.modDet q f).pending = s.pending := by simp [State.modDet]
@[simp] theorem State.modDet_free (s : State) (q : Port) (f : Detect → Detect) : (s.modDet q f).free = s.free := by simp [State.modDet]
@[simp] theorem State.modDet_out (s : State) (q : Port) (f : Detect → Detect) : (s.modDet q f).out = s.out := by simp [State.modDet]
@[simp] theorem State.modDet_power (s : State) (q : Port) (f : Detect → Detect) : (s.modDet q f).power = s.power := by simp [State.modDet]
@[simp] theorem State.modDet_aon (s : State) (q : Port) (f : Detect → Detect) : (s.modDet q f).aon = s.aon := by simp [State.modDet]
@[simp] theorem State.modDet_bwf (s : State) (q : Port) (f : Detect → Detect) : (s.modDet q f).bwf = s.bwf := by simp [State.modDet]
@[simp] theorem State.modDet_stats (s : State) (q : Port) (f : Detect → Detect) : (s.modDet q f).stats = s.stats := by simp [State.modDet]
@[simp] theorem State.modDet_regs (s : State) (q : Port) (f : Detect → Detect) : (s.modDet q f).regs = s.regs := by simp [State.modDet]
@[simp] theorem State.modDet_cfgOfs (s : State) (q : Port) (f : Detect → Detect) : (s.modDet q f).cfgOfs = s.cfgOfs := by simp [State.modDet]
@[simp] theorem State.modDet_od (s : State) (q : Port) (f : Detect → Detect) : (s.modDet q f).od = s.od := by simp [State.modDet]
@[simp] theorem State.modDet_host (s : State) (q : Port) (f : Detect → Detect) : (s.modDet q f).host = s.host := by simp [State.modDet]
@[simp] theorem State.modDet_mbox (s : State) (q : Port) (f : Detect → Detect) : (s.modDet q f).mbox = s.mbox := by simp [State.modDet]
@[simp] theorem State.modDet_tide (s : State) (q : Port) (f : Detect → Detect) : (s.modDet q f).tide = s.tide := by simp [State.modDet]
@[simp] theorem State.modDet_time (s : State) (q : Port) (f : Detect → Detect) : (s.modDet q f).time = s.time := by simp [State.modDet]
@[simp] theorem State.modDet_chain (s : State) (q : Port) (f : Detect → Detect) : (s.modDet q f).chain = s.chain := by simp [State.modDet]
@[simp] theorem State.modDet_flash (s : State) (q : Port) (f : Detect → Detect) : (s.modDet q f).flash = s.flash := by simp [State.modDet]
@[simp] theorem State.modDet_otp (s : State) (q : Port) (f : Detect → Detect) : (s.modDet q f).otp = s.otp := by simp [State.modDet]
@[simp] theorem State.modDet_ident (s : State) (q : Port) (f : Detect → Detect) : (s.modDet q f).ident = s.ident := by simp [State.modDet]
@[simp] theorem State.modDet_brew (s : State) (q : Port) (f : Detect → Detect) : (s.modDet q f).brew = s.brew := by simp [State.modDet]
@[simp] theorem State.modDet_hk (s : State) (q : Port) (f : Detect → Detect) : (s.modDet q f).hk = s.hk := by simp [State.modDet]
@[simp] theorem State.modDet_dram (s : State) (q : Port) (f : Detect → Detect) : (s.modDet q f).dram = s.dram := by simp [State.modDet]
@[simp] theorem State.modDet_cask (s : State) (q : Port) (f : Detect → Detect) : (s.modDet q f).cask = s.cask := by simp [State.modDet]
@[simp] theorem State.modDet_caps (s : State) (q : Port) (f : Detect → Detect) : (s.modDet q f).caps = s.caps := by simp [State.modDet]
@[simp] theorem State.modDet_mem (s : State) (q : Port) (f : Detect → Detect) : (s.modDet q f).mem = s.mem := by simp [State.modDet]

/-! ### State.modTrk -/
@[simp] theorem State.modTrk_pending (s : State) (q : Port) (f : Tracker → Tracker) : (s.modTrk q f).pending = s.pending := by simp [State.modTrk]
@[simp] theorem State.modTrk_free (s : State) (q : Port) (f : Tracker → Tracker) : (s.modTrk q f).free = s.free := by simp [State.modTrk]
@[simp] theorem State.modTrk_out (s : State) (q : Port) (f : Tracker → Tracker) : (s.modTrk q f).out = s.out := by simp [State.modTrk]
@[simp] theorem State.modTrk_power (s : State) (q : Port) (f : Tracker → Tracker) : (s.modTrk q f).power = s.power := by simp [State.modTrk]
@[simp] theorem State.modTrk_aon (s : State) (q : Port) (f : Tracker → Tracker) : (s.modTrk q f).aon = s.aon := by simp [State.modTrk]
@[simp] theorem State.modTrk_bwf (s : State) (q : Port) (f : Tracker → Tracker) : (s.modTrk q f).bwf = s.bwf := by simp [State.modTrk]
@[simp] theorem State.modTrk_stats (s : State) (q : Port) (f : Tracker → Tracker) : (s.modTrk q f).stats = s.stats := by simp [State.modTrk]
@[simp] theorem State.modTrk_regs (s : State) (q : Port) (f : Tracker → Tracker) : (s.modTrk q f).regs = s.regs := by simp [State.modTrk]
@[simp] theorem State.modTrk_cfgOfs (s : State) (q : Port) (f : Tracker → Tracker) : (s.modTrk q f).cfgOfs = s.cfgOfs := by simp [State.modTrk]
@[simp] theorem State.modTrk_od (s : State) (q : Port) (f : Tracker → Tracker) : (s.modTrk q f).od = s.od := by simp [State.modTrk]
@[simp] theorem State.modTrk_host (s : State) (q : Port) (f : Tracker → Tracker) : (s.modTrk q f).host = s.host := by simp [State.modTrk]
@[simp] theorem State.modTrk_mbox (s : State) (q : Port) (f : Tracker → Tracker) : (s.modTrk q f).mbox = s.mbox := by simp [State.modTrk]
@[simp] theorem State.modTrk_tide (s : State) (q : Port) (f : Tracker → Tracker) : (s.modTrk q f).tide = s.tide := by simp [State.modTrk]
@[simp] theorem State.modTrk_time (s : State) (q : Port) (f : Tracker → Tracker) : (s.modTrk q f).time = s.time := by simp [State.modTrk]
@[simp] theorem State.modTrk_chain (s : State) (q : Port) (f : Tracker → Tracker) : (s.modTrk q f).chain = s.chain := by simp [State.modTrk]
@[simp] theorem State.modTrk_flash (s : State) (q : Port) (f : Tracker → Tracker) : (s.modTrk q f).flash = s.flash := by simp [State.modTrk]
@[simp] theorem State.modTrk_otp (s : State) (q : Port) (f : Tracker → Tracker) : (s.modTrk q f).otp = s.otp := by simp [State.modTrk]
@[simp] theorem State.modTrk_ident (s : State) (q : Port) (f : Tracker → Tracker) : (s.modTrk q f).ident = s.ident := by simp [State.modTrk]
@[simp] theorem State.modTrk_brew (s : State) (q : Port) (f : Tracker → Tracker) : (s.modTrk q f).brew = s.brew := by simp [State.modTrk]
@[simp] theorem State.modTrk_hk (s : State) (q : Port) (f : Tracker → Tracker) : (s.modTrk q f).hk = s.hk := by simp [State.modTrk]
@[simp] theorem State.modTrk_dram (s : State) (q : Port) (f : Tracker → Tracker) : (s.modTrk q f).dram = s.dram := by simp [State.modTrk]
@[simp] theorem State.modTrk_cask (s : State) (q : Port) (f : Tracker → Tracker) : (s.modTrk q f).cask = s.cask := by simp [State.modTrk]
@[simp] theorem State.modTrk_caps (s : State) (q : Port) (f : Tracker → Tracker) : (s.modTrk q f).caps = s.caps := by simp [State.modTrk]
@[simp] theorem State.modTrk_mem (s : State) (q : Port) (f : Tracker → Tracker) : (s.modTrk q f).mem = s.mem := by simp [State.modTrk]

/-! ### State.modCel -/
@[simp] theorem State.modCel_pending (s : State) (q : Port) (f : Cellar → Cellar) : (s.modCel q f).pending = s.pending := by simp [State.modCel]
@[simp] theorem State.modCel_free (s : State) (q : Port) (f : Cellar → Cellar) : (s.modCel q f).free = s.free := by simp [State.modCel]
@[simp] theorem State.modCel_out (s : State) (q : Port) (f : Cellar → Cellar) : (s.modCel q f).out = s.out := by simp [State.modCel]
@[simp] theorem State.modCel_power (s : State) (q : Port) (f : Cellar → Cellar) : (s.modCel q f).power = s.power := by simp [State.modCel]
@[simp] theorem State.modCel_aon (s : State) (q : Port) (f : Cellar → Cellar) : (s.modCel q f).aon = s.aon := by simp [State.modCel]
@[simp] theorem State.modCel_bwf (s : State) (q : Port) (f : Cellar → Cellar) : (s.modCel q f).bwf = s.bwf := by simp [State.modCel]
@[simp] theorem State.modCel_stats (s : State) (q : Port) (f : Cellar → Cellar) : (s.modCel q f).stats = s.stats := by simp [State.modCel]
@[simp] theorem State.modCel_regs (s : State) (q : Port) (f : Cellar → Cellar) : (s.modCel q f).regs = s.regs := by simp [State.modCel]
@[simp] theorem State.modCel_cfgOfs (s : State) (q : Port) (f : Cellar → Cellar) : (s.modCel q f).cfgOfs = s.cfgOfs := by simp [State.modCel]
@[simp] theorem State.modCel_od (s : State) (q : Port) (f : Cellar → Cellar) : (s.modCel q f).od = s.od := by simp [State.modCel]
@[simp] theorem State.modCel_host (s : State) (q : Port) (f : Cellar → Cellar) : (s.modCel q f).host = s.host := by simp [State.modCel]
@[simp] theorem State.modCel_mbox (s : State) (q : Port) (f : Cellar → Cellar) : (s.modCel q f).mbox = s.mbox := by simp [State.modCel]
@[simp] theorem State.modCel_tide (s : State) (q : Port) (f : Cellar → Cellar) : (s.modCel q f).tide = s.tide := by simp [State.modCel]
@[simp] theorem State.modCel_time (s : State) (q : Port) (f : Cellar → Cellar) : (s.modCel q f).time = s.time := by simp [State.modCel]
@[simp] theorem State.modCel_chain (s : State) (q : Port) (f : Cellar → Cellar) : (s.modCel q f).chain = s.chain := by simp [State.modCel]
@[simp] theorem State.modCel_flash (s : State) (q : Port) (f : Cellar → Cellar) : (s.modCel q f).flash = s.flash := by simp [State.modCel]
@[simp] theorem State.modCel_otp (s : State) (q : Port) (f : Cellar → Cellar) : (s.modCel q f).otp = s.otp := by simp [State.modCel]
@[simp] theorem State.modCel_ident (s : State) (q : Port) (f : Cellar → Cellar) : (s.modCel q f).ident = s.ident := by simp [State.modCel]
@[simp] theorem State.modCel_brew (s : State) (q : Port) (f : Cellar → Cellar) : (s.modCel q f).brew = s.brew := by simp [State.modCel]
@[simp] theorem State.modCel_hk (s : State) (q : Port) (f : Cellar → Cellar) : (s.modCel q f).hk = s.hk := by simp [State.modCel]
@[simp] theorem State.modCel_dram (s : State) (q : Port) (f : Cellar → Cellar) : (s.modCel q f).dram = s.dram := by simp [State.modCel]
@[simp] theorem State.modCel_cask (s : State) (q : Port) (f : Cellar → Cellar) : (s.modCel q f).cask = s.cask := by simp [State.modCel]
@[simp] theorem State.modCel_caps (s : State) (q : Port) (f : Cellar → Cellar) : (s.modCel q f).caps = s.caps := by simp [State.modCel]
@[simp] theorem State.modCel_mem (s : State) (q : Port) (f : Cellar → Cellar) : (s.modCel q f).mem = s.mem := by simp [State.modCel]

/-! ### State.modPair -/
@[simp] theorem State.modPair_pending (s : State) (q : Port) (f : Pair → Pair) : (s.modPair q f).pending = s.pending := by simp [State.modPair]
@[simp] theorem State.modPair_free (s : State) (q : Port) (f : Pair → Pair) : (s.modPair q f).free = s.free := by simp [State.modPair]
@[simp] theorem State.modPair_out (s : State) (q : Port) (f : Pair → Pair) : (s.modPair q f).out = s.out := by simp [State.modPair]
@[simp] theorem State.modPair_power (s : State) (q : Port) (f : Pair → Pair) : (s.modPair q f).power = s.power := by simp [State.modPair]
@[simp] theorem State.modPair_aon (s : State) (q : Port) (f : Pair → Pair) : (s.modPair q f).aon = s.aon := by simp [State.modPair]
@[simp] theorem State.modPair_bwf (s : State) (q : Port) (f : Pair → Pair) : (s.modPair q f).bwf = s.bwf := by simp [State.modPair]
@[simp] theorem State.modPair_stats (s : State) (q : Port) (f : Pair → Pair) : (s.modPair q f).stats = s.stats := by simp [State.modPair]
@[simp] theorem State.modPair_regs (s : State) (q : Port) (f : Pair → Pair) : (s.modPair q f).regs = s.regs := by simp [State.modPair]
@[simp] theorem State.modPair_cfgOfs (s : State) (q : Port) (f : Pair → Pair) : (s.modPair q f).cfgOfs = s.cfgOfs := by simp [State.modPair]
@[simp] theorem State.modPair_od (s : State) (q : Port) (f : Pair → Pair) : (s.modPair q f).od = s.od := by simp [State.modPair]
@[simp] theorem State.modPair_host (s : State) (q : Port) (f : Pair → Pair) : (s.modPair q f).host = s.host := by simp [State.modPair]
@[simp] theorem State.modPair_mbox (s : State) (q : Port) (f : Pair → Pair) : (s.modPair q f).mbox = s.mbox := by simp [State.modPair]
@[simp] theorem State.modPair_tide (s : State) (q : Port) (f : Pair → Pair) : (s.modPair q f).tide = s.tide := by simp [State.modPair]
@[simp] theorem State.modPair_time (s : State) (q : Port) (f : Pair → Pair) : (s.modPair q f).time = s.time := by simp [State.modPair]
@[simp] theorem State.modPair_chain (s : State) (q : Port) (f : Pair → Pair) : (s.modPair q f).chain = s.chain := by simp [State.modPair]
@[simp] theorem State.modPair_flash (s : State) (q : Port) (f : Pair → Pair) : (s.modPair q f).flash = s.flash := by simp [State.modPair]
@[simp] theorem State.modPair_otp (s : State) (q : Port) (f : Pair → Pair) : (s.modPair q f).otp = s.otp := by simp [State.modPair]
@[simp] theorem State.modPair_ident (s : State) (q : Port) (f : Pair → Pair) : (s.modPair q f).ident = s.ident := by simp [State.modPair]
@[simp] theorem State.modPair_brew (s : State) (q : Port) (f : Pair → Pair) : (s.modPair q f).brew = s.brew := by simp [State.modPair]
@[simp] theorem State.modPair_hk (s : State) (q : Port) (f : Pair → Pair) : (s.modPair q f).hk = s.hk := by simp [State.modPair]
@[simp] theorem State.modPair_dram (s : State) (q : Port) (f : Pair → Pair) : (s.modPair q f).dram = s.dram := by simp [State.modPair]
@[simp] theorem State.modPair_cask (s : State) (q : Port) (f : Pair → Pair) : (s.modPair q f).cask = s.cask := by simp [State.modPair]
@[simp] theorem State.modPair_caps (s : State) (q : Port) (f : Pair → Pair) : (s.modPair q f).caps = s.caps := by simp [State.modPair]
@[simp] theorem State.modPair_mem (s : State) (q : Port) (f : Pair → Pair) : (s.modPair q f).mem = s.mem := by simp [State.modPair]

/-! ### State.modTiu -/
@[simp] theorem State.modTiu_pending (s : State) (i : Nat) (f : TiuIn → TiuIn) : (s.modTiu i f).pending = s.pending := (rfl)
@[simp] theorem State.modTiu_free (s : State) (i : Nat) (f : TiuIn → TiuIn) : (s.modTiu i f).free = s.free := (rfl)
@[simp] theorem State.modTiu_out (s : State) (i : Nat) (f : TiuIn → TiuIn) : (s.modTiu i f).out = s.out := (rfl)
@[simp] theorem State.modTiu_power (s : State) (i : Nat) (f : TiuIn → TiuIn) : (s.modTiu i f).power = s.power := (rfl)
@[simp] theorem State.modTiu_aon (s : State) (i : Nat) (f : TiuIn → TiuIn) : (s.modTiu i f).aon = s.aon := (rfl)
@[simp] theorem State.modTiu_bwf (s : State) (i : Nat) (f : TiuIn → TiuIn) : (s.modTiu i f).bwf = s.bwf := (rfl)
@[simp] theorem State.modTiu_stats (s : State) (i : Nat) (f : TiuIn → TiuIn) : (s.modTiu i f).stats = s.stats := (rfl)
@[simp] theorem State.modTiu_regs (s : State) (i : Nat) (f : TiuIn → TiuIn) : (s.modTiu i f).regs = s.regs := (rfl)
@[simp] theorem State.modTiu_cfgOfs (s : State) (i : Nat) (f : TiuIn → TiuIn) : (s.modTiu i f).cfgOfs = s.cfgOfs := (rfl)
@[simp] theorem State.modTiu_od (s : State) (i : Nat) (f : TiuIn → TiuIn) : (s.modTiu i f).od = s.od := (rfl)
@[simp] theorem State.modTiu_host (s : State) (i : Nat) (f : TiuIn → TiuIn) : (s.modTiu i f).host = s.host := (rfl)
@[simp] theorem State.modTiu_mbox (s : State) (i : Nat) (f : TiuIn → TiuIn) : (s.modTiu i f).mbox = s.mbox := (rfl)
@[simp] theorem State.modTiu_tide (s : State) (i : Nat) (f : TiuIn → TiuIn) : (s.modTiu i f).tide = s.tide := (rfl)
@[simp] theorem State.modTiu_pa (s : State) (i : Nat) (f : TiuIn → TiuIn) : (s.modTiu i f).pa = s.pa := (rfl)
@[simp] theorem State.modTiu_pb (s : State) (i : Nat) (f : TiuIn → TiuIn) : (s.modTiu i f).pb = s.pb := (rfl)
@[simp] theorem State.modTiu_chain (s : State) (i : Nat) (f : TiuIn → TiuIn) : (s.modTiu i f).chain = s.chain := (rfl)
@[simp] theorem State.modTiu_flash (s : State) (i : Nat) (f : TiuIn → TiuIn) : (s.modTiu i f).flash = s.flash := (rfl)
@[simp] theorem State.modTiu_otp (s : State) (i : Nat) (f : TiuIn → TiuIn) : (s.modTiu i f).otp = s.otp := (rfl)
@[simp] theorem State.modTiu_ident (s : State) (i : Nat) (f : TiuIn → TiuIn) : (s.modTiu i f).ident = s.ident := (rfl)
@[simp] theorem State.modTiu_brew (s : State) (i : Nat) (f : TiuIn → TiuIn) : (s.modTiu i f).brew = s.brew := (rfl)
@[simp] theorem State.modTiu_hk (s : State) (i : Nat) (f : TiuIn → TiuIn) : (s.modTiu i f).hk = s.hk := (rfl)
@[simp] theorem State.modTiu_dram (s : State) (i : Nat) (f : TiuIn → TiuIn) : (s.modTiu i f).dram = s.dram := (rfl)
@[simp] theorem State.modTiu_cask (s : State) (i : Nat) (f : TiuIn → TiuIn) : (s.modTiu i f).cask = s.cask := (rfl)
@[simp] theorem State.modTiu_caps (s : State) (i : Nat) (f : TiuIn → TiuIn) : (s.modTiu i f).caps = s.caps := (rfl)
@[simp] theorem State.modTiu_mem (s : State) (i : Nat) (f : TiuIn → TiuIn) : (s.modTiu i f).mem = s.mem := (rfl)

/-! ### State.takeEvent -/
@[simp] theorem State.takeEvent_pending (s : State) (i : Nat) : (s.takeEvent i).pending = s.pending := (rfl)
@[simp] theorem State.takeEvent_free (s : State) (i : Nat) : (s.takeEvent i).free = s.free := (rfl)
@[simp] theorem State.takeEvent_out (s : State) (i : Nat) : (s.takeEvent i).out = s.out := (rfl)
@[simp] theorem State.takeEvent_power (s : State) (i : Nat) : (s.takeEvent i).power = s.power := (rfl)
@[simp] theorem State.takeEvent_aon (s : State) (i : Nat) : (s.takeEvent i).aon = s.aon := (rfl)
@[simp] theorem State.takeEvent_bwf (s : State) (i : Nat) : (s.takeEvent i).bwf = s.bwf := (rfl)
@[simp] theorem State.takeEvent_stats (s : State) (i : Nat) : (s.takeEvent i).stats = s.stats := (rfl)
@[simp] theorem State.takeEvent_regs (s : State) (i : Nat) : (s.takeEvent i).regs = s.regs := (rfl)
@[simp] theorem State.takeEvent_cfgOfs (s : State) (i : Nat) : (s.takeEvent i).cfgOfs = s.cfgOfs := (rfl)
@[simp] theorem State.takeEvent_od (s : State) (i : Nat) : (s.takeEvent i).od = s.od := (rfl)
@[simp] theorem State.takeEvent_host (s : State) (i : Nat) : (s.takeEvent i).host = s.host := (rfl)
@[simp] theorem State.takeEvent_mbox (s : State) (i : Nat) : (s.takeEvent i).mbox = s.mbox := (rfl)
@[simp] theorem State.takeEvent_tide (s : State) (i : Nat) : (s.takeEvent i).tide = s.tide := (rfl)
@[simp] theorem State.takeEvent_pa (s : State) (i : Nat) : (s.takeEvent i).pa = s.pa := (rfl)
@[simp] theorem State.takeEvent_pb (s : State) (i : Nat) : (s.takeEvent i).pb = s.pb := (rfl)
@[simp] theorem State.takeEvent_chain (s : State) (i : Nat) : (s.takeEvent i).chain = s.chain := (rfl)
@[simp] theorem State.takeEvent_flash (s : State) (i : Nat) : (s.takeEvent i).flash = s.flash := (rfl)
@[simp] theorem State.takeEvent_otp (s : State) (i : Nat) : (s.takeEvent i).otp = s.otp := (rfl)
@[simp] theorem State.takeEvent_ident (s : State) (i : Nat) : (s.takeEvent i).ident = s.ident := (rfl)
@[simp] theorem State.takeEvent_brew (s : State) (i : Nat) : (s.takeEvent i).brew = s.brew := (rfl)
@[simp] theorem State.takeEvent_hk (s : State) (i : Nat) : (s.takeEvent i).hk = s.hk := (rfl)
@[simp] theorem State.takeEvent_dram (s : State) (i : Nat) : (s.takeEvent i).dram = s.dram := (rfl)
@[simp] theorem State.takeEvent_cask (s : State) (i : Nat) : (s.takeEvent i).cask = s.cask := (rfl)
@[simp] theorem State.takeEvent_caps (s : State) (i : Nat) : (s.takeEvent i).caps = s.caps := (rfl)
@[simp] theorem State.takeEvent_mem (s : State) (i : Nat) : (s.takeEvent i).mem = s.mem := (rfl)

/-! ### State.gateEdge -/
@[simp] theorem State.gateEdge_pending (s : State) (n : Nat) (a : Bool) : (s.gateEdge n a).pending = s.pending := (rfl)
@[simp] theorem State.gateEdge_free (s : State) (n : Nat) (a : Bool) : (s.gateEdge n a).free = s.free := (rfl)
@[simp] theorem State.gateEdge_out (s : State) (n : Nat) (a : Bool) : (s.gateEdge n a).out = s.out := (rfl)
@[simp] theorem State.gateEdge_power (s : State) (n : Nat) (a : Bool) : (s.gateEdge n a).power = s.power := (rfl)
@[simp] theorem State.gateEdge_aon (s : State) (n : Nat) (a : Bool) : (s.gateEdge n a).aon = s.aon := (rfl)
@[simp] theorem State.gateEdge_bwf (s : State) (n : Nat) (a : Bool) : (s.gateEdge n a).bwf = s.bwf := (rfl)
@[simp] theorem State.gateEdge_stats (s : State) (n : Nat) (a : Bool) : (s.gateEdge n a).stats = s.stats := (rfl)
@[simp] theorem State.gateEdge_regs (s : State) (n : Nat) (a : Bool) : (s.gateEdge n a).regs = s.regs := (rfl)
@[simp] theorem State.gateEdge_cfgOfs (s : State) (n : Nat) (a : Bool) : (s.gateEdge n a).cfgOfs = s.cfgOfs := (rfl)
@[simp] theorem State.gateEdge_od (s : State) (n : Nat) (a : Bool) : (s.gateEdge n a).od = s.od := (rfl)
@[simp] theorem State.gateEdge_host (s : State) (n : Nat) (a : Bool) : (s.gateEdge n a).host = s.host := (rfl)
@[simp] theorem State.gateEdge_mbox (s : State) (n : Nat) (a : Bool) : (s.gateEdge n a).mbox = s.mbox := (rfl)
@[simp] theorem State.gateEdge_tide (s : State) (n : Nat) (a : Bool) : (s.gateEdge n a).tide = s.tide := (rfl)
@[simp] theorem State.gateEdge_pa (s : State) (n : Nat) (a : Bool) : (s.gateEdge n a).pa = s.pa := (rfl)
@[simp] theorem State.gateEdge_pb (s : State) (n : Nat) (a : Bool) : (s.gateEdge n a).pb = s.pb := (rfl)
@[simp] theorem State.gateEdge_chain (s : State) (n : Nat) (a : Bool) : (s.gateEdge n a).chain = s.chain := (rfl)
@[simp] theorem State.gateEdge_flash (s : State) (n : Nat) (a : Bool) : (s.gateEdge n a).flash = s.flash := (rfl)
@[simp] theorem State.gateEdge_otp (s : State) (n : Nat) (a : Bool) : (s.gateEdge n a).otp = s.otp := (rfl)
@[simp] theorem State.gateEdge_ident (s : State) (n : Nat) (a : Bool) : (s.gateEdge n a).ident = s.ident := (rfl)
@[simp] theorem State.gateEdge_brew (s : State) (n : Nat) (a : Bool) : (s.gateEdge n a).brew = s.brew := (rfl)
@[simp] theorem State.gateEdge_hk (s : State) (n : Nat) (a : Bool) : (s.gateEdge n a).hk = s.hk := (rfl)
@[simp] theorem State.gateEdge_dram (s : State) (n : Nat) (a : Bool) : (s.gateEdge n a).dram = s.dram := (rfl)
@[simp] theorem State.gateEdge_cask (s : State) (n : Nat) (a : Bool) : (s.gateEdge n a).cask = s.cask := (rfl)
@[simp] theorem State.gateEdge_caps (s : State) (n : Nat) (a : Bool) : (s.gateEdge n a).caps = s.caps := (rfl)
@[simp] theorem State.gateEdge_mem (s : State) (n : Nat) (a : Bool) : (s.gateEdge n a).mem = s.mem := (rfl)

/-! ### State.setTimeState -/
@[simp] theorem State.setTimeState_pending (s : State) (n : Nat) : (s.setTimeState n).pending = s.pending := by unfold State.setTimeState; split <;> simp
@[simp] theorem State.setTimeState_free (s : State) (n : Nat) : (s.setTimeState n).free = s.free := by unfold State.setTimeState; split <;> simp
@[simp] theorem State.setTimeState_power (s : State) (n : Nat) : (s.setTimeState n).power = s.power := by unfold State.setTimeState; split <;> simp
@[simp] theorem State.setTimeState_aon (s : State) (n : Nat) : (s.setTimeState n).aon = s.aon := by unfold State.setTimeState; split <;> simp
@[simp] theorem State.setTimeState_bwf (s : State) (n : Nat) : (s.setTimeState n).bwf = s.bwf := by unfold State.setTimeState; split <;> simp
@[simp] theorem State.setTimeState_regs (s : State) (n : Nat) : (s.setTimeState n).regs = s.regs := by unfold State.setTimeState; split <;> simp
@[simp] theorem State.setTimeState_cfgOfs (s : State) (n : Nat) : (s.setTimeState n).cfgOfs = s.cfgOfs := by unfold State.setTimeState; split <;> simp
@[simp] theorem State.setTimeState_od (s : State) (n : Nat) : (s.setTimeState n).od = s.od := by unfold State.setTimeState; split <;> simp
@[simp] theorem State.setTimeState_host (s : State) (n : Nat) : (s.setTimeState n).host = s.host := by unfold State.setTimeState; split <;> simp
@[simp] theorem State.setTimeState_tide (s : State) (n : Nat) : (s.setTimeState n).tide = s.tide := by unfold State.setTimeState; split <;> simp
@[simp] theorem State.setTimeState_pa (s : State) (n : Nat) : (s.setTimeState n).pa = s.pa := by unfold State.setTimeState; split <;> simp
@[simp] theorem State.setTimeState_pb (s : State) (n : Nat) : (s.setTimeState n).pb = s.pb := by unfold State.setTimeState; split <;> simp
@[simp] theorem State.setTimeState_chain (s : State) (n : Nat) : (s.setTimeState n).chain = s.chain := by unfold State.setTimeState; split <;> simp
@[simp] theorem State.setTimeState_flash (s : State) (n : Nat) : (s.setTimeState n).flash = s.flash := by unfold State.setTimeState; split <;> simp
@[simp] theorem State.setTimeState_otp (s : State) (n : Nat) : (s.setTimeState n).otp = s.otp := by unfold State.setTimeState; split <;> simp
@[simp] theorem State.setTimeState_ident (s : State) (n : Nat) : (s.setTimeState n).ident = s.ident := by unfold State.setTimeState; split <;> simp
@[simp] theorem State.setTimeState_brew (s : State) (n : Nat) : (s.setTimeState n).brew = s.brew := by unfold State.setTimeState; split <;> simp
@[simp] theorem State.setTimeState_hk (s : State) (n : Nat) : (s.setTimeState n).hk = s.hk := by unfold State.setTimeState; split <;> simp
@[simp] theorem State.setTimeState_dram (s : State) (n : Nat) : (s.setTimeState n).dram = s.dram := by unfold State.setTimeState; split <;> simp
@[simp] theorem State.setTimeState_cask (s : State) (n : Nat) : (s.setTimeState n).cask = s.cask := by unfold State.setTimeState; split <;> simp
@[simp] theorem State.setTimeState_caps (s : State) (n : Nat) : (s.setTimeState n).caps = s.caps := by unfold State.setTimeState; split <;> simp
@[simp] theorem State.setTimeState_mem (s : State) (n : Nat) : (s.setTimeState n).mem = s.mem := by unfold State.setTimeState; split <;> simp

/-! ### State.synLost -/
@[simp] theorem State.synLost_pending (s : State) (q : Port) : (s.synLost q).pending = s.pending := by unfold State.synLost; simp
@[simp] theorem State.synLost_free (s : State) (q : Port) : (s.synLost q).free = s.free := by unfold State.synLost; simp
@[simp] theorem State.synLost_out (s : State) (q : Port) : (s.synLost q).out = s.out := by unfold State.synLost; simp
@[simp] theorem State.synLost_power (s : State) (q : Port) : (s.synLost q).power = s.power := by unfold State.synLost; simp
@[simp] theorem State.synLost_aon (s : State) (q : Port) : (s.synLost q).aon = s.aon := by unfold State.synLost; simp
@[simp] theorem State.synLost_bwf (s : State) (q : Port) : (s.synLost q).bwf = s.bwf := by unfold State.synLost; simp
@[simp] theorem State.synLost_stats (s : State) (q : Port) : (s.synLost q).stats = s.stats := by unfold State.synLost; simp
@[simp] theorem State.synLost_regs (s : State) (q : Port) : (s.synLost q).regs = s.regs := by unfold State.synLost; simp
@[simp] theorem State.synLost_cfgOfs (s : State) (q : Port) : (s.synLost q).cfgOfs = s.cfgOfs := by unfold State.synLost; simp
@[simp] theorem State.synLost_od (s : State) (q : Port) : (s.synLost q).od = s.od := by unfold State.synLost; simp
@[simp] theorem State.synLost_host (s : State) (q : Port) : (s.synLost q).host = s.host := by unfold State.synLost; simp
@[simp] theorem State.synLost_mbox (s : State) (q : Port) : (s.synLost q).mbox = s.mbox := by unfold State.synLost; simp
@[simp] theorem State.synLost_tide (s : State) (q : Port) : (s.synLost q).tide = s.tide := by unfold State.synLost; simp
@[simp] theorem State.synLost_time (s : State) (q : Port) : (s.synLost q).time = s.time := by unfold State.synLost; simp
@[simp] theorem State.synLost_chain (s : State) (q : Port) : (s.synLost q).chain = s.chain := by unfold State.synLost; simp
@[simp] theorem State.synLost_flash (s : State) (q : Port) : (s.synLost q).flash = s.flash := by unfold State.synLost; simp
@[simp] theorem State.synLost_otp (s : State) (q : Port) : (s.synLost q).otp = s.otp := by unfold State.synLost; simp
@[simp] theorem State.synLost_ident (s : State) (q : Port) : (s.synLost q).ident = s.ident := by unfold State.synLost; simp
@[simp] theorem State.synLost_brew (s : State) (q : Port) : (s.synLost q).brew = s.brew := by unfold State.synLost; simp
@[simp] theorem State.synLost_hk (s : State) (q : Port) : (s.synLost q).hk = s.hk := by unfold State.synLost; simp
@[simp] theorem State.synLost_dram (s : State) (q : Port) : (s.synLost q).dram = s.dram := by unfold State.synLost; simp
@[simp] theorem State.synLost_cask (s : State) (q : Port) : (s.synLost q).cask = s.cask := by unfold State.synLost; simp
@[simp] theorem State.synLost_caps (s : State) (q : Port) : (s.synLost q).caps = s.caps := by unfold State.synLost; simp
@[simp] theorem State.synLost_mem (s : State) (q : Port) : (s.synLost q).mem = s.mem := by unfold State.synLost; simp

/-! ### State.darken -/
@[simp] theorem State.darken_pending (s : State) (q : Port) : (s.darken q).pending = s.pending := by unfold State.darken; simp
@[simp] theorem State.darken_free (s : State) (q : Port) : (s.darken q).free = s.free := by unfold State.darken; simp
@[simp] theorem State.darken_out (s : State) (q : Port) : (s.darken q).out = s.out := by unfold State.darken; simp
@[simp] theorem State.darken_power (s : State) (q : Port) : (s.darken q).power = s.power := by unfold State.darken; simp
@[simp] theorem State.darken_aon (s : State) (q : Port) : (s.darken q).aon = s.aon := by unfold State.darken; simp
@[simp] theorem State.darken_bwf (s : State) (q : Port) : (s.darken q).bwf = s.bwf := by unfold State.darken; simp
@[simp] theorem State.darken_stats (s : State) (q : Port) : (s.darken q).stats = s.stats := by unfold State.darken; simp
@[simp] theorem State.darken_regs (s : State) (q : Port) : (s.darken q).regs = s.regs := by unfold State.darken; simp
@[simp] theorem State.darken_cfgOfs (s : State) (q : Port) : (s.darken q).cfgOfs = s.cfgOfs := by unfold State.darken; simp
@[simp] theorem State.darken_od (s : State) (q : Port) : (s.darken q).od = s.od := by unfold State.darken; simp
@[simp] theorem State.darken_host (s : State) (q : Port) : (s.darken q).host = s.host := by unfold State.darken; simp
@[simp] theorem State.darken_mbox (s : State) (q : Port) : (s.darken q).mbox = s.mbox := by unfold State.darken; simp
@[simp] theorem State.darken_tide (s : State) (q : Port) : (s.darken q).tide = s.tide := by unfold State.darken; simp
@[simp] theorem State.darken_time (s : State) (q : Port) : (s.darken q).time = s.time := by unfold State.darken; simp
@[simp] theorem State.darken_chain (s : State) (q : Port) : (s.darken q).chain = s.chain := by unfold State.darken; simp
@[simp] theorem State.darken_flash (s : State) (q : Port) : (s.darken q).flash = s.flash := by unfold State.darken; simp
@[simp] theorem State.darken_otp (s : State) (q : Port) : (s.darken q).otp = s.otp := by unfold State.darken; simp
@[simp] theorem State.darken_ident (s : State) (q : Port) : (s.darken q).ident = s.ident := by unfold State.darken; simp
@[simp] theorem State.darken_brew (s : State) (q : Port) : (s.darken q).brew = s.brew := by unfold State.darken; simp
@[simp] theorem State.darken_hk (s : State) (q : Port) : (s.darken q).hk = s.hk := by unfold State.darken; simp
@[simp] theorem State.darken_dram (s : State) (q : Port) : (s.darken q).dram = s.dram := by unfold State.darken; simp
@[simp] theorem State.darken_cask (s : State) (q : Port) : (s.darken q).cask = s.cask := by unfold State.darken; simp
@[simp] theorem State.darken_caps (s : State) (q : Port) : (s.darken q).caps = s.caps := by unfold State.darken; simp
@[simp] theorem State.darken_mem (s : State) (q : Port) : (s.darken q).mem = s.mem := by unfold State.darken; simp

/-! ### State.manualBias -/
@[simp] theorem State.manualBias_pending (s : State) (q : Port) : (s.manualBias q).pending = s.pending := by unfold State.manualBias; split <;> simp
@[simp] theorem State.manualBias_free (s : State) (q : Port) : (s.manualBias q).free = s.free := by unfold State.manualBias; split <;> simp
@[simp] theorem State.manualBias_out (s : State) (q : Port) : (s.manualBias q).out = s.out := by unfold State.manualBias; split <;> simp
@[simp] theorem State.manualBias_power (s : State) (q : Port) : (s.manualBias q).power = s.power := by unfold State.manualBias; split <;> simp
@[simp] theorem State.manualBias_aon (s : State) (q : Port) : (s.manualBias q).aon = s.aon := by unfold State.manualBias; split <;> simp
@[simp] theorem State.manualBias_bwf (s : State) (q : Port) : (s.manualBias q).bwf = s.bwf := by unfold State.manualBias; split <;> simp
@[simp] theorem State.manualBias_stats (s : State) (q : Port) : (s.manualBias q).stats = s.stats := by unfold State.manualBias; split <;> simp
@[simp] theorem State.manualBias_regs (s : State) (q : Port) : (s.manualBias q).regs = s.regs := by unfold State.manualBias; split <;> simp
@[simp] theorem State.manualBias_cfgOfs (s : State) (q : Port) : (s.manualBias q).cfgOfs = s.cfgOfs := by unfold State.manualBias; split <;> simp
@[simp] theorem State.manualBias_od (s : State) (q : Port) : (s.manualBias q).od = s.od := by unfold State.manualBias; split <;> simp
@[simp] theorem State.manualBias_host (s : State) (q : Port) : (s.manualBias q).host = s.host := by unfold State.manualBias; split <;> simp
@[simp] theorem State.manualBias_mbox (s : State) (q : Port) : (s.manualBias q).mbox = s.mbox := by unfold State.manualBias; split <;> simp
@[simp] theorem State.manualBias_tide (s : State) (q : Port) : (s.manualBias q).tide = s.tide := by unfold State.manualBias; split <;> simp
@[simp] theorem State.manualBias_time (s : State) (q : Port) : (s.manualBias q).time = s.time := by unfold State.manualBias; split <;> simp
@[simp] theorem State.manualBias_chain (s : State) (q : Port) : (s.manualBias q).chain = s.chain := by unfold State.manualBias; split <;> simp
@[simp] theorem State.manualBias_flash (s : State) (q : Port) : (s.manualBias q).flash = s.flash := by unfold State.manualBias; split <;> simp
@[simp] theorem State.manualBias_otp (s : State) (q : Port) : (s.manualBias q).otp = s.otp := by unfold State.manualBias; split <;> simp
@[simp] theorem State.manualBias_ident (s : State) (q : Port) : (s.manualBias q).ident = s.ident := by unfold State.manualBias; split <;> simp
@[simp] theorem State.manualBias_brew (s : State) (q : Port) : (s.manualBias q).brew = s.brew := by unfold State.manualBias; split <;> simp
@[simp] theorem State.manualBias_hk (s : State) (q : Port) : (s.manualBias q).hk = s.hk := by unfold State.manualBias; split <;> simp
@[simp] theorem State.manualBias_dram (s : State) (q : Port) : (s.manualBias q).dram = s.dram := by unfold State.manualBias; split <;> simp
@[simp] theorem State.manualBias_cask (s : State) (q : Port) : (s.manualBias q).cask = s.cask := by unfold State.manualBias; split <;> simp
@[simp] theorem State.manualBias_caps (s : State) (q : Port) : (s.manualBias q).caps = s.caps := by unfold State.manualBias; split <;> simp
@[simp] theorem State.manualBias_mem (s : State) (q : Port) : (s.manualBias q).mem = s.mem := by unfold State.manualBias; split <;> simp

/-! ### State.modEgr -/
@[simp] theorem State.modEgr_pending (s : State) (q : LinkPort) (f : Egress → Egress) : (s.modEgr q f).pending = s.pending := (rfl)
@[simp] theorem State.modEgr_free (s : State) (q : LinkPort) (f : Egress → Egress) : (s.modEgr q f).free = s.free := (rfl)
@[simp] theorem State.modEgr_out (s : State) (q : LinkPort) (f : Egress → Egress) : (s.modEgr q f).out = s.out := (rfl)
@[simp] theorem State.modEgr_power (s : State) (q : LinkPort) (f : Egress → Egress) : (s.modEgr q f).power = s.power := (rfl)
@[simp] theorem State.modEgr_aon (s : State) (q : LinkPort) (f : Egress → Egress) : (s.modEgr q f).aon = s.aon := (rfl)
@[simp] theorem State.modEgr_bwf (s : State) (q : LinkPort) (f : Egress → Egress) : (s.modEgr q f).bwf = s.bwf := (rfl)
@[simp] theorem State.modEgr_stats (s : State) (q : LinkPort) (f : Egress → Egress) : (s.modEgr q f).stats = s.stats := (rfl)
@[simp] theorem State.modEgr_regs (s : State) (q : LinkPort) (f : Egress → Egress) : (s.modEgr q f).regs = s.regs := (rfl)
@[simp] theorem State.modEgr_cfgOfs (s : State) (q : LinkPort) (f : Egress → Egress) : (s.modEgr q f).cfgOfs = s.cfgOfs := (rfl)
@[simp] theorem State.modEgr_od (s : State) (q : LinkPort) (f : Egress → Egress) : (s.modEgr q f).od = s.od := (rfl)
@[simp] theorem State.modEgr_host (s : State) (q : LinkPort) (f : Egress → Egress) : (s.modEgr q f).host = s.host := (rfl)
@[simp] theorem State.modEgr_mbox (s : State) (q : LinkPort) (f : Egress → Egress) : (s.modEgr q f).mbox = s.mbox := (rfl)
@[simp] theorem State.modEgr_tide (s : State) (q : LinkPort) (f : Egress → Egress) : (s.modEgr q f).tide = s.tide := (rfl)
@[simp] theorem State.modEgr_pa (s : State) (q : LinkPort) (f : Egress → Egress) : (s.modEgr q f).pa = s.pa := (rfl)
@[simp] theorem State.modEgr_pb (s : State) (q : LinkPort) (f : Egress → Egress) : (s.modEgr q f).pb = s.pb := (rfl)
@[simp] theorem State.modEgr_time (s : State) (q : LinkPort) (f : Egress → Egress) : (s.modEgr q f).time = s.time := (rfl)
@[simp] theorem State.modEgr_flash (s : State) (q : LinkPort) (f : Egress → Egress) : (s.modEgr q f).flash = s.flash := (rfl)
@[simp] theorem State.modEgr_otp (s : State) (q : LinkPort) (f : Egress → Egress) : (s.modEgr q f).otp = s.otp := (rfl)
@[simp] theorem State.modEgr_ident (s : State) (q : LinkPort) (f : Egress → Egress) : (s.modEgr q f).ident = s.ident := (rfl)
@[simp] theorem State.modEgr_brew (s : State) (q : LinkPort) (f : Egress → Egress) : (s.modEgr q f).brew = s.brew := (rfl)
@[simp] theorem State.modEgr_hk (s : State) (q : LinkPort) (f : Egress → Egress) : (s.modEgr q f).hk = s.hk := (rfl)
@[simp] theorem State.modEgr_dram (s : State) (q : LinkPort) (f : Egress → Egress) : (s.modEgr q f).dram = s.dram := (rfl)
@[simp] theorem State.modEgr_cask (s : State) (q : LinkPort) (f : Egress → Egress) : (s.modEgr q f).cask = s.cask := (rfl)
@[simp] theorem State.modEgr_caps (s : State) (q : LinkPort) (f : Egress → Egress) : (s.modEgr q f).caps = s.caps := (rfl)
@[simp] theorem State.modEgr_mem (s : State) (q : LinkPort) (f : Egress → Egress) : (s.modEgr q f).mem = s.mem := (rfl)

/-! ### State.usePn -/
@[simp] theorem State.usePn_pending (s : State) (q : LinkPort) (f : Frame) : (s.usePn q f).pending = s.pending := by cases q <;> rfl
@[simp] theorem State.usePn_free (s : State) (q : LinkPort) (f : Frame) : (s.usePn q f).free = s.free := by cases q <;> rfl
@[simp] theorem State.usePn_out (s : State) (q : LinkPort) (f : Frame) : (s.usePn q f).out = s.out := by cases q <;> rfl
@[simp] theorem State.usePn_power (s : State) (q : LinkPort) (f : Frame) : (s.usePn q f).power = s.power := by cases q <;> rfl
@[simp] theorem State.usePn_aon (s : State) (q : LinkPort) (f : Frame) : (s.usePn q f).aon = s.aon := by cases q <;> rfl
@[simp] theorem State.usePn_bwf (s : State) (q : LinkPort) (f : Frame) : (s.usePn q f).bwf = s.bwf := by cases q <;> rfl
@[simp] theorem State.usePn_stats (s : State) (q : LinkPort) (f : Frame) : (s.usePn q f).stats = s.stats := by cases q <;> rfl
@[simp] theorem State.usePn_regs (s : State) (q : LinkPort) (f : Frame) : (s.usePn q f).regs = s.regs := by cases q <;> rfl
@[simp] theorem State.usePn_cfgOfs (s : State) (q : LinkPort) (f : Frame) : (s.usePn q f).cfgOfs = s.cfgOfs := by cases q <;> rfl
@[simp] theorem State.usePn_od (s : State) (q : LinkPort) (f : Frame) : (s.usePn q f).od = s.od := by cases q <;> rfl
@[simp] theorem State.usePn_host (s : State) (q : LinkPort) (f : Frame) : (s.usePn q f).host = s.host := by cases q <;> rfl
@[simp] theorem State.usePn_mbox (s : State) (q : LinkPort) (f : Frame) : (s.usePn q f).mbox = s.mbox := by cases q <;> rfl
@[simp] theorem State.usePn_tide (s : State) (q : LinkPort) (f : Frame) : (s.usePn q f).tide = s.tide := by cases q <;> rfl
@[simp] theorem State.usePn_pa (s : State) (q : LinkPort) (f : Frame) : (s.usePn q f).pa = s.pa := by cases q <;> rfl
@[simp] theorem State.usePn_pb (s : State) (q : LinkPort) (f : Frame) : (s.usePn q f).pb = s.pb := by cases q <;> rfl
@[simp] theorem State.usePn_time (s : State) (q : LinkPort) (f : Frame) : (s.usePn q f).time = s.time := by cases q <;> rfl
@[simp] theorem State.usePn_flash (s : State) (q : LinkPort) (f : Frame) : (s.usePn q f).flash = s.flash := by cases q <;> rfl
@[simp] theorem State.usePn_otp (s : State) (q : LinkPort) (f : Frame) : (s.usePn q f).otp = s.otp := by cases q <;> rfl
@[simp] theorem State.usePn_ident (s : State) (q : LinkPort) (f : Frame) : (s.usePn q f).ident = s.ident := by cases q <;> rfl
@[simp] theorem State.usePn_brew (s : State) (q : LinkPort) (f : Frame) : (s.usePn q f).brew = s.brew := by cases q <;> rfl
@[simp] theorem State.usePn_hk (s : State) (q : LinkPort) (f : Frame) : (s.usePn q f).hk = s.hk := by cases q <;> rfl
@[simp] theorem State.usePn_dram (s : State) (q : LinkPort) (f : Frame) : (s.usePn q f).dram = s.dram := by cases q <;> rfl
@[simp] theorem State.usePn_cask (s : State) (q : LinkPort) (f : Frame) : (s.usePn q f).cask = s.cask := by cases q <;> rfl
@[simp] theorem State.usePn_caps (s : State) (q : LinkPort) (f : Frame) : (s.usePn q f).caps = s.caps := by cases q <;> rfl
@[simp] theorem State.usePn_mem (s : State) (q : LinkPort) (f : Frame) : (s.usePn q f).mem = s.mem := by cases q <;> rfl

/-! ### State.emitFrame -/
@[simp] theorem State.emitFrame_pending (s : State) (q : LinkPort) (f : Frame) : (s.emitFrame q f).pending = s.pending := by simp [State.emitFrame]
@[simp] theorem State.emitFrame_free (s : State) (q : LinkPort) (f : Frame) : (s.emitFrame q f).free = s.free := by simp [State.emitFrame]
@[simp] theorem State.emitFrame_power (s : State) (q : LinkPort) (f : Frame) : (s.emitFrame q f).power = s.power := by simp [State.emitFrame]
@[simp] theorem State.emitFrame_aon (s : State) (q : LinkPort) (f : Frame) : (s.emitFrame q f).aon = s.aon := by simp [State.emitFrame]
@[simp] theorem State.emitFrame_bwf (s : State) (q : LinkPort) (f : Frame) : (s.emitFrame q f).bwf = s.bwf := by simp [State.emitFrame]
@[simp] theorem State.emitFrame_stats (s : State) (q : LinkPort) (f : Frame) : (s.emitFrame q f).stats = s.stats := by simp [State.emitFrame]
@[simp] theorem State.emitFrame_regs (s : State) (q : LinkPort) (f : Frame) : (s.emitFrame q f).regs = s.regs := by simp [State.emitFrame]
@[simp] theorem State.emitFrame_cfgOfs (s : State) (q : LinkPort) (f : Frame) : (s.emitFrame q f).cfgOfs = s.cfgOfs := by simp [State.emitFrame]
@[simp] theorem State.emitFrame_od (s : State) (q : LinkPort) (f : Frame) : (s.emitFrame q f).od = s.od := by simp [State.emitFrame]
@[simp] theorem State.emitFrame_host (s : State) (q : LinkPort) (f : Frame) : (s.emitFrame q f).host = s.host := by simp [State.emitFrame]
@[simp] theorem State.emitFrame_mbox (s : State) (q : LinkPort) (f : Frame) : (s.emitFrame q f).mbox = s.mbox := by simp [State.emitFrame]
@[simp] theorem State.emitFrame_tide (s : State) (q : LinkPort) (f : Frame) : (s.emitFrame q f).tide = s.tide := by simp [State.emitFrame]
@[simp] theorem State.emitFrame_pa (s : State) (q : LinkPort) (f : Frame) : (s.emitFrame q f).pa = s.pa := by simp [State.emitFrame]
@[simp] theorem State.emitFrame_pb (s : State) (q : LinkPort) (f : Frame) : (s.emitFrame q f).pb = s.pb := by simp [State.emitFrame]
@[simp] theorem State.emitFrame_time (s : State) (q : LinkPort) (f : Frame) : (s.emitFrame q f).time = s.time := by simp [State.emitFrame]
@[simp] theorem State.emitFrame_flash (s : State) (q : LinkPort) (f : Frame) : (s.emitFrame q f).flash = s.flash := by simp [State.emitFrame]
@[simp] theorem State.emitFrame_otp (s : State) (q : LinkPort) (f : Frame) : (s.emitFrame q f).otp = s.otp := by simp [State.emitFrame]
@[simp] theorem State.emitFrame_ident (s : State) (q : LinkPort) (f : Frame) : (s.emitFrame q f).ident = s.ident := by simp [State.emitFrame]
@[simp] theorem State.emitFrame_brew (s : State) (q : LinkPort) (f : Frame) : (s.emitFrame q f).brew = s.brew := by simp [State.emitFrame]
@[simp] theorem State.emitFrame_hk (s : State) (q : LinkPort) (f : Frame) : (s.emitFrame q f).hk = s.hk := by simp [State.emitFrame]
@[simp] theorem State.emitFrame_dram (s : State) (q : LinkPort) (f : Frame) : (s.emitFrame q f).dram = s.dram := by simp [State.emitFrame]
@[simp] theorem State.emitFrame_cask (s : State) (q : LinkPort) (f : Frame) : (s.emitFrame q f).cask = s.cask := by simp [State.emitFrame]
@[simp] theorem State.emitFrame_caps (s : State) (q : LinkPort) (f : Frame) : (s.emitFrame q f).caps = s.caps := by simp [State.emitFrame]
@[simp] theorem State.emitFrame_mem (s : State) (q : LinkPort) (f : Frame) : (s.emitFrame q f).mem = s.mem := by simp [State.emitFrame]

/-! ### State.noteSpan -/
@[simp] theorem State.noteSpan_pending (s : State) (f : Frame) : (s.noteSpan f).pending = s.pending := (rfl)
@[simp] theorem State.noteSpan_free (s : State) (f : Frame) : (s.noteSpan f).free = s.free := (rfl)
@[simp] theorem State.noteSpan_out (s : State) (f : Frame) : (s.noteSpan f).out = s.out := (rfl)
@[simp] theorem State.noteSpan_power (s : State) (f : Frame) : (s.noteSpan f).power = s.power := (rfl)
@[simp] theorem State.noteSpan_aon (s : State) (f : Frame) : (s.noteSpan f).aon = s.aon := (rfl)
@[simp] theorem State.noteSpan_bwf (s : State) (f : Frame) : (s.noteSpan f).bwf = s.bwf := (rfl)
@[simp] theorem State.noteSpan_stats (s : State) (f : Frame) : (s.noteSpan f).stats = s.stats := (rfl)
@[simp] theorem State.noteSpan_regs (s : State) (f : Frame) : (s.noteSpan f).regs = s.regs := (rfl)
@[simp] theorem State.noteSpan_cfgOfs (s : State) (f : Frame) : (s.noteSpan f).cfgOfs = s.cfgOfs := (rfl)
@[simp] theorem State.noteSpan_od (s : State) (f : Frame) : (s.noteSpan f).od = s.od := (rfl)
@[simp] theorem State.noteSpan_host (s : State) (f : Frame) : (s.noteSpan f).host = s.host := (rfl)
@[simp] theorem State.noteSpan_mbox (s : State) (f : Frame) : (s.noteSpan f).mbox = s.mbox := (rfl)
@[simp] theorem State.noteSpan_tide (s : State) (f : Frame) : (s.noteSpan f).tide = s.tide := (rfl)
@[simp] theorem State.noteSpan_pa (s : State) (f : Frame) : (s.noteSpan f).pa = s.pa := (rfl)
@[simp] theorem State.noteSpan_pb (s : State) (f : Frame) : (s.noteSpan f).pb = s.pb := (rfl)
@[simp] theorem State.noteSpan_time (s : State) (f : Frame) : (s.noteSpan f).time = s.time := (rfl)
@[simp] theorem State.noteSpan_flash (s : State) (f : Frame) : (s.noteSpan f).flash = s.flash := (rfl)
@[simp] theorem State.noteSpan_otp (s : State) (f : Frame) : (s.noteSpan f).otp = s.otp := (rfl)
@[simp] theorem State.noteSpan_ident (s : State) (f : Frame) : (s.noteSpan f).ident = s.ident := (rfl)
@[simp] theorem State.noteSpan_brew (s : State) (f : Frame) : (s.noteSpan f).brew = s.brew := (rfl)
@[simp] theorem State.noteSpan_hk (s : State) (f : Frame) : (s.noteSpan f).hk = s.hk := (rfl)
@[simp] theorem State.noteSpan_dram (s : State) (f : Frame) : (s.noteSpan f).dram = s.dram := (rfl)
@[simp] theorem State.noteSpan_cask (s : State) (f : Frame) : (s.noteSpan f).cask = s.cask := (rfl)
@[simp] theorem State.noteSpan_caps (s : State) (f : Frame) : (s.noteSpan f).caps = s.caps := (rfl)
@[simp] theorem State.noteSpan_mem (s : State) (f : Frame) : (s.noteSpan f).mem = s.mem := (rfl)

/-! ### State.tellWrite -/
@[simp] theorem State.tellWrite_pending (s : State) (n : Nat) : (s.tellWrite n).pending = s.pending := by unfold State.tellWrite; split <;> simp
@[simp] theorem State.tellWrite_free (s : State) (n : Nat) : (s.tellWrite n).free = s.free := by unfold State.tellWrite; split <;> simp
@[simp] theorem State.tellWrite_power (s : State) (n : Nat) : (s.tellWrite n).power = s.power := by unfold State.tellWrite; split <;> simp
@[simp] theorem State.tellWrite_aon (s : State) (n : Nat) : (s.tellWrite n).aon = s.aon := by unfold State.tellWrite; split <;> simp
@[simp] theorem State.tellWrite_bwf (s : State) (n : Nat) : (s.tellWrite n).bwf = s.bwf := by unfold State.tellWrite; split <;> simp
@[simp] theorem State.tellWrite_stats (s : State) (n : Nat) : (s.tellWrite n).stats = s.stats := by unfold State.tellWrite; split <;> simp
@[simp] theorem State.tellWrite_regs (s : State) (n : Nat) : (s.tellWrite n).regs = s.regs := by unfold State.tellWrite; split <;> simp
@[simp] theorem State.tellWrite_cfgOfs (s : State) (n : Nat) : (s.tellWrite n).cfgOfs = s.cfgOfs := by unfold State.tellWrite; split <;> simp
@[simp] theorem State.tellWrite_od (s : State) (n : Nat) : (s.tellWrite n).od = s.od := by unfold State.tellWrite; split <;> simp
@[simp] theorem State.tellWrite_host (s : State) (n : Nat) : (s.tellWrite n).host = s.host := by unfold State.tellWrite; split <;> simp
@[simp] theorem State.tellWrite_mbox (s : State) (n : Nat) : (s.tellWrite n).mbox = s.mbox := by unfold State.tellWrite; split <;> simp
@[simp] theorem State.tellWrite_tide (s : State) (n : Nat) : (s.tellWrite n).tide = s.tide := by unfold State.tellWrite; split <;> simp
@[simp] theorem State.tellWrite_pa (s : State) (n : Nat) : (s.tellWrite n).pa = s.pa := by unfold State.tellWrite; split <;> simp
@[simp] theorem State.tellWrite_pb (s : State) (n : Nat) : (s.tellWrite n).pb = s.pb := by unfold State.tellWrite; split <;> simp
@[simp] theorem State.tellWrite_time (s : State) (n : Nat) : (s.tellWrite n).time = s.time := by unfold State.tellWrite; split <;> simp
@[simp] theorem State.tellWrite_chain (s : State) (n : Nat) : (s.tellWrite n).chain = s.chain := by unfold State.tellWrite; split <;> simp
@[simp] theorem State.tellWrite_flash (s : State) (n : Nat) : (s.tellWrite n).flash = s.flash := by unfold State.tellWrite; split <;> simp
@[simp] theorem State.tellWrite_otp (s : State) (n : Nat) : (s.tellWrite n).otp = s.otp := by unfold State.tellWrite; split <;> simp
@[simp] theorem State.tellWrite_ident (s : State) (n : Nat) : (s.tellWrite n).ident = s.ident := by unfold State.tellWrite; split <;> simp
@[simp] theorem State.tellWrite_brew (s : State) (n : Nat) : (s.tellWrite n).brew = s.brew := by unfold State.tellWrite; split <;> simp
@[simp] theorem State.tellWrite_hk (s : State) (n : Nat) : (s.tellWrite n).hk = s.hk := by unfold State.tellWrite; split <;> simp
@[simp] theorem State.tellWrite_dram (s : State) (n : Nat) : (s.tellWrite n).dram = s.dram := by unfold State.tellWrite; split <;> simp
@[simp] theorem State.tellWrite_cask (s : State) (n : Nat) : (s.tellWrite n).cask = s.cask := by unfold State.tellWrite; split <;> simp
@[simp] theorem State.tellWrite_caps (s : State) (n : Nat) : (s.tellWrite n).caps = s.caps := by unfold State.tellWrite; split <;> simp
@[simp] theorem State.tellWrite_mem (s : State) (n : Nat) : (s.tellWrite n).mem = s.mem := by unfold State.tellWrite; split <;> simp

/-! ### State.memFreed -/
@[simp] theorem State.memFreed_pending (s : State) : (s.memFreed).pending = s.pending := (rfl)
@[simp] theorem State.memFreed_free (s : State) : (s.memFreed).free = s.free := (rfl)
@[simp] theorem State.memFreed_out (s : State) : (s.memFreed).out = s.out := (rfl)
@[simp] theorem State.memFreed_power (s : State) : (s.memFreed).power = s.power := (rfl)
@[simp] theorem State.memFreed_aon (s : State) : (s.memFreed).aon = s.aon := (rfl)
@[simp] theorem State.memFreed_bwf (s : State) : (s.memFreed).bwf = s.bwf := (rfl)
@[simp] theorem State.memFreed_stats (s : State) : (s.memFreed).stats = s.stats := (rfl)
@[simp] theorem State.memFreed_regs (s : State) : (s.memFreed).regs = s.regs := (rfl)
@[simp] theorem State.memFreed_cfgOfs (s : State) : (s.memFreed).cfgOfs = s.cfgOfs := (rfl)
@[simp] theorem State.memFreed_od (s : State) : (s.memFreed).od = s.od := (rfl)
@[simp] theorem State.memFreed_host (s : State) : (s.memFreed).host = s.host := (rfl)
@[simp] theorem State.memFreed_mbox (s : State) : (s.memFreed).mbox = s.mbox := (rfl)
@[simp] theorem State.memFreed_tide (s : State) : (s.memFreed).tide = s.tide := (rfl)
@[simp] theorem State.memFreed_pa (s : State) : (s.memFreed).pa = s.pa := (rfl)
@[simp] theorem State.memFreed_pb (s : State) : (s.memFreed).pb = s.pb := (rfl)
@[simp] theorem State.memFreed_time (s : State) : (s.memFreed).time = s.time := (rfl)
@[simp] theorem State.memFreed_chain (s : State) : (s.memFreed).chain = s.chain := (rfl)
@[simp] theorem State.memFreed_flash (s : State) : (s.memFreed).flash = s.flash := (rfl)
@[simp] theorem State.memFreed_otp (s : State) : (s.memFreed).otp = s.otp := (rfl)
@[simp] theorem State.memFreed_ident (s : State) : (s.memFreed).ident = s.ident := (rfl)
@[simp] theorem State.memFreed_hk (s : State) : (s.memFreed).hk = s.hk := (rfl)
@[simp] theorem State.memFreed_dram (s : State) : (s.memFreed).dram = s.dram := (rfl)
@[simp] theorem State.memFreed_cask (s : State) : (s.memFreed).cask = s.cask := (rfl)
@[simp] theorem State.memFreed_caps (s : State) : (s.memFreed).caps = s.caps := (rfl)
@[simp] theorem State.memFreed_mem (s : State) : (s.memFreed).mem = s.mem := (rfl)

/-! ### State.useFree -/
@[simp] theorem State.useFree_pending (s : State) : (s.useFree).pending = s.pending := (rfl)
@[simp] theorem State.useFree_out (s : State) : (s.useFree).out = s.out := (rfl)
@[simp] theorem State.useFree_power (s : State) : (s.useFree).power = s.power := (rfl)
@[simp] theorem State.useFree_aon (s : State) : (s.useFree).aon = s.aon := (rfl)
@[simp] theorem State.useFree_bwf (s : State) : (s.useFree).bwf = s.bwf := (rfl)
@[simp] theorem State.useFree_stats (s : State) : (s.useFree).stats = s.stats := (rfl)
@[simp] theorem State.useFree_regs (s : State) : (s.useFree).regs = s.regs := (rfl)
@[simp] theorem State.useFree_cfgOfs (s : State) : (s.useFree).cfgOfs = s.cfgOfs := (rfl)
@[simp] theorem State.useFree_od (s : State) : (s.useFree).od = s.od := (rfl)
@[simp] theorem State.useFree_host (s : State) : (s.useFree).host = s.host := (rfl)
@[simp] theorem State.useFree_mbox (s : State) : (s.useFree).mbox = s.mbox := (rfl)
@[simp] theorem State.useFree_tide (s : State) : (s.useFree).tide = s.tide := (rfl)
@[simp] theorem State.useFree_pa (s : State) : (s.useFree).pa = s.pa := (rfl)
@[simp] theorem State.useFree_pb (s : State) : (s.useFree).pb = s.pb := (rfl)
@[simp] theorem State.useFree_time (s : State) : (s.useFree).time = s.time := (rfl)
@[simp] theorem State.useFree_chain (s : State) : (s.useFree).chain = s.chain := (rfl)
@[simp] theorem State.useFree_flash (s : State) : (s.useFree).flash = s.flash := (rfl)
@[simp] theorem State.useFree_otp (s : State) : (s.useFree).otp = s.otp := (rfl)
@[simp] theorem State.useFree_ident (s : State) : (s.useFree).ident = s.ident := (rfl)
@[simp] theorem State.useFree_brew (s : State) : (s.useFree).brew = s.brew := (rfl)
@[simp] theorem State.useFree_hk (s : State) : (s.useFree).hk = s.hk := (rfl)
@[simp] theorem State.useFree_dram (s : State) : (s.useFree).dram = s.dram := (rfl)
@[simp] theorem State.useFree_cask (s : State) : (s.useFree).cask = s.cask := (rfl)
@[simp] theorem State.useFree_caps (s : State) : (s.useFree).caps = s.caps := (rfl)
@[simp] theorem State.useFree_mem (s : State) : (s.useFree).mem = s.mem := (rfl)

/-- An egress is changed by its own update and by no other. -/
@[simp] theorem State.egr_modEgr (s : State) (q r : LinkPort) (f : Egress → Egress) :
    (s.modEgr q f).egr r = if r = q then f (s.egr q) else s.egr r := by cases q <;> cases r <;> rfl

/-- A free value taken is the counter's, and the counter goes on. -/
@[simp] theorem State.takeFree_snd_free (s : State) : s.takeFree.2.free = s.free + 1 := (rfl)

/-- A posted write over PCIe is told nothing of a bus error (R411). -/
@[simp] theorem State.tellWrite_pcie (s : State) : s.tellWrite 21 = s := by simp [State.tellWrite]

end Sys2Proof.Machine
end

