-- ==== Sys2Proof/WellFormed.lean ====
section
/-! DEFINITION. Well-formed commands: every operand within what its field, its register or its rule can hold. A meaning never
relies on it; a sender that keeps to the spec sends nothing else. -/
namespace Sys2Proof

/-- A number below its bound. -/
def fits (bound n : Nat) : Bool := decide (n < bound)

/-- The endpoints that reset independently (R432). -/
def isReset (e : Nat) : Bool := e == 6 || e == 7 || e == 8

/-- The endpoints of the host paths (R432). -/
def isHostEnd (e : Nat) : Bool := e == 6 || e == 7

/-- A fabric address of a 256-bit line (R262). -/
def lineAddr (a : Nat) : Bool := fits (2 ^ 40) a && a % 32 == 0

/-- Part of one line. -/
def inLine (a n : Nat) : Bool := fits (2 ^ 40) a && decide (0 < n) && decide (a % 32 + n ≤ 32)

/-- Inverted bits by line of a 40-bit address space, positions of a 288-bit codeword. -/
def wfErrs (l : List (Nat × List Nat)) : Bool := l.all (fun e => fits (2 ^ 35) e.1 && e.2.all (fits 288))

/-- A dictionary request's caller (R387). -/
def OdCaller.wf (c : OdCaller) : Bool :=
  fits (2 ^ 48) c.source && fits 65536 c.transaction && fits (2 ^ 32) c.session && fits 65536 c.node

/-- An object's key (R376). -/
def OdKey.wf (k : OdKey) : Bool := fits 65536 k.idx && fits 256 k.sub

/-- Widths of an access, bytes (R409). -/
def isWidth (n : Nat) : Bool := [1, 2, 4, 8].contains n

/-- A fabric access (R406): 40-bit addresses, initiators of 5 bits. -/
def Access.wf (a : Access) : Bool := fits 32 a.init && fits (2 ^ 40) a.addr && isWidth a.width

/-- Who asks. -/
def Via.wf : Via → Bool
  | .od c => c.wf
  | .reg init => fits 32 init

/-- An Ibend frame's header fields (R337). -/
def Frame.wf (f : Frame) : Bool :=
  fits 5 f.cls && fits 256 f.type && fits 1024 f.dst && fits 1024 f.src && fits 1024 f.hops && fits 65536 f.epoch
    && fits (2 ^ 32) f.seq && fits 1485 f.payload.length

/-- A vector operand (R203). -/
def VSrc.wf : VSrc → Bool
  | .v n => fits 16 n
  | _ => true

/-- An X or Y move: 16 to 128 bits of a vector register (R205). -/
def Move.wf (m : Move) : Bool := fits 8 m.ag && [2, 4, 8, 16].contains m.bytes && fits 16 m.reg && decide (m.ofs + m.bytes ≤ 16)

/-- The moves of an instruction. -/
def Moves.wf (m : Moves) : Bool := m.x.all Move.wf && m.y.all Move.wf

/-- A scalar access to cluster memory (R205, R210). -/
def ScalarMem.wf (m : ScalarMem) : Bool := [1, 2, 4].contains m.bytes && fits 16 m.addr && fits 16 m.reg

/-- An accumulator move (R207). -/
def AccOp.wf : AccOp → Bool
  | .move dst shift _ _ _ _ => fits 16 dst && fits 48 shift
  | _ => true

/-- A branch target in program memory (R203). -/
def Jump.wf : Jump → Bool
  | .branch t => fits 4096 t
  | .call t => fits 4096 t
  | .ret => true

/-- A branch condition. -/
def Cond.wf : Cond → Bool
  | .always => true
  | .zero s => fits 16 s
  | .nonzero s => fits 16 s
  | .negative s => fits 16 s

/-- An address generator's set-up (R208). -/
def AgSetup.wf (g : AgSetup) : Bool := fits 2 g.mem && fits 3 g.mode

/-- A core DMA descriptor (R203). -/
def DmaDesc.wf (d : DmaDesc) : Bool := fits 7 d.src && fits 5 d.dst

/-- Codes of `n` converters: 12-bit two's complement, as many from each (R83, R84). -/
def codesWf (n : Nat) (l : List (List Int)) : Bool :=
  l.length == n && l.all (fun c => c.length == (l.headD []).length && c.all (fun x => decide (-2048 ≤ x) && decide (x ≤ 2047)))

/-- A launch's record: the codes of four converters. -/
def SlotRecord.wf (r : SlotRecord) : Bool := codesWf 4 r.codes

/-- A Kiln record: the codes of two. -/
def KilnRecord.wf (r : KilnRecord) : Bool := codesWf 2 r.codes

/-- A well-formed command. -/
def Instr.wf (i : Instr) : Bool :=
  match i with
  | .tideEdge res _ _ => fits 8 res
  | .firstTideStart res => fits 8 res
  | .tideSlip res _ _ => fits 8 res
  | .launch _ j => fits 65536 j
  | .planCheck c _ => OdCaller.wf c
  | .stageDeadlineOverrun stage => fits 5 stage
  | .laserEnable c _ => OdCaller.wf c
  | .laserDisable c _ => OdCaller.wf c
  | .laserSettleExpiry _ => true
  | .portStopComplete _ => true
  | .biasTrackEntry _ => true
  | .biasReacquire _ => true
  | .biasAcquireFail _ => true
  | .pumpRampDone _ => true
  | .latencyCalibrationDone _ _ _ => true
  | .enterLive _ => true
  | .launchMissing _ _ => true
  | .laserFollowStep _ => true
  | .laserFollowPilotFound _ => true
  | .laserFollowSweepFail _ => true
  | .interlockOpen => true
  | .interlockClose => true
  | .txMute init _ v => fits 32 init && fits (2 ^ 32) v
  | .rxForegroundCal _ _ => true
  | .rxForegroundCalDone _ _ _ _ => true
  | .rxBackgroundCalRun _ _ _ => true
  | .rxCalStale _ _ => true
  | .rxCalHold init _ v => fits 32 init && fits (2 ^ 32) v
  | .swashLaunchRecords _ r => SlotRecord.wf r
  | .swRestart init _ v => fits 32 init && fits (2 ^ 32) v
  | .swAlignHold init _ v => fits 32 init && fits (2 ^ 32) v
  | .decimatedRecord _ c _ => fits 2 c
  | .bankLoad c _ ch b v => OdCaller.wf c && fits 2 ch && fits 2 b && fits 65536 v.length
  | .bankSelect c _ ch b => OdCaller.wf c && fits 2 ch && fits 2 b
  | .bankSwap _ c => fits 2 c
  | .lauterRecord _ _ => true
  | .kilnShot _ r _ => KilnRecord.wf r
  | .kilnAccumulationStart _ => true
  | .kilnAccumulationComplete _ => true
  | .kilnFitDispatch _ => true
  | .kilnFitComplete _ _ => true
  | .kilnFitOverrun _ _ _ => true
  | .kilnProfileAssembly _ => true
  | .kilnAccRestart init _ v => fits 32 init && fits (2 ^ 32) v
  | .shapeCal c _ => OdCaller.wf c
  | .shapeCalDone _ => true
  | .freqRefCalRun _ _ => true
  | .detectionDispatch _ => true
  | .detectionCoreEnd _ c => fits 16 c
  | .trackingDispatch => true
  | .trackRecord _ => true
  | .coreAbortTimeout c => fits 16 c
  | .coreException c _ _ => fits 16 c
  | .coreStopTimeout c => fits 16 c
  | .brewStreamInput _ => true
  | .programImage c p v _ => OdCaller.wf c && fits 4 p && fits 65536 v.length
  | .programRun c p => OdCaller.wf c && fits 4 p
  | .programStop c p => OdCaller.wf c && fits 4 p
  | .vectorMultiplyAccumulate c _ _ _ _ dst a b m => fits 16 c && fits 8 dst && VSrc.wf a && VSrc.wf b && Moves.wf m
  | .vectorArithmeticLogic c _ _ _ dst a b d m => fits 16 c && fits 16 dst && VSrc.wf a && VSrc.wf b && VSrc.wf d && Moves.wf m
  | .accumulatorMove c src op m => fits 16 c && fits 8 src && AccOp.wf op && Moves.wf m
  | .search c _ _ _ src _ m => fits 16 c && VSrc.wf src && Moves.wf m
  | .searchReset c _ _ _ m => fits 16 c && Moves.wf m
  | .searchRead c dstV dstI m => fits 16 c && fits 16 dstV && fits 16 dstI && Moves.wf m
  | .scalarOperation c _ _ dst dst2 a b m => fits 16 c && fits 16 dst && fits 16 dst2 && fits 16 a && fits 16 b && Moves.wf m
  | .memoryMove c mem m => fits 16 c && mem.all ScalarMem.wf && Moves.wf m
  | .addressGeneratorSetup c n g m => fits 16 c && fits 8 n && AgSetup.wf g && Moves.wf m
  | .branchCallReturn c j cond m => fits 16 c && Jump.wf j && Cond.wf cond && Moves.wf m
  | .hardwareLoop c last _ m => fits 16 c && fits 4096 last && Moves.wf m
  | .waitForEvent c m => fits 16 c && Moves.wf m
  | .halt c m => fits 16 c && Moves.wf m
  | .queueCoreDma c desc m => fits 16 c && DmaDesc.wf desc && Moves.wf m
  | .waitDmaCompletion c left m => fits 16 c && fits 5 left && Moves.wf m
  | .coreDmaComplete c _ => fits 16 c
  | .publishOutputRecord c _ m => fits 16 c && Moves.wf m
  | .ringEntryWrite _ _ => true
  | .gapMarkerWrite _ c => fits 5 c
  | .triggerDetection _ => true
  | .triggerEvtInput n => fits 2 n
  | .triggerTime c d t => OdCaller.wf c && fits 16 d && fits (2 ^ 64) t
  | .triggerTrunkMessage _ f => Frame.wf f
  | .triggerQueueServe _ => true
  | .captureFreeze d => fits 16 d
  | .captureArm c d => OdCaller.wf c && fits 16 d
  | .captureDisarm c d => OdCaller.wf c && fits 16 d
  | .captureRelease c d => OdCaller.wf c && fits 16 d
  | .exportRaw c d => OdCaller.wf c && fits 16 d
  | .exportCaskPcie c d => OdCaller.wf c && fits 16 d
  | .exportCaskTrunk c d => OdCaller.wf c && fits 16 d
  | .exportAbort c d => OdCaller.wf c && fits 16 d
  | .exportJobEnd d _ errs => fits 16 d && wfErrs errs
  | .dramTraining _ => true
  | .zqShortCal => true
  | .refreshDue ch cs _ => fits 4 ch && fits 2 cs
  | .postponedRefreshIssue ch cs => fits 4 ch && fits 2 cs
  | .dramTemperaturePoll _ => true
  | .dramRead init addr flips _ _ => fits 32 init && fits (2 ^ 40) addr && flips.all (fits 288)
  | .dramWrite init addr data tag _ flips _ => fits 32 init && lineAddr addr && data.length == 32 && fits 8 tag && flips.all (fits 288)
  | .dramPartialWrite init addr data tag _ tflips flips _ _ => tflips.all (fits 288) && fits 32 init && fits (2 ^ 40) addr && inLine addr data.length && fits 8 tag && flips.all (fits 288)
  | .powerDownEntry ch cs => fits 4 ch && fits 2 cs
  | .scrubLine flips _ _ => flips.all (fits 288)
  | .ceWindowExpiry => true
  | .rankRetire c rank => OdCaller.wf c && fits 12 rank
  | .migrationCopyEnd ch errs => fits 4 ch && wfErrs errs
  | .caskSubmit init e v => fits 32 init && fits 3 e && fits (2 ^ 32) v
  | .caskJobStart e => fits 3 e
  | .caskJobEnd e errs => fits 3 e && wfErrs errs
  | .caskAbort init e => fits 32 init && fits 3 e
  | .caskDisableFlush init e => fits 32 init && fits 3 e
  | .ocxoWarm _ _ _ => true
  | .ocxoAlarm _ => true
  | .pllLock which => fits 3 which
  | .pllLossOfLock which => fits 3 which
  | .synthUnlock _ => true
  | .synthRelock _ => true
  | .servoSample _ => true
  | .timeLock => true
  | .timeHoldover at_ => fits (2 ^ 64) at_
  | .holdoverLimit => true
  | .rtcWriteBack => true
  | .gnssWaitExpiry => true
  | .ptpSyncSend _ _ _ => true
  | .pdelayReqSend => true
  | .announceSend => true
  | .ptpEventFrame _ _ _ seq _ _ _ _ _ _ => fits 65536 seq
  | .todSentence _ _ _ _ at_ => fits (2 ^ 64) at_
  | .ppsEdge => true
  | .tiuEvent inp t _ => fits 6 inp && fits (2 ^ 74) t
  | .lmonEvent _ => true
  | .tiuShortPulse inp => fits 6 inp
  | .tiuDeadTimeDrop inp t _ => fits 6 inp && fits (2 ^ 74) t
  | .tiuStuck inp => fits 6 inp
  | .measArm v => Via.wf v
  | .measModeOff c => OdCaller.wf c
  | .interpCalRun inp _ _ _ _ => fits 6 inp
  | .interpCalStale inp at_ => fits 6 inp && fits (2 ^ 64) at_
  | .tiuTsAuxRead init wd => fits 32 init && isWidth wd
  | .ibendFrameReceive _ f _ at_ _ _ => Frame.wf f && fits (2 ^ 64) at_
  | .keepaliveSend => true
  | .linkLoss _ _ => true
  | .linkUp _ peer => fits 1024 peer
  | .topologyFrame _ f _ => Frame.wf f
  | .ringRestore _ => true
  | .heartbeatReceive _ f => Frame.wf f
  | .managerTimeout => true
  | .managerListenEnd => true
  | .joinFrame _ f _ => Frame.wf f
  | .epochRequest c lead _ => OdCaller.wf c && fits 65536 lead
  | .prepare _ f => Frame.wf f
  | .acknowledgement _ f => Frame.wf f
  | .cancel _ f => Frame.wf f
  | .epochAnswerDeadline => true
  | .epochApply => true
  | .resynchronise _ => true
  | .faultReport _ f => Frame.wf f
  | .faultClear c key => OdCaller.wf c && fits (2 ^ 32) key
  | .pairStatus _ f => Frame.wf f
  | .partnerUnreachable _ => true
  | .pilotFrameReceive _ _ _ => true
  | .pilotLoss _ _ at_ => fits (2 ^ 64) at_
  | .takeoverApply _ => true
  | .forceTakeover c _ => OdCaller.wf c
  | .breakPositionReport _ => true
  | .pairYield _ => true
  | .pairRestoreHold _ => true
  | .handoffReceive _ _ f => Frame.wf f
  | .handoffAck _ _ f => Frame.wf f
  | .handoffTimeout _ _ => true
  | .keyExchangeFrame _ f => Frame.wf f
  | .keyExchangeTimeout _ => true
  | .keyExchangeRetry _ => true
  | .rekey _ => true
  | .rekeyRetry _ => true
  | .oldAssociationExpiry _ => true
  | .chnDisable init => fits 32 init
  | .odRead c k => OdCaller.wf c && OdKey.wf k
  | .odWrite c k v _ => OdCaller.wf c && OdKey.wf k && fits 65536 v.length
  | .odBroadcastWrite c k v _ => OdCaller.wf c && OdKey.wf k && fits 65536 v.length
  | .odInfo c k => OdCaller.wf c && OdKey.wf k
  | .odUploadStart c k => OdCaller.wf c && OdKey.wf k
  | .odUploadSegment c k ofs => OdCaller.wf c && OdKey.wf k && fits (2 ^ 32) ofs
  | .odDownloadStart c k total crc => OdCaller.wf c && OdKey.wf k && fits (2 ^ 32) total && fits (2 ^ 32) crc
  | .odDownloadSegment c k ofs v _ => OdCaller.wf c && OdKey.wf k && fits (2 ^ 32) ofs && fits 65536 v.length
  | .odTransferAbort c k => OdCaller.wf c && OdKey.wf k
  | .odOpenSession c level token => OdCaller.wf c && fits 256 level && fits 65536 token.length
  | .odCloseSession c => OdCaller.wf c
  | .odUnsupportedService c k svc v => OdCaller.wf c && OdKey.wf k && fits 256 svc && fits 65536 v.length
  | .odForwardTimeout c node => OdCaller.wf c && fits 1024 node
  | .sessionExpiry num => fits (2 ^ 32) num
  | .transferIdleTimeout key => fits (2 ^ 32) key
  | .uploadSnapshotTimeout _ source key => fits (2 ^ 48) source && fits (2 ^ 32) key
  | .storeCommit _ => true
  | .storeNow c _ => OdCaller.wf c
  | .storeRetry _ => true
  | .restoreDefaults c => OdCaller.wf c
  | .dictionaryCarrierPost e w0 w1 w2 w3 _ _ => isHostEnd e && fits (2 ^ 32) w0 && fits (2 ^ 32) w1 && fits (2 ^ 32) w2 && fits (2 ^ 32) w3
  | .registerWrite a v => Access.wf a && fits (2 ^ 64) v
  | .seqStatusWrite a v => Access.wf a && fits (2 ^ 64) v
  | .tideNumLoRead init wd => fits 32 init && isWidth wd
  | .indDataRead init wd _ => fits 32 init && isWidth wd
  | .indDataWrite init v => fits 32 init && fits (2 ^ 32) v
  | .mbPost init e d len => fits 32 init && fits 9 e && fits 9 d && fits 16 len
  | .mbRxHdrRead init wd e src => fits 32 init && fits 9 e && fits 9 src && isWidth wd
  | .mbDbPendRead init wd e => fits 32 init && fits 9 e && isWidth wd
  | .mbDbClr init e v => fits 32 init && fits 9 e && fits (2 ^ 32) v
  | .mbDbRing init e v => fits 32 init && fits 9 e && fits (2 ^ 32) v
  | .endpointReset e => isReset e
  | .semRead init wd n => fits 32 init && fits 32 n && isWidth wd
  | .semWrite init n v => fits 32 init && fits 32 n && fits (2 ^ 32) v
  | .pcieReset => true
  | .exportRingEntry => true
  | .exportVector n => fits 8 n
  | .exportRingRpWrite init n v => fits 32 init && fits 8 n && fits (2 ^ 32) v
  | .spiWriteFrame b => fits 263 b.length
  | .spiReadFrame b => b.length == 6
  | .spiResetFrame => true
  | .spiFrameAbort b n => fits 263 b.length && fits 65 n
  | .hkSlotConversion slot _ _ _ => fits 32 slot
  | .hkScanPassStart => true
  | .auxDataRead init wd _ => fits 32 init && isWidth wd
  | .injectInput v e => Via.wf v && fits 64 e
  | .hkSelfCal v => v.all Via.wf
  | .hkSelfCalDone _ _ g1 g2 => fits 65536 g1 && fits 65536 g2
  | .hkSelfCalStale => true
  | .sysCalZero c input => OdCaller.wf c && fits 64 input
  | .sysCalFull c input => OdCaller.wf c && fits 64 input
  | .sysCalDone _ _ => true
  | .refinLost => true
  | .refrdy => true
  | .bridgeConversionEnd n _ => fits 2 n
  | .bridgeResult n => fits 2 n
  | .bridgeBreakDetect n _ _ _ _ => fits 2 n
  | .dacTrimRun _ _ => true
  | .attestChallenge c v => OdCaller.wf c && fits 65536 v.length
  | .deviceCertificate c v => OdCaller.wf c && fits 65536 v.length
  | .ownerKey c v _ => OdCaller.wf c && fits 65536 v.length
  | .ownerUnlock c v => OdCaller.wf c && fits 65536 v.length
  | .ownerRelease c v => OdCaller.wf c && fits 65536 v.length
  | .ownerTransfer c v => OdCaller.wf c && fits 65536 v.length
  | .ownerLock c => OdCaller.wf c
  | .updateToken c v => OdCaller.wf c && fits 65536 v.length
  | .updateDisarm c => OdCaller.wf c
  | .updateApplyRestart c => OdCaller.wf c
  | .updateApplyNextStart c => OdCaller.wf c
  | .updateForceFallback c => OdCaller.wf c
  | .imageInstall _ => true
  | .confirm who => who.all OdCaller.wf
  | .confirmTimeout => true
  | .fallback => true
  | .boot _ => true
  | .porstAssert => true
  | .porstRelease straps _ => fits (2 ^ 13) straps
  | .sysrst _ => true
  | .brownOut => true
  | .domainSwitchOn d => fits 12 d
  | .safeHoldClear c => OdCaller.wf c
  | .resetRequest c => OdCaller.wf c
  | .bwfResetReq init => fits 32 init
  | .standbyRequest v _ => Via.wf v
  | .wakeN _ => true
  | .rtcAlarmWake => true
  | .vmainOkFall => true
  | .mainLossDelay _ => true
  | .vmainOkRise => true
  | .thermalPoll _ _ => true
  | .tamperEdge input _ => fits 2 input
  | .vbatLoss => true
  | .fatalFault unit inst num => fits 256 unit && fits 16 inst && fits 256 num
  | .containedFault unit inst num => fits 256 unit && fits 16 inst && fits 256 num
  | .correctedFault => true
  | .faultLogDrain => true
  | .bwfLogRead init wd => fits 32 init && isWidth wd
  | .watchdogKick init v => fits 32 init && fits (2 ^ 32) v
  | .mgmtWatchdogKick init v => fits 32 init && fits (2 ^ 32) v
  | .watchdogFirstExpiry cp => fits 4 cp
  | .watchdogSecondExpiry cp => fits 4 cp
  | .mgmtWatchdogExpiry => true
  | .fabricTransactionTimeout init addr _ => fits 32 init && fits (2 ^ 40) addr
  | .fullResetRelease straps _ => fits (2 ^ 13) straps
  | .freqRefCalPeriod _ => true
  | .localPortLinkChange _ => true
  | .resetRequestNoTide => true

end Sys2Proof
end

