-- ==== Sys2Proof/Tests/Slice0.lean ====
section
/-! SUPPORT. Tests: small states that meet each statement's hypotheses, and checks of single steps. -/
namespace Sys2Proof.Tests
set_option Elab.async false
open Sys2Proof Sys2Proof.Machine

/-! ## Small states -/

/-- A standalone unit that runs: both ports enabled with an active plan, every domain on, the interlock closed. -/
def W.run : State :=
  { State.reset with
    power := { phase := .running, straps := 0xC00, domains := 0xFFF, porstLow := false, ilockOpen := false, ocxoRdy := true
               pllS := true, pllD := true, pllF := true }
    tide := { running := true, num := 1000, edge := 4000000000 }
    time := { now := 4000000000, state := 1, tideRan := true }
    pa := { hasPlan := true }, pb := { hasPlan := true } }

/-- The same with both ports' optics set. -/
def W.opt (o : Optics) : State := { W.run with pa := { W.run.pa with opt := o }, pb := { W.run.pb with opt := o } }

/-- A caller over PCIe. -/
def W.own : OdCaller := ⟨.pcie, 0, 1, 0, 0, false⟩

/-- A launch of slot 0 at the Tide's edge, made by a Live port. -/
def W.l0 : Launch :=
  { tide := 1000, nth := 0, j := 0, slot := 0, ell := 0, time := 4000000000, epoch := 0, dark := false, tuning := false, tone := true
    late := false, missing := false, biasUnlock := false, calStale := false, timeFree := false, incomplete := false
    cfg := W.run.cfg .a }

/-- The same with a short record and one point. -/
def W.ls : Launch := { W.l0 with cfg := { W.l0.cfg with w := 64, c := 25, b := 0, n := 1, r0 := 2, refStart := 0, refLen := 1 } }

/-- Port A is Live with one launch in flight. -/
def W.flying : State := (W.opt { state := 6 }).modPort .a (fun p => { p with flight := [W.l0] })

/-- Port A follows and its laser is on. -/
def W.follow : State := ((W.opt { state := 3 }).setObj 0x2100 7 (u8 1)).modLaser .a (fun x => { x with en := true })


/-- What W.l0 gave. -/
def W.sl0 : SwLaunch :=
  { l := { W.l0 with cfg := { W.l0.cfg with dec0 := { en := true, preset := 0, count := 1, dest := 1 } } }, words := [1], quals := [15]
    restart := false, refSub := false }

/-- Port A's decimation channel 0 has a launch to put out. -/
def W.decim : State := (W.run.setRegBit (winRx .a) 0x300 0 true).modSw .a (fun w => { w with out := [W.sl0] })

/-- Both ports are Live, their Kiln engines on, with a slot 0 launch in flight. -/
def W.kiln : State :=
  ((((W.opt { state := 6 }).setObj 0x4010 1 (u8 1)).setObj 0x4810 1 (u8 1)).setRegBit (winKiln .a) 0 0 true |>.setRegBit (winKiln .b) 0 0 true).modBoth
    (fun _ p => { p with kiln := { flight := [W.l0] }, rx := { kfgPass := true }, syn := { on := true, locked := true, steps := 27 } })

/-- A completed accumulation of one bin. -/
def W.fit : KilnFit :=
  { acc := { cfg := { bins := 1 }, cells := [[1]] }, seq := 1, synHz := ⟨0, 0⟩, eSyn := 0, anchor := none, coilT := none, zones := []
    shape := none, calStale := false }

/-- Port A's fit is queued and the fit pool has core 9. -/
def W.fitting : State :=
  let s := ((W.run.setRegBit 0x20 0 0 true).setReg 0x20 0x18 32).modKiln .a (fun k => { k with fits := [W.fit] })
  { s with brew := { s.brew with fitQueue := [.a] } }

/-- Core 3 runs an instruction stream. -/
def W.core : State := (W.run.setRegBit 0x20 0 0 true).modCore 3 (fun k => { k with running := true })

/-- A Lauter record of two groups. -/
def W.laut : LautRec := ⟨W.l0, 0, false, false, 1, 1, [(65535, [300]), (65535, [200])]⟩

/-- Port A's detection has a record, and its pool cores 1 and 2. -/
def W.detect : State :=
  (((W.run.setRegBit 0x20 0 0 true).setReg 0x20 0x14 72).setObj 0x6010 1 (u8 1)).modPort .a
    (fun p => { p with lautRec := some W.laut, det := { p.det with ge := 2, changes := [(0, true)] } })

/-- A detection record. -/
def W.drec : DetRec := { time := 0, tide := 999, epoch := 0, entries := [], flags := 0, groups := 2, group := 1, evaluated := true, nth := 0, cfg := W.l0.cfg }

/-- Port A's detection has ended, and the tracking pool is core 5. -/
def W.track : State :=
  (((W.run.setRegBit 0x20 0 0 true).setReg 0x20 0x14 98304).setObj 0x6030 1 (u8 1)).modDet .a (fun d => { d with done := some W.drec })

/-- A quality record on its way to a program, and the program. -/
def W.ring : RingRec := ⟨0, 2, 0, 0, [1, 2], 0, 0⟩
def W.prog : Program := { state := 2, hdr := { subA := 2, ringA := 64 } }

/-- Program 2 runs and subscribes to port A's quality records, one of which waits. -/
def W.stream : State :=
  ((W.run.setRegBit 0x20 0 0 true).modProg 2 (fun _ => W.prog)).modPort .a (fun p => { p with brewIn := [W.ring] })

/-- Trained DRAM: one channel of one rank. -/
def W.dram : State :=
  (W.run.setRegBit 0x2A 0 0 true).modDram (fun d => { d with trained := true, chans := [0] })

/-- A record of the phase-rate ring. -/
def W.rec : RingRec := ⟨0, 1, 4000000000, 32000, [7], 4000000000, 0⟩

/-- Port A's phase-rate ring: eight segments of 1 MiB, and a record that waits. -/
def W.cellar : State :=
  ((W.dram.setRegBit (winCel .a) 0 0 true).modRing .a 0 (fun r => { r with base := 0x1000, segBytes := 0x100000, n := 8 })).modPort .a
    (fun p => { p with celIn := [W.rec] })

/-- The run of launches from Tide 1000 on. -/
def W.prun : PlanRun := ⟨4000000000, 1000, 4, 32, 0, 32000, 0, 0⟩

/-- Capture descriptor 0 names a source, and port A's Cellar knows its launches. -/
def W.capSrc (source : Nat) : State :=
  ((W.cellar.setObj (capIndex 0) 2 (u8 source)).setObj (capIndex 0) 9 (u8 255)).modCel .a (fun k => { k with runs := [W.prun] })

/-- A detection record with an entry that triggers. -/
def W.trec : DetRec := { W.drec with time := 4000000000, tide := 1000, entries := [⟨0, 0, 0, 9999, 1, 0⟩] }

/-- A frame to every node that brings a type and fields. -/
def W.frame (cls type : Nat) (fields : List Nat) : Frame := ⟨cls, type, false, false, 0, 3, 1, 0, 1, [], fields⟩

/-- Both trunks are up and the link agent runs. -/
def W.linked (s : State) : State :=
  (s.setRegBit 0x39 0 0 true).modChain (fun c => { c with w := { c.w with up := true }, e := { c.e with up := true } })

/-- A queued trigger of descriptor 0, which is armed, and the entry of its launch. -/
def W.trg : Trigger := ⟨0, 5, .a, 0, 32000, 0, 4000000000, false, none⟩
def W.rent : RingEntry := ⟨0, 64, 1, 0, 4000000000, 32000, 0, 4000000000, false, 0⟩
def W.queued : State :=
  (((W.capSrc 5).modCel .a (fun k => { k with queue := [W.trg] })).modCap 0 (fun k => { k with state := 1 })).modRing .a 0
    (fun r => { r with segs := [(0, { entries := [W.rent] })], fill := 64, count := 1 })

/-- Engine CMP0 is enabled; a descriptor waits, or its job runs. -/
def W.cask : State := (W.run.setRegBit 0x30 0 0 true).modEng 0 (fun e => { e with queue := [poolBase] })
def W.caskJob : State := (W.run.setRegBit 0x30 0 0 true).modEng 0 (fun e => { e with job := some (caskParse poolBase (zeros 64)) })

/-- A manager that is not acting, and an acting one with both trunks up. -/
def W.manager : State :=
  ({ W.run with power := { W.run.power with straps := 0xC02 } } : State).setObj 0x1200 0xD (u8 1)
def W.master : State := (W.linked W.manager).modChain (fun c => { c with iAct := true })

/-- The same as grandmaster. -/
def W.gm : State := W.master.modTime (fun t => { t with gmOn := true })

/-- The GNSS input is on and a PPS edge has come. -/
def W.gnss : State := (W.run.setObj 0x1220 1 (u8 1)).modTime (fun t => { t with lastPps := some 4000000000000, edgeAt := some 4000000000000 })

/-- A series of a mode is armed on input 2. -/
def W.series (mode : Nat) : State :=
  (W.run.setRegBit 0x38 4 0 true).modSeries (fun r => { r with state := 1, mode := mode, start := 2, stop := 2, gate := 0, n := 5, taken := 0 })

/-- Node 5 of a chain, with a role, both trunks up. -/
def W.node (role : Nat) : State :=
  W.linked ({ W.run with power := { W.run.power with straps := 0xC00 + 4 * 5 + role } } : State)

/-- A node whose ports are not enabled: its plan check has nothing to refuse. -/
def W.sound : State := { W.run with power := { W.run.power with straps := 0 } }
def W.member : State :=
  (W.linked ({ W.run with power := { W.run.power with straps := 4 * 5 + 1 } } : State)).modChain (fun c => { c with acting := 3, state := 2 })

/-- A pending epoch. -/
def W.pend : EpochPend := ⟨1, 1000, [], false, 1, 0, []⟩

/-- Port A is paired with port B of node 3. -/
def W.paired (state : Nat) : State :=
  (((W.node 1).setObj 0x7010 1 (u8 2)).setObj 0x7010 2 (u16 3)).modPort .a (fun p => { p with pair := { p.pair with state := state, present := true } })

/-- Port A has handed track 9 on. -/
def W.handing : State := (W.paired 2).modPort .a (fun p => { p with pair := { p.pair with open_ := [⟨9, 990⟩] } })

/-! ## Signatures of the private number 1, with the nonce 7, worked out by hand from FIPS 186 -/

/-- The public key of the private number 1: the generator. -/
def W.key : List Byte := 4 :: (beBytes 32 ecGx ++ beBytes 32 ecGy)

/-- A signature of W.key whose second half is `x`. -/
def W.sig (x : Nat) : List Byte :=
  beBytes 32 0x8E533B6FA0BF7B4625BB30667C01FB607EF9F8B8A80FEF5B300628703187B2A3 ++ beBytes 32 x

/-- A token (R471) for every time, signed. -/
def W.token (kind level scope counter : Nat) (subject : List Byte) (x : Nat) : List Byte :=
  u32 0x4E4B4F54 ++ [1, BitVec.ofNat 8 kind, BitVec.ofNat 8 level, 0] ++ List.replicate 8 (BitVec.ofNat 8 scope) ++ zeros 8
    ++ u64 (2 ^ 63) ++ u32 counter ++ zeros 4 ++ subject ++ W.sig x
def W.tokSession : List Byte := W.token 1 2 255 0 (zeros 32) 0x7893AA3125C9FF9F45EA831F51902BBA18F3244F66EE94678E72C46B0AED4A90
def W.tokUnlock : List Byte := W.token 3 0 0 1 (zeros 32) 0x206D1ECD5455ADF800C6A7C239BCF2D2CF0F00B837ADF1551089CCA41497376A
def W.tokTransfer : List Byte :=
  W.token 4 0 0 1 (sha256 W.key) 0xEE4F63BD375DFEA51507A3A0CC2F97016123E7969B62A9B9D60C259071EFBDA2
def W.tokRelease : List Byte := W.token 5 0 0 1 (zeros 32) 0x1F4B78E24AE6D87E3D89770A6D99D424F3C5BFB9EFB8731EADA6F5F13652680A
def W.tokUpdate : List Byte := W.token 2 0 255 0 (sha256 []) 0xBBF9E072831D0A139A5FBC3784D2270B6BB0F4DF03A017572B5B5FC8DD76158F

/-- An image of no payload (R478), signed. -/
def W.image : List Byte :=
  u32 0x59585246 ++ u16 1 ++ u16 0x9140 ++ u8 0x42 ++ zeros 55 ++ sha256 [] ++ zeros 96
    ++ W.sig 0x12DB8D6F2DFDC1F7E538C629052BA4829105082B2AFDADEE2CF323D467A3261F

/-- A device whose owner has W.key, locked or not. -/
def W.owned (locked : Bool) : State :=
  { W.run with otp := { W.run.otp with certHash := zeros 32 }, flash := { W.run.flash with owner := some ⟨W.key, 0, locked, true⟩ } }


/-- The row of an object. -/
def W.row (idx sub : Nat) : ObjRow := (W.run.row idx sub).getD
  { idx := 0, sub := 0, n := 0, ty := .u8, acc := .ro, wp := 255, ap := .immediate, pers := false, rng := .full, dflt := .none, maxLen := 0, name := "" }

/-- A record at the export DMA, which ring 0 takes. -/
def W.exp : ExportRec := ⟨1, .a, 2, 0, 0, [7], false⟩
def W.exports : State :=
  let s := W.run.setReg 3 0x108 0x90000002
  { s with host := { s.host with expIn := [W.exp] } }

/-- The housekeeping converter is on and its reference settled. -/
def W.hk : State := (W.run.setRegBit 0x40 0 0 true).modHk (fun h => { h with refRdy := true })

/-- The caller's session 5 is open, at a level. -/
def W.session (level : Nat) (s : State) : State :=
  s.modOd (fun o => { o with sessions := [⟨5, .pcie, 0, level, 2 ^ 63⟩] })

/-- An image is staged; one runs on trial. -/
def W.staged : State := W.run.modIdent (fun i => { i with stageState := 2 })
def W.trial : State := W.run.modIdent (fun i => { i with imageState := 1, running := W.image })

/-- A start has begun; with DRAM trained and W.key as the ROM's first key. -/
def W.starting : State := State.reset.beginStart 0xC00 ⟨false, true, true⟩
def W.boot : State :=
  { W.starting with
    power := { W.starting.power with pllS := true, pllD := true, pllF := true }, dram := { W.starting.dram with trained := true }
    otp := { W.starting.otp with romKeys := [W.key] } }

/-- The Breakwater is enabled, every watchdog with it. -/
def W.bwf : State := W.run.setReg 0x48 0 0xF1

/-- An unlisted status register aside, SYS_STAT's bit 0 stands at the greatest age. -/
def W.seqs : State := State.reset.setStat stSys ⟨130, [(0, 3)]⟩

/-- An image awaits confirmation, and firmware's own conditions hold. -/
def W.awaiting : State :=
  { W.trial with
    tide := { W.trial.tide with ran := true }
    ident := { W.trial.ident with running := W.image.take 16 ++ [3, 0, 0, 0] ++ W.image.drop 20 } }
def W.confirmed : State := W.awaiting.confirm.2
theorem W.awaiting_confirm : exec (.confirm none) W.awaiting = .next W.confirmed := by
  have h : (W.awaiting.up && W.awaiting.ident.imageState == 1 && W.awaiting.autoConfirmOk) = true := by decide +kernel
  simp only [exec, execConfirm, h, if_true, W.confirmed]


def W.meas : PortMeas := ⟨[], 0, none, 0xFFFF, ⟨[], [], [], []⟩⟩
def W.fr : Frame := ⟨0, 0, false, false, 0, 0, 0, 0, 0, [], []⟩

/-! ## Well-formedness refuses an ill-formed term, for each of its checks -/

theorem test_wf_refuses_0 :
    ([.tideEdge (2^80 : Nat) (W.meas : PortMeas) (W.meas : PortMeas),
     .firstTideStart (2^80 : Nat),
     .tideSlip (2^80 : Nat) (W.meas : PortMeas) (W.meas : PortMeas),
     .launch (.a : Port) (2^80 : Nat),
     .planCheck ({ W.own with transaction := 65536 } : OdCaller) (.a : Port),
     .planCheck ({ W.own with node := 65536 } : OdCaller) (.a : Port),
     .stageDeadlineOverrun (2^80 : Nat),
     .txMute (2^80 : Nat) (.a : Port) (0 : Nat)] : List Instr).all (fun i => !i.wf) = true := by decide +kernel

theorem test_wf_refuses_1 :
    ([.txMute (1 : Nat) (.a : Port) (2^80 : Nat),
     .rxCalHold (2^80 : Nat) (.a : Port) (0 : Nat),
     .rxCalHold (1 : Nat) (.a : Port) (2^80 : Nat),
     .swAlignHold (2^80 : Nat) (.a : Port) (0 : Nat),
     .swAlignHold (1 : Nat) (.a : Port) (2^80 : Nat),
     .swRestart (2^80 : Nat) (.b : Port) (0 : Nat),
     .swRestart (1 : Nat) (.b : Port) (2^80 : Nat),
     .kilnAccRestart (2^80 : Nat) (.b : Port) (0 : Nat)] : List Instr).all (fun i => !i.wf) = true := by decide +kernel

theorem test_wf_refuses_2 :
    ([.kilnAccRestart (1 : Nat) (.b : Port) (2^80 : Nat),
     .decimatedRecord (.a : Port) (2^80 : Nat) ([3] : List Nat),
     .bankSwap (.a : Port) (2^80 : Nat),
     .bankSelect (W.own : OdCaller) (.b : Port) (2^80 : Nat) (1 : Nat),
     .bankSelect (W.own : OdCaller) (.b : Port) (1 : Nat) (2^80 : Nat),
     .bankLoad (W.own : OdCaller) (.a : Port) (2^80 : Nat) (1 : Nat) (zeros 44 ++ u32 65536 : List Byte),
     .bankLoad (W.own : OdCaller) (.a : Port) (0 : Nat) (2^80 : Nat) (zeros 44 ++ u32 65536 : List Byte),
     .vectorMultiplyAccumulate (2^80 : Nat) (.add : MacOp) (true : Bool) (true : Bool) (false : Bool) (1 : Nat) (.v 0 : VSrc) (.v 1 : VSrc) (⟨none, none⟩ : Moves)] : List Instr).all (fun i => !i.wf) = true := by decide +kernel

theorem test_wf_refuses_3 :
    ([.vectorMultiplyAccumulate (3 : Nat) (.add : MacOp) (true : Bool) (true : Bool) (false : Bool) (2^80 : Nat) (.v 0 : VSrc) (.v 1 : VSrc) (⟨none, none⟩ : Moves),
     .vectorMultiplyAccumulate (3 : Nat) (.add : MacOp) (true : Bool) (true : Bool) (false : Bool) (1 : Nat) (.v 16 : VSrc) (.v 1 : VSrc) (⟨none, none⟩ : Moves),
     .vectorMultiplyAccumulate (3 : Nat) (.add : MacOp) (true : Bool) (true : Bool) (false : Bool) (1 : Nat) (.v 0 : VSrc) (.v 16 : VSrc) (⟨none, none⟩ : Moves),
     .vectorMultiplyAccumulate (3 : Nat) (.add : MacOp) (true : Bool) (true : Bool) (false : Bool) (1 : Nat) (.v 0 : VSrc) (.v 1 : VSrc) (⟨some ⟨false, 8, 2, 0, 0⟩, none⟩ : Moves),
     .vectorArithmeticLogic (2^80 : Nat) (.shl : AluOp) (false : Bool) (true : Bool) (2 : Nat) (.v 0 : VSrc) (.v 1 : VSrc) (.v 2 : VSrc) (⟨none, none⟩ : Moves),
     .vectorArithmeticLogic (3 : Nat) (.shl : AluOp) (false : Bool) (true : Bool) (2^80 : Nat) (.v 0 : VSrc) (.v 1 : VSrc) (.v 2 : VSrc) (⟨none, none⟩ : Moves),
     .accumulatorMove (2^80 : Nat) (1 : Nat) (.move (2 : Nat) (3 : Nat) (true : Bool) (true : Bool) (true : Bool) (true : Bool)) (⟨none, none⟩ : Moves),
     .accumulatorMove (3 : Nat) (2^80 : Nat) (.move (2 : Nat) (3 : Nat) (true : Bool) (true : Bool) (true : Bool) (true : Bool)) (⟨none, none⟩ : Moves)] : List Instr).all (fun i => !i.wf) = true := by decide +kernel

theorem test_wf_refuses_4 :
    ([.accumulatorMove (3 : Nat) (1 : Nat) (.move (2^80 : Nat) (3 : Nat) (true : Bool) (true : Bool) (true : Bool) (true : Bool)) (⟨none, none⟩ : Moves),
     .accumulatorMove (3 : Nat) (1 : Nat) (.move (2 : Nat) (2^80 : Nat) (true : Bool) (true : Bool) (true : Bool) (true : Bool)) (⟨none, none⟩ : Moves),
     .search (2^80 : Nat) true (false : Bool) (true : Bool) (.v 0 : VSrc) (1 : Nat) (⟨none, none⟩ : Moves),
     .searchReset (2^80 : Nat) (true : Bool) (false : Bool) true (⟨none, none⟩ : Moves),
     .searchRead (2^80 : Nat) (1 : Nat) (2 : Nat) (⟨none, none⟩ : Moves),
     .searchRead (3 : Nat) (2^80 : Nat) (2 : Nat) (⟨none, none⟩ : Moves),
     .searchRead (3 : Nat) (1 : Nat) (2^80 : Nat) (⟨none, none⟩ : Moves),
     .scalarOperation (2^80 : Nat) (.div : ScalarOp) (true : Bool) (1 : Nat) (2 : Nat) (3 : Nat) (4 : Nat) (⟨none, none⟩ : Moves)] : List Instr).all (fun i => !i.wf) = true := by decide +kernel

theorem test_wf_refuses_5 :
    ([.scalarOperation (3 : Nat) (.div : ScalarOp) (true : Bool) (2^80 : Nat) (2 : Nat) (3 : Nat) (4 : Nat) (⟨none, none⟩ : Moves),
     .scalarOperation (3 : Nat) (.div : ScalarOp) (true : Bool) (1 : Nat) (2^80 : Nat) (3 : Nat) (4 : Nat) (⟨none, none⟩ : Moves),
     .scalarOperation (3 : Nat) (.div : ScalarOp) (true : Bool) (1 : Nat) (2 : Nat) (2^80 : Nat) (4 : Nat) (⟨none, none⟩ : Moves),
     .scalarOperation (3 : Nat) (.div : ScalarOp) (true : Bool) (1 : Nat) (2 : Nat) (3 : Nat) (2^80 : Nat) (⟨none, none⟩ : Moves),
     .memoryMove (2^80 : Nat) none (⟨some ⟨true, 0, 4, 1, 0⟩, none⟩ : Moves),
     .memoryMove (3 : Nat) (some (⟨false, 3, 1, 0, 2⟩ : ScalarMem)) (⟨none, none⟩ : Moves),
     .memoryMove (3 : Nat) (some (⟨false, 4, 16, 0, 2⟩ : ScalarMem)) (⟨none, none⟩ : Moves),
     .memoryMove (3 : Nat) (some (⟨false, 4, 1, 0, 16⟩ : ScalarMem)) (⟨none, none⟩ : Moves)] : List Instr).all (fun i => !i.wf) = true := by decide +kernel

theorem test_wf_refuses_6 :
    ([.addressGeneratorSetup (2^80 : Nat) (2 : Nat) (⟨1, 16, 0, 8, 2, 1⟩ : AgSetup) (⟨none, none⟩ : Moves),
     .addressGeneratorSetup (3 : Nat) (2^80 : Nat) (⟨1, 16, 0, 8, 2, 1⟩ : AgSetup) (⟨none, none⟩ : Moves),
     .addressGeneratorSetup (3 : Nat) (2 : Nat) (⟨2, 16, 0, 8, 2, 1⟩ : AgSetup) (⟨none, none⟩ : Moves),
     .addressGeneratorSetup (3 : Nat) (2 : Nat) (⟨1, 16, 0, 8, 2, 3⟩ : AgSetup) (⟨none, none⟩ : Moves),
     .branchCallReturn (2^80 : Nat) (.ret : Jump) (.nonzero 1 : Cond) (⟨none, none⟩ : Moves),
     .branchCallReturn (3 : Nat) (.branch 4096 : Jump) (.nonzero 1 : Cond) (⟨none, none⟩ : Moves),
     .branchCallReturn (3 : Nat) (.call 4096 : Jump) (.nonzero 1 : Cond) (⟨none, none⟩ : Moves),
     .branchCallReturn (3 : Nat) (.ret : Jump) (.zero 16 : Cond) (⟨none, none⟩ : Moves)] : List Instr).all (fun i => !i.wf) = true := by decide +kernel

theorem test_wf_refuses_7 :
    ([.branchCallReturn (3 : Nat) (.ret : Jump) (.nonzero 16 : Cond) (⟨none, none⟩ : Moves),
     .branchCallReturn (3 : Nat) (.ret : Jump) (.negative 16 : Cond) (⟨none, none⟩ : Moves),
     .branchCallReturn (3 : Nat) (.branch (2^80 : Nat)) (.zero 1 : Cond) (⟨none, none⟩ : Moves),
     .hardwareLoop (2^80 : Nat) (5 : Nat) (1 : Nat) (⟨none, none⟩ : Moves),
     .hardwareLoop (3 : Nat) (2^80 : Nat) (1 : Nat) (⟨none, none⟩ : Moves),
     .waitForEvent (2^80 : Nat) (⟨none, none⟩ : Moves),
     .halt (2^80 : Nat) (⟨none, none⟩ : Moves),
     .queueCoreDma (2^80 : Nat) (⟨2, 16, 0, 32, 8⟩ : DmaDesc) (⟨none, none⟩ : Moves)] : List Instr).all (fun i => !i.wf) = true := by decide +kernel

theorem test_wf_refuses_8 :
    ([.queueCoreDma (3 : Nat) (⟨7, 0, 0, 0, 8⟩ : DmaDesc) (⟨none, none⟩ : Moves),
     .queueCoreDma (3 : Nat) (⟨0, 0, 5, 0, 8⟩ : DmaDesc) (⟨none, none⟩ : Moves),
     .waitDmaCompletion (2^80 : Nat) (0 : Nat) (⟨none, none⟩ : Moves),
     .waitDmaCompletion (3 : Nat) (2^80 : Nat) (⟨none, none⟩ : Moves),
     .coreDmaComplete (2^80 : Nat) false,
     .publishOutputRecord (2^80 : Nat) ([1, 2] : List Byte) (⟨none, none⟩ : Moves),
     .coreException (2^80 : Nat) (2 : Nat) (0 : Nat),
     .coreAbortTimeout (2^80 : Nat)] : List Instr).all (fun i => !i.wf) = true := by decide +kernel

theorem test_wf_refuses_9 :
    ([.coreStopTimeout (2^80 : Nat),
     .detectionCoreEnd (.a : Port) (2^80 : Nat),
     .programImage (W.own : OdCaller) (2^80 : Nat) ([1, 2] : List Byte) ({ length := 2 } : ImageHeader),
     .programRun (W.own : OdCaller) (2^80 : Nat),
     .programStop (W.own : OdCaller) (2^80 : Nat),
     .gapMarkerWrite (.a : Port) (2^80 : Nat),
     .triggerEvtInput (2^80 : Nat),
     .triggerTime (W.own : OdCaller) (2^80 : Nat) (4000000000 : Nat)] : List Instr).all (fun i => !i.wf) = true := by decide +kernel

theorem test_wf_refuses_10 :
    ([.triggerTime (W.own : OdCaller) (0 : Nat) (2^80 : Nat),
     .triggerTrunkMessage (.w : LinkPort) ({ W.fr with cls := 5 } : Frame),
     .triggerTrunkMessage (.w : LinkPort) ({ W.fr with type := 256 } : Frame),
     .triggerTrunkMessage (.w : LinkPort) ({ W.fr with dst := 1024 } : Frame),
     .triggerTrunkMessage (.w : LinkPort) ({ W.fr with hops := 1024 } : Frame),
     .triggerTrunkMessage (.w : LinkPort) ({ W.fr with epoch := 65536 } : Frame),
     .triggerTrunkMessage (.w : LinkPort) ({ W.fr with payload := List.replicate 1485 0 } : Frame),
     .captureFreeze (2^80 : Nat)] : List Instr).all (fun i => !i.wf) = true := by decide +kernel

theorem test_wf_refuses_11 :
    ([.captureArm (W.own : OdCaller) (2^80 : Nat),
     .captureDisarm (W.own : OdCaller) (2^80 : Nat),
     .captureRelease (W.own : OdCaller) (2^80 : Nat),
     .exportRaw (W.own : OdCaller) (2^80 : Nat),
     .exportCaskPcie (W.own : OdCaller) (2^80 : Nat),
     .exportCaskTrunk (W.own : OdCaller) (2^80 : Nat),
     .exportAbort (W.own : OdCaller) (2^80 : Nat),
     .exportJobEnd (2^80 : Nat) true ([(0, [0, 1])] : List (Nat × List Nat))] : List Instr).all (fun i => !i.wf) = true := by decide +kernel

theorem test_wf_refuses_12 :
    ([.dramWrite (2^80 : Nat) (64 : Nat) (List.replicate 32 5 : List Byte) (3 : Nat) (true : Bool) [] (false : Bool),
     .dramWrite (1 : Nat) (2^80 : Nat) (List.replicate 32 5 : List Byte) (3 : Nat) (true : Bool) [] (false : Bool),
     .dramWrite (1 : Nat) (64 : Nat) (List.replicate 32 5 : List Byte) (2^80 : Nat) (true : Bool) [] (false : Bool),
     .dramPartialWrite (2^80 : Nat) (67 : Nat) ([1, 2, 3] : List Byte) (3 : Nat) (false : Bool) [] [] none (false : Bool),
     .dramPartialWrite (1 : Nat) (2^80 : Nat) ([1, 2, 3] : List Byte) (3 : Nat) (false : Bool) [] [] none (false : Bool),
     .dramPartialWrite (1 : Nat) (67 : Nat) ([1, 2, 3] : List Byte) (2^80 : Nat) (false : Bool) [] [] none (false : Bool),
     .dramRead (2^80 : Nat) (67 : Nat) [] none (true : Bool),
     .dramRead (1 : Nat) (2^80 : Nat) [] none (true : Bool)] : List Instr).all (fun i => !i.wf) = true := by decide +kernel

theorem test_wf_refuses_13 :
    ([.refreshDue (2^80 : Nat) (0 : Nat) true,
     .refreshDue (0 : Nat) (2^80 : Nat) true,
     .postponedRefreshIssue (2^80 : Nat) (0 : Nat),
     .postponedRefreshIssue (0 : Nat) (2^80 : Nat),
     .powerDownEntry (2^80 : Nat) (0 : Nat),
     .powerDownEntry (0 : Nat) (2^80 : Nat),
     .rankRetire (W.own : OdCaller) (2^80 : Nat),
     .migrationCopyEnd (2^80 : Nat) ([] : List (Nat × List Nat))] : List Instr).all (fun i => !i.wf) = true := by decide +kernel

theorem test_wf_refuses_14 :
    ([.caskSubmit (2^80 : Nat) (1 : Nat) (128 : Nat),
     .caskSubmit (1 : Nat) (2^80 : Nat) (128 : Nat),
     .caskSubmit (1 : Nat) (1 : Nat) (2^80 : Nat),
     .caskJobStart (2^80 : Nat),
     .caskJobEnd (2^80 : Nat) ([] : List (Nat × List Nat)),
     .caskAbort (2^80 : Nat) (0 : Nat),
     .caskAbort (1 : Nat) (2^80 : Nat),
     .caskDisableFlush (2^80 : Nat) (0 : Nat)] : List Instr).all (fun i => !i.wf) = true := by decide +kernel

theorem test_wf_refuses_15 :
    ([.caskDisableFlush (1 : Nat) (2^80 : Nat),
     .pllLock (2^80 : Nat),
     .pllLossOfLock (2^80 : Nat),
     .timeHoldover (2^80 : Nat),
     .todSentence (0 : Nat) (true : Bool) (false : Bool) (7 : Nat) (2^80 : Nat),
     .tiuEvent (2^80 : Nat) (4000000000500 : Nat) (true : Bool),
     .tiuEvent (2 : Nat) (2^80 : Nat) (true : Bool),
     .tiuDeadTimeDrop (2^80 : Nat) (4000000000500 : Nat) (true : Bool)] : List Instr).all (fun i => !i.wf) = true := by decide +kernel

theorem test_wf_refuses_16 :
    ([.tiuDeadTimeDrop (2 : Nat) (2^80 : Nat) (true : Bool),
     .tiuShortPulse (2^80 : Nat),
     .tiuStuck (2^80 : Nat),
     .interpCalRun (2^80 : Nat) (1000 : Int) (2000 : Int) (1100 : Int) (2200 : Int),
     .interpCalStale (2^80 : Nat) (60000000000 : Nat),
     .interpCalStale (1 : Nat) (2^80 : Nat),
     .measArm (.reg (2^80 : Nat)),
     .tiuTsAuxRead (2^80 : Nat) 4] : List Instr).all (fun i => !i.wf) = true := by decide +kernel

theorem test_wf_refuses_17 :
    ([.ibendFrameReceive (.w : LinkPort) ({ W.frame 1 0x70 [] with dst := 9 } : Frame) true (2^80 : Nat) (false : Bool) ({} : Hint),
     .linkUp (.w : Side) (2^80 : Nat),
     .chnDisable (2^80 : Nat),
     .epochRequest (W.own : OdCaller) (2^80 : Nat) [],
     .faultClear (W.own : OdCaller) (2^80 : Nat),
     .pilotLoss (.a : Port) ([60000, 60000, 60000, 60000] : List Nat) (2^80 : Nat),
     .odRead (W.own : OdCaller) (⟨65536, 1, false⟩ : OdKey),
     .odRead (W.own : OdCaller) (⟨1, 256, false⟩ : OdKey)] : List Instr).all (fun i => !i.wf) = true := by decide +kernel

theorem test_wf_refuses_18 :
    ([.odUnsupportedService (W.own : OdCaller) (⟨0, 0, false⟩ : OdKey) (2^80 : Nat) ([] : List Byte),
     .odDownloadStart (W.own : OdCaller) (⟨0x9010, 1, false⟩ : OdKey) (2^80 : Nat) (5 : Nat),
     .odDownloadStart (W.own : OdCaller) (⟨0x9010, 1, false⟩ : OdKey) (8 : Nat) (2^80 : Nat),
     .odDownloadSegment (W.own : OdCaller) (⟨0x9010, 1, false⟩ : OdKey) (2^80 : Nat) ([3] : List Byte) ({} : Hint),
     .odUploadSegment (W.own : OdCaller) (⟨0x1001, 2, false⟩ : OdKey) (2^80 : Nat),
     .transferIdleTimeout (2^80 : Nat),
     .uploadSnapshotTimeout (.pcie : Path) (2^80 : Nat) (5 : Nat),
     .uploadSnapshotTimeout (.pcie : Path) (0 : Nat) (2^80 : Nat)] : List Instr).all (fun i => !i.wf) = true := by decide +kernel

theorem test_wf_refuses_19 :
    ([.odOpenSession (W.own : OdCaller) (2^80 : Nat) (W.tokSession : List Byte),
     .sessionExpiry (2^80 : Nat),
     .odForwardTimeout (W.own : OdCaller) (2^80 : Nat),
     .dictionaryCarrierPost (2^80 : Nat) (0x4F440001 : Nat) (0 : Nat) (64 : Nat) (64 : Nat) (false : Bool) ({} : Hint),
     .dictionaryCarrierPost (6 : Nat) (2^80 : Nat) (0 : Nat) (64 : Nat) (64 : Nat) (false : Bool) ({} : Hint),
     .dictionaryCarrierPost (6 : Nat) (0x4F440001 : Nat) (2^80 : Nat) (64 : Nat) (64 : Nat) (false : Bool) ({} : Hint),
     .dictionaryCarrierPost (6 : Nat) (0x4F440001 : Nat) (0 : Nat) (2^80 : Nat) (64 : Nat) (false : Bool) ({} : Hint),
     .dictionaryCarrierPost (6 : Nat) (0x4F440001 : Nat) (0 : Nat) (64 : Nat) (2^80 : Nat) (false : Bool) ({} : Hint)] : List Instr).all (fun i => !i.wf) = true := by decide +kernel

theorem test_wf_refuses_20 :
    ([.registerWrite (⟨32, 0, 4⟩ : Access) (77 : Nat),
     .registerWrite (⟨1, 2^40, 4⟩ : Access) (77 : Nat),
     .registerWrite (⟨1, 0, 3⟩ : Access) (77 : Nat),
     .registerWrite (⟨21, hostRegion, 8⟩ : Access) (2^80 : Nat),
     .registerWrite ⟨(2^80 : Nat), regAddr 0 (0x30 : Nat), 4⟩ (77 : Nat),
     .registerWrite ⟨(21 : Nat), regAddr 0 (2^80 : Nat), 4⟩ (77 : Nat),
     .registerWrite ⟨(21 : Nat), regAddr (2^80 : Nat) (0 : Nat), 4⟩ (2 : Nat),
     .seqStatusWrite ⟨(2^80 : Nat), regAddr (0 : Nat) (4 : Nat), 4⟩ (1 : Nat)] : List Instr).all (fun i => !i.wf) = true := by decide +kernel

theorem test_wf_refuses_21 :
    ([.seqStatusWrite ⟨(21 : Nat), regAddr (2^80 : Nat) (4 : Nat), 4⟩ (1 : Nat),
     .seqStatusWrite ⟨(21 : Nat), regAddr (0 : Nat) (2^80 : Nat), 4⟩ (1 : Nat),
     .seqStatusWrite ⟨(21 : Nat), regAddr (0 : Nat) (4 : Nat), 4⟩ (2^80 : Nat),
     .tideNumLoRead (2^80 : Nat) 4,
     .tideNumLoRead (21 : Nat) (2^80 : Nat),
     .indDataRead (2^80 : Nat) 4 false,
     .indDataWrite (2^80 : Nat) (77 : Nat),
     .indDataWrite (1 : Nat) (2^80 : Nat)] : List Instr).all (fun i => !i.wf) = true := by decide +kernel

theorem test_wf_refuses_22 :
    ([.mbPost (2^80 : Nat) (0 : Nat) (1 : Nat) (3 : Nat),
     .mbPost (0 : Nat) (2^80 : Nat) (1 : Nat) (3 : Nat),
     .mbPost (0 : Nat) (0 : Nat) (2^80 : Nat) (3 : Nat),
     .mbPost (0 : Nat) (0 : Nat) (1 : Nat) (2^80 : Nat),
     .mbRxHdrRead (2^80 : Nat) 4 (6 : Nat) (1 : Nat),
     .mbRxHdrRead (21 : Nat) 4 (2^80 : Nat) (1 : Nat),
     .mbRxHdrRead (21 : Nat) 4 (6 : Nat) (2^80 : Nat),
     .mbDbPendRead (2^80 : Nat) 4 (6 : Nat)] : List Instr).all (fun i => !i.wf) = true := by decide +kernel

theorem test_wf_refuses_23 :
    ([.mbDbPendRead (21 : Nat) 4 (2^80 : Nat),
     .mbDbClr (2^80 : Nat) (6 : Nat) (2 : Nat),
     .mbDbClr (21 : Nat) (2^80 : Nat) (2 : Nat),
     .mbDbClr (21 : Nat) (6 : Nat) (2^80 : Nat),
     .mbDbRing (2^80 : Nat) (1 : Nat) (0x60000003 : Nat),
     .mbDbRing (1 : Nat) (2^80 : Nat) (0x60000003 : Nat),
     .mbDbRing (1 : Nat) (1 : Nat) (2^80 : Nat),
     .endpointReset (2^80 : Nat)] : List Instr).all (fun i => !i.wf) = true := by decide +kernel

theorem test_wf_refuses_24 :
    ([.semRead (2^80 : Nat) 4 (31 : Nat),
     .semRead (21 : Nat) 4 (2^80 : Nat),
     .semRead (21 : Nat) (2^80 : Nat) (31 : Nat),
     .semWrite (2^80 : Nat) (31 : Nat) (0 : Nat),
     .semWrite (21 : Nat) (2^80 : Nat) (0 : Nat),
     .semWrite (21 : Nat) (31 : Nat) (2^80 : Nat),
     .exportVector (2^80 : Nat),
     .exportRingRpWrite (2^80 : Nat) (2 : Nat) (64 : Nat)] : List Instr).all (fun i => !i.wf) = true := by decide +kernel

theorem test_wf_refuses_25 :
    ([.exportRingRpWrite (21 : Nat) (2^80 : Nat) (64 : Nat),
     .exportRingRpWrite (21 : Nat) (2 : Nat) (2^80 : Nat),
     .hkSlotConversion (2^80 : Nat) (1000000 : Int) (0 : Int) (2500000 : Int),
     .auxDataRead (2^80 : Nat) 4 0,
     .injectInput (.od (W.own : OdCaller)) (2^80 : Nat),
     .injectInput (.reg (2^80 : Nat)) (3 : Nat),
     .hkSelfCal (some (.reg (2^80 : Nat))),
     .hkSelfCalDone (3 : Int) (5 : Int) (2^80 : Nat) (32770 : Nat)] : List Instr).all (fun i => !i.wf) = true := by decide +kernel

theorem test_wf_refuses_26 :
    ([.hkSelfCalDone (3 : Int) (5 : Int) (32768 : Nat) (2^80 : Nat),
     .sysCalZero (W.own : OdCaller) (2^80 : Nat),
     .sysCalFull (W.own : OdCaller) (2^80 : Nat),
     .bridgeConversionEnd (2^80 : Nat) ([] : List (Nat × Int × Nat)),
     .bridgeBreakDetect (2^80 : Nat) (0 : Int) (10000000 : Int) (1000000 : Int) (900000 : Int),
     .bridgeResult (2^80 : Nat),
     .porstRelease (2^80 : Nat) (⟨false, true, true⟩ : PinLevels),
     .fullResetRelease (2^80 : Nat) (⟨false, true, true⟩ : PinLevels)] : List Instr).all (fun i => !i.wf) = true := by decide +kernel

theorem test_wf_refuses_27 :
    ([.domainSwitchOn (2^80 : Nat),
     .bwfResetReq (2^80 : Nat),
     .standbyRequest (.reg (2^80 : Nat)) (true : Bool),
     .tamperEdge (2^80 : Nat) (true : Bool),
     .fatalFault (2^80 : Nat) (0 : Nat) (1 : Nat),
     .fatalFault (0x2A : Nat) (2^80 : Nat) (1 : Nat),
     .fatalFault (0x2A : Nat) (0 : Nat) (2^80 : Nat),
     .containedFault (2^80 : Nat) (0 : Nat) (1 : Nat)] : List Instr).all (fun i => !i.wf) = true := by decide +kernel

theorem test_wf_refuses_28 :
    ([.containedFault (0x2A : Nat) (2^80 : Nat) (1 : Nat),
     .containedFault (0x2A : Nat) (0 : Nat) (2^80 : Nat),
     .bwfLogRead (2^80 : Nat) 4,
     .watchdogKick (2^80 : Nat) (1 : Nat),
     .watchdogKick (2 : Nat) (2^80 : Nat),
     .mgmtWatchdogKick (2^80 : Nat) (1 : Nat),
     .mgmtWatchdogKick (1 : Nat) (2^80 : Nat),
     .watchdogFirstExpiry (2^80 : Nat)] : List Instr).all (fun i => !i.wf) = true := by decide +kernel

theorem test_wf_refuses_29 :
    ([.watchdogSecondExpiry (2^80 : Nat),
     .fabricTransactionTimeout (2^80 : Nat) (5 : Nat) (false : Bool),
     .fabricTransactionTimeout (21 : Nat) (2^80 : Nat) (false : Bool),
     .swashLaunchRecords .a ⟨0, [[2048], [0], [0], [0]], []⟩,
     .kilnShot .a ⟨0, [[0], []]⟩ false,
     .exportJobEnd 0 true [(2 ^ 35, [])],
     .caskJobEnd 0 [(0, [288])],
     .migrationCopyEnd 0 [(2 ^ 35, [])]] : List Instr).all (fun i => !i.wf) = true := by decide +kernel

theorem test_wf_refuses_30 :
    ([.dramPartialWrite 1 64 [1] 0 false [288] [] none false,
     .scrubLine [288] none false,
     .spiWriteFrame (List.replicate 263 0),
     .spiReadFrame [0],
     .spiFrameAbort [] 65,
     .confirm (some { W.own with node := 65536 }),
     .domainSwitchOn 12,
     .injectInput (.reg 32) 0] : List Instr).all (fun i => !i.wf) = true := by decide +kernel

theorem test_wf_refuses_31 :
    ([.registerWrite ⟨1, 0, 4⟩ (2 ^ 64),
     .bwfResetReq 32,
     .porstRelease 8192 ⟨false, true, false⟩,
     .fatalFault 256 0 0,
     .watchdogKick 1 (2 ^ 32),
     .tamperEdge 2 true,
     .watchdogFirstExpiry 4,
     .sysCalZero W.own 64] : List Instr).all (fun i => !i.wf) = true := by decide +kernel

theorem test_wf_refuses_32 :
    ([.fabricTransactionTimeout 1 (2 ^ 40) false] : List Instr).all (fun i => !i.wf) = true := by decide +kernel

/-! ## Single steps and single functions -/

/-- An empty queue idles (log 1). -/
theorem test_idle : step State.reset = .next State.reset := rfl

/-- The check value of CRC-32C, the CRC of R300, for the digits 1 to 9. -/
theorem test_crc32c : crc32c (ascii "123456789") = 0xE3069283 := by decide +kernel

/-- SHA-256 of "abc" (FIPS 180-4), the hash of R478. -/
theorem test_sha256 : (sha256 (ascii "abc")).take 4 = [0xBA, 0x78, 0x16, 0xBF] := by decide +kernel

/-- TidePeriod's default is 4 (R23). -/
theorem test_tide_period_default : W.run.nat 0x2000 1 = 4 := by decide +kernel

/-- TideSlipThreshold's default is 20,000 ns (R27). -/
theorem test_slip_default : W.run.nat 0x2000 4 = 20000 := by decide +kernel

/-- R411: an unused window's write is a bus error that is counted. -/
theorem test_unused_window : (match exec (.registerWrite ⟨1, 0x30000F0000, 4⟩ 1) W.run with
    | .next t => t.host.busErrs
    | _ => 0) = 1 := by decide +kernel

/-- R438: the reader of a semaphore held by initiator 21 reads 22. -/
theorem test_semaphore_held : (match exec (.semRead 22 4 16) (W.run.modMbox (fun m => { m with sems := setAt m.sems 16 (some 21) })) with
    | .next t => t.out.head?
    | _ => none) = some (.readData 22 22 false) := by decide +kernel

/-- R78: the interlock's opening takes an Off port to no other state, and a Live one to Interlocked. -/
theorem test_interlock : (match exec .interlockOpen (W.opt { state := 6 }) with
    | .next t => t.pa.opt.state
    | _ => 0) = 7 := by decide +kernel

/-- R412: SEQNUM wraps at 256. -/
theorem test_seqnum_wraps : ((⟨255, []⟩ : SeqReg).raise [2]) = ⟨0, [(2, 0)]⟩ := by decide


/-! ## Witnesses: each statement's hypotheses are met -/

theorem witness_StepRunsFront :
    (∃ (s : State), ∃ (i : Instr), ∃ (rest : List Instr), s.pending = i :: rest) ∧
    (∃ (s : State), s.pending = []) :=
  ⟨⟨W.run.withFront .interlockClose, .interlockClose, [], by decide +kernel⟩, ⟨W.run, by decide +kernel⟩⟩

theorem witness_TideCommands :
    (∃ (s : State), s.up = true ∧ s.tide.running = true ∧ s.power.resetAsked = false) ∧
    (∃ (s : State), s.up = true ∧ s.tide.running = true ∧ s.power.resetAsked = true) ∧
    (∃ (s : State), s.up = true ∧ s.tide.running = false ∧ (s.role = 0 ∨ s.time.state = 2)) ∧
    (∃ (s : State), s.up = true ∧ s.tide.running = true ∧ s.beyondSlip s.time.theta = true ∧ s.power.resetAsked =
    false) ∧
    (∃ (s : State), s.up = true ∧ s.tide.running = true ∧ s.beyondSlip s.time.theta = true ∧ s.power.resetAsked =
    true) :=
  ⟨⟨W.run, by decide +kernel⟩, ⟨{ W.run with power := { W.run.power with resetAsked := true } }, by decide +kernel⟩,
  ⟨{ W.run with tide := {} }, by decide +kernel⟩, ⟨{ W.run with time := { W.run.time with theta := 20001 } },
  by decide +kernel⟩,
  ⟨{ W.run with power := { W.run.power with resetAsked := true }, time := { W.run.time with theta := -20001 } },
  by decide +kernel⟩⟩

theorem witness_LaunchPlan :
    (∃ (q : Port), ∃ (j : Nat), ∃ (s : State), s.up = true ∧ s.tide.running = true ∧ (s.port q).hasPlan = true ∧ s.pn
    q 0x7010 1 ≠ 1 ∧ j < (s.plan q).m ∧ s.suppresses q j = false) ∧
    (∃ (c : OdCaller), ∃ (q : Port), ∃ (s : State), Serves s c 1 (objKey (portIndex q 0x2010) 0x10)) ∧
    (∃ (stage : Nat), ∃ (s : State), s.up = true ∧ s.tide.running = true ∧ 1 ≤ stage ∧ stage ≤ 5 ∧ s.stageBusy stage =
    true ∧ s.tide.overrunNow.getD (stage - 1) false = false ∧ s.tide.overrun.length = 5) :=
  ⟨⟨.a, 0, W.run, by decide +kernel⟩, ⟨W.own, .a, W.run, by decide +kernel⟩, ⟨4,
  { W.run with tide := { W.run.tide with edges := 3 } }, by decide +kernel⟩⟩

theorem witness_OpticsBringUp :
    (∃ (q : Port), ∃ (s : State), s.up = true ∧ (s.port q).opt.state = 1 ∧ (s.port q).opt.stopping = false ∧ s.pn q
    0x2100 0x30 = 1) ∧
    (∃ (q : Port), ∃ (s : State), s.up = true ∧ (s.port q).opt.state = 1 ∧ (s.port q).opt.stopping = false ∧ s.pn q
    0x2100 0x30 = 0) ∧
    (∃ (q : Port), ∃ (s : State), s.up = true ∧ (s.port q).opt.bias = 1 ∧ 8 ≤ (s.port q).opt.inRun ∧ (s.port
    q).opt.state = 2 ∧ (s.port q).opt.stopping = false) ∧
    (∃ (q : Port), ∃ (s : State), s.up = true ∧ (s.port q).opt.state = 4 ∧ (s.port q).opt.stopping = false) ∧
    (∃ (q : Port), ∃ (mean1 mean2 : Int), ∃ (s : State), s.up = true ∧ (s.port q).opt.state = 5 ∧ (s.port
    q).opt.stopping = false ∧ (s.port q).opt.atSet = false ∧ (s.port q).opt.calFail = false ∧ (mean1 - mean2).natAbs ≤
    200) ∧
    (∃ (q : Port), ∃ (s : State), s.up = true ∧ s.tide.running = true ∧ (s.port q).opt.state = 4 ∨ (s.port
    q).opt.state = 5 ∧ (s.port q).opt.atSet = true ∧ (s.port q).opt.stopping = false ∧ (s.port q).hasPlan = true ∧
    (s.port q).rx.fgPass = true) ∧
    (∃ (c : OdCaller), ∃ (l : Port), ∃ (s : State), Serves s c 1 (objKey (portIndex l 0x2100) 1) ∧ (s.laserShare =
    false ∨ l = Port.a) ∧ s.laserRefused l = false) :=
  ⟨⟨.a, W.opt { state := 1 }, by decide +kernel⟩, ⟨.a, (W.opt { state := 1 }).setObj 0x2100 0x30 (u8 0),
  by decide +kernel⟩, ⟨.a, W.opt { state := 2, bias := 1, inRun := 8 }, by decide +kernel⟩, ⟨.b, W.opt { state := 4 },
  by decide +kernel⟩, ⟨.a, 1000, 1200, W.opt { state := 5 }, by decide +kernel⟩, ⟨.a, (W.opt
  { state := 5, atSet := true }).modRx .a (fun r => { r with fgPass := true }), by decide +kernel⟩, ⟨W.own, .a, W.run,
  by decide +kernel⟩⟩

theorem witness_OpticsDown :
    (∃ (q : Port), ∃ (s : State), s.up = true ∧ (s.port q).opt.stopping = true ∧ (s.port q).opt.restart = false) ∧
    (∃ (q : Port), ∃ (s : State), s.up = true ∧ (s.port q).opt.stopping = true ∧ (s.port q).opt.restart = true) ∧
    (∃ (q : Port), ∃ (s : State), s.up = true ∧ (s.port q).opt.bias = 2 ∧ 64 ≤ (s.port q).opt.overRun ∧ 4 ≤ (s.port
    q).opt.state ∧ (s.port q).opt.state ≤ 6 ∧ (s.port q).opt.stopping = false) ∧
    (∃ (q : Port), ∃ (s : State), s.up = true ∧ (s.port q).opt.bias = 1) ∧
    (∃ (q : Port), ∃ (mean1 mean2 : Int), ∃ (s : State), s.up = true ∧ (s.port q).opt.state = 5 ∧ (s.port
    q).opt.stopping = false ∧ (s.port q).opt.atSet = false ∧ (s.port q).opt.calFail = false ∧ 200 < (mean1 -
    mean2).natAbs ∧ 4 ≤ (s.port q).opt.calTries) ∧
    (∃ (s : State), s.power.ilockOpen = false) ∧
    (∃ (q : Port), ∃ (ell : Nat), ∃ (s : State), s.live q = true ∧ (s.port q).flight.any (fun l => l.ell == ell &&
    !l.measured && !l.missing) = true) ∧
    (∃ (q : Port), ∃ (s : State), s.up = true ∧ s.follows q = true ∧ (s.laserSet (s.laserOf q)).en = true ∧ (s.port
    q).opt.fine = false ∧ (s.port q).pair.state ≠ 4 ∧ (s.port q).opt.sweeping = false) ∧
    (∃ (q : Port), ∃ (s : State), s.up = true ∧ s.follows q = true ∧ (s.laserSet (s.laserOf q)).en = true ∧ (s.port
    q).opt.fine = false ∧ (s.port q).pair.state ≠ 4 ∧ (s.port q).opt.sweeping = true ∧ (s.port q).opt.sweepStep < 30) ∧
    (∃ (q : Port), ∃ (s : State), s.up = true ∧ s.follows q = true ∧ (s.port q).opt.sweeping = true) ∧
    (∃ (q : Port), ∃ (s : State), s.up = true ∧ (s.port q).opt.sweeping = true ∧ 3 ≤ (s.port q).opt.sweepPass) ∧
    (∃ (c : OdCaller), ∃ (l : Port), ∃ (s : State), Serves s c 1 (objKey (portIndex l 0x2100) 1) ∧ (s.laserShare =
    false ∨ l = Port.a)) :=
  ⟨⟨.a, W.opt { state := 6, stopping := true }, by decide +kernel⟩, ⟨.a, W.opt
  { state := 6, stopping := true, restart := true }, by decide +kernel⟩, ⟨.b, W.opt
  { state := 6, bias := 2, overRun := 64 }, by decide +kernel⟩, ⟨.b, W.opt { state := 2, bias := 1 },
  by decide +kernel⟩, ⟨.a, 1000, 1201, W.opt { state := 5, calTries := 4 }, by decide +kernel⟩, ⟨W.flying,
  by decide +kernel⟩, ⟨.a, 0, W.flying, by decide +kernel⟩, ⟨.a, W.follow, by decide +kernel⟩, ⟨.a, W.follow.modOpt .a
  (fun o => { o with sweeping := true, sweepStep := 29 }), by decide +kernel⟩, ⟨.a, W.follow.modOpt .a (fun o =>
  { o with sweeping := true }), by decide +kernel⟩, ⟨.a, W.follow.modOpt .a (fun o =>
  { o with sweeping := true, sweepPass := 3 }), by decide +kernel⟩, ⟨W.own, .b, W.opt { state := 6 },
  by decide +kernel⟩⟩

theorem witness_ReceiveCalibration :
    (∃ (q : Port), ∃ (s : State), s.rxOn q false = true ∧ bitOf (s.reg (winRx q) 0) 0 = false) ∧
    (∃ (q : Port), ∃ (s : State), s.rxOn q false = true ∧ (s.port q).rx.fgRunning = true) ∧
    (∃ (q : Port), ∃ (s : State), s.rxOn q false = true ∧ (s.port q).rx.fgRunning = true ∧ (s.port q).rx.fgTries = 0) ∧
    (∃ (q : Port), ∃ (s : State), s.rxOn q false = true ∧ (s.port q).rx.fgRunning = true ∧ (s.port q).rx.fgTries = 1) ∧
    (∃ (q : Port), ∃ (s : State), s.rxOn q true = true ∧ bitOf (s.reg (winKiln q) 0) 0 = false) ∧
    (∃ (q : Port), ∃ (s : State), s.rxOn q true = true ∧ (s.port q).rx.kfgRunning = true) ∧
    (∃ (q : Port), ∃ (s : State), s.rxOn q true = true ∧ (s.port q).rx.kfgRunning = true ∧ (s.port q).rx.kfgTries = 0) ∧
    (∃ (q : Port), ∃ (s : State), s.rxOn q true = true ∧ (s.port q).rx.kfgRunning = true ∧ (s.port q).rx.kfgTries = 1) ∧
    (∃ (q : Port), ∃ (res r0 : List Int), ∃ (s : State), s.rxOn q false = true ∧ (s.port q).rx.fgPass = true ∧ (s.port
    q).rx.bgOn = true ∧ (∀ k : Nat, k < 8 → 1024 ≤ (s.port q).rx.windows.getD k 0) ∧ (s.port q).rx.cal.window = true ∧
    bitOf (s.reg (winRx q) 0) 1 = false ∧ (s.port q).rx.cal.prev = some r0 ∧ runsAgree rxTol r0 res = true) ∧
    (∃ (q : Port), ∃ (res r0 : List Int), ∃ (s : State), s.rxOn q false = true ∧ (s.port q).rx.fgPass = true ∧ (s.port
    q).rx.bgOn = true ∧ (∀ k : Nat, k < 8 → 1024 ≤ (s.port q).rx.windows.getD k 0) ∧ (s.port q).rx.cal.window = true ∧
    bitOf (s.reg (winRx q) 0) 1 = false ∧ (s.port q).rx.cal.prev = some r0 ∧ runsAgree rxTol r0 res = false) ∧
    (∃ (q : Port), ∃ (s : State), bitOf (s.reg (winRx q) 0) 1 = true) ∧
    (∃ (q : Port), ∃ (s : State), s.rxOn q false = true ∧ 65536 ≤ (s.port q).rx.cal.tides) ∧
    (∃ (q : Port), ∃ (res r0 : List Int), ∃ (s : State), s.rxOn q true = true ∧ (s.port q).rx.kfgPass = true ∧ (s.port
    q).rx.bgOn = true ∧ 1024 ≤ (s.port q).rx.kWindows ∧ (s.port q).rx.kCal.window = true ∧ bitOf (s.reg (winRx q) 0) 1
    = false ∧ (s.port q).rx.kCal.prev = some r0 ∧ runsAgree rxTol r0 res = true) ∧
    (∃ (q : Port), ∃ (res r0 : List Int), ∃ (s : State), s.rxOn q true = true ∧ (s.port q).rx.kfgPass = true ∧ (s.port
    q).rx.bgOn = true ∧ 1024 ≤ (s.port q).rx.kWindows ∧ (s.port q).rx.kCal.window = true ∧ bitOf (s.reg (winRx q) 0) 1
    = false ∧ (s.port q).rx.kCal.prev = some r0 ∧ runsAgree rxTol r0 res = false) ∧
    (∃ (q : Port), ∃ (s : State), bitOf (s.reg (winRx q) 0) 1 = true) ∧
    (∃ (q : Port), ∃ (s : State), s.rxOn q true = true ∧ 65536 ≤ (s.port q).rx.kCal.tides) :=
  ⟨⟨.b, W.run, by decide +kernel⟩, ⟨.a, W.run.startForeground .a false, by decide +kernel⟩, ⟨.a, W.run.startForeground
  .a false, by decide +kernel⟩, ⟨.a, ((W.run.setRegBit 0x48 0 0 true).startForeground .a false).modRx .a (fun r =>
  { r with fgTries := 1 }), by decide +kernel⟩, ⟨.b, W.run, by decide +kernel⟩, ⟨.a, W.run.startForeground .a true,
  by decide +kernel⟩, ⟨.a, W.run.startForeground .a true, by decide +kernel⟩, ⟨.a, ((W.run.setRegBit 0x48 0 0
  true).startForeground .a true).modRx .a (fun r => { r with kfgTries := 1 }), by decide +kernel⟩, ⟨.a, [10, -10, 50],
  [0, 0, 0], W.run.modRx .a (fun r =>
  { r with fgPass := true, bgOn := true, windows := List.replicate 8 1024, cal := { r.cal with prev := some [0, 0, 0], state := 3 } }),
  by decide +kernel⟩, ⟨.a, [11, 0, 0], [0, 0, 0], W.run.modRx .a (fun r =>
  { r with fgPass := true, bgOn := true, windows := List.replicate 8 1024, cal := { r.cal with prev := some [0, 0, 0], state := 3 } }),
  by decide +kernel⟩, ⟨.a, W.run.setRegBit (winRx .a) 0 1 true, by decide +kernel⟩, ⟨.a, W.run.modRx .a (fun r =>
  { r with cal := { r.cal with tides := 65536 } }), by decide +kernel⟩, ⟨.a, [10, -10, 50], [0, 0, 0], W.run.modRx .a
  (fun r =>
  { r with kfgPass := true, bgOn := true, kWindows := 1024, kCal := { r.kCal with prev := some [0, 0, 0], state := 3 } }),
  by decide +kernel⟩, ⟨.a, [11, 0, 0], [0, 0, 0], W.run.modRx .a (fun r =>
  { r with kfgPass := true, bgOn := true, kWindows := 1024, kCal := { r.kCal with prev := some [0, 0, 0], state := 3 } }),
  by decide +kernel⟩, ⟨.a, W.run.setRegBit (winRx .a) 0 1 true, by decide +kernel⟩, ⟨.a, W.run.modRx .a (fun r =>
  { r with kCal := { r.kCal with tides := 65536 } }), by decide +kernel⟩⟩

theorem witness_ControlBits :
    (∃ (init : Nat), ∃ (q : Port), ∃ (s : State), Writes s init (winTx q)) ∧
    (∃ (init : Nat), ∃ (q : Port), ∃ (s : State), Writes s init (winRx q)) ∧
    (∃ (init : Nat), ∃ (q : Port), ∃ (s : State), Writes s init (winRx q)) ∧
    (∃ (init : Nat), ∃ (q : Port), ∃ (s : State), Writes s init (winRx q)) ∧
    (∃ (init : Nat), ∃ (q : Port), ∃ (s : State), Writes s init (winKiln q)) :=
  ⟨⟨1, .a, W.run, by decide +kernel⟩, ⟨1, .a, W.run, by decide +kernel⟩, ⟨1, .a, W.run, by decide +kernel⟩, ⟨1, .b,
  W.run, by decide +kernel⟩, ⟨1, .b, W.run, by decide +kernel⟩⟩

theorem witness_SwashAndDecimation :
    (∃ (q : Port), ∃ (l : Launch), ∃ (rest : List Launch), ∃ (s : State), (s.port q).flight = l :: rest ∧ s.rxOn q
    false = true ∧ bitOf (s.reg (winRx q) 0x200) 0 = true) ∧
    (∃ (q : Port), ∃ (c t0 : Nat), ∃ (more : List Nat), ∃ (b : SwLaunch), ∃ (rest : List SwLaunch), ∃ (s : State),
    s.rxOn q false = true ∧ bitOf (s.reg (winRx q) 0x300) 0 = true ∧ c < 2 ∧ (s.dec q c).due = t0 :: more ∧ (s.port
    q).sw.out.dropWhile (fun (x : SwLaunch) => x.l.time != t0) = b :: rest) ∧
    (∃ (q : Port), ∃ (c b : Nat), ∃ (x : SwLaunch), ∃ (s : State), s.rxOn q false = true ∧ (s.dec q c).want = some b ∧
    (s.port q).sw.out.head? = some x ∧ x.l.ell % presetD (if c = 0 then x.l.cfg.dec0 else x.l.cfg.dec1).preset = 0 ∧
    (s.dec q c).wantAt ≠ some x.l.time) ∧
    (∃ (q : Port), ∃ (k : LautSum), ∃ (s : State), s.rxOn q false = true ∧ bitOf (s.reg (winRx q) 0x310) 0 = true ∧
    (s.port q).laut.done = some k) ∧
    (∃ (c : OdCaller), ∃ (q : Port), ∃ (ch b : Nat), ∃ (s : State), ch < 2 ∧ b < 2 ∧ Serves s c 1 (objKey (decIndex q
    ch) 8) ∧ s.nat (decIndex q ch) 2 ≠ 0) ∧
    (∃ (c : OdCaller), ∃ (q : Port), ∃ (ch b : Nat), ∃ (v : List Byte), ∃ (s : State), ch < 2 ∧ b < 2 ∧ Serves s c 1
    (objKey (decIndex q ch) (0xA + b)) ∧ s.nat (decIndex q ch) 2 ≠ 0 ∧ (s.dec q ch).active ≠ b ∧ v.length = 24 *
    presetD (s.nat (decIndex q ch) 2) ∧ v.length ≤ 1024 ∧ bankOk (presetD (s.nat (decIndex q ch) 2)) ((pieces 4 (6 *
    presetD (s.nat (decIndex q ch) 2) + 1) v).map fun (x : List Byte) => toSigned 32 (leNat x)) = true) :=
  ⟨⟨.a, W.ls, [], (W.flying.modPort .a (fun p => { p with flight := [W.ls] })).setRegBit (winRx .a) 0x200 0 true,
  by decide +kernel⟩, ⟨.a, 0, W.l0.time, [], W.sl0, [], W.decim.modDec .a 0 (fun d => { d with due := [W.l0.time] }),
  by decide +kernel⟩, ⟨.a, 0, 1, W.sl0, W.decim.modDec .a 0 (fun d => { d with want := some 1 }), by decide +kernel⟩,
  ⟨.a, { last := W.l0 }, (W.run.setRegBit (winRx .a) 0x310 0 true).modPort .a (fun p =>
  { p with laut := { p.laut with done := some { last := W.l0 } } }), by decide +kernel⟩, ⟨W.own, .b, 1, 1,
  W.run.setObj (decIndex .b 1) 2 (u8 1), by decide +kernel⟩, ⟨W.own, .a, 0, 1, zeros 44 ++ u32 65536, W.run.setObj
  (decIndex .a 0) 2 (u8 1), by decide +kernel⟩⟩

theorem witness_KilnAccumulation :
    (∃ (q : Port), ∃ (l : Launch), ∃ (s : State), (s.port q).kiln.flight.getLast? = some l ∧ s.kilnRuns q = true ∧
    s.kilnOn q = true ∧ (s.port q).kiln.waiting = true ∧ (s.port q).kiln.acc = none ∧ (s.port q).kiln.waitAt ≤ l.time
    ∧ s.live q = true ∧ l.dark = false ∧ (s.port q).syn.locked = true) ∧
    (∃ (q : Port), ∃ (r : KilnRecord), ∃ (l : Launch), ∃ (rest : List Launch), ∃ (a : KilnAcc), ∃ (s : State), (s.port
    q).kiln.flight = l :: rest ∧ s.kilnRuns q = true ∧ (s.port q).kiln.acc = some a ∧ a.accepted + a.dropped < 2 ^
    a.cfg.shots ∧ a.start ≤ l.time ∧ l.dark = false ∧ l.tuning = false ∧ l.missing = false ∧ l.synOff = false ∧
    (s.kilnClipped q l r).1 = false) ∧
    (∃ (q : Port), ∃ (r : KilnRecord), ∃ (unlocked : Bool), ∃ (l : Launch), ∃ (rest : List Launch), ∃ (a : KilnAcc), ∃
    (s : State), (s.port q).kiln.flight = l :: rest ∧ s.kilnRuns q = true ∧ (s.port q).kiln.acc = some a ∧ a.accepted
    + a.dropped < 2 ^ a.cfg.shots ∧ a.start ≤ l.time ∧ (s.kilnClipped q l r).1 = true ∨ l.dark = true ∨ l.tuning =
    true ∨ l.missing = true ∨ l.synOff = true ∨ unlocked = true) ∧
    (∃ (q : Port), ∃ (a : KilnAcc), ∃ (s : State), s.kilnRuns q = true ∧ (s.port q).kiln.acc = some a ∧ a.accepted +
    a.dropped = 2 ^ a.cfg.shots) :=
  ⟨⟨.a, W.l0, W.kiln.modKiln .a (fun k => { k with waiting := true, acc := none }), by decide +kernel⟩, ⟨.a, ⟨0, []⟩,
  W.l0, [], { }, W.kiln.modKiln .a (fun k => { k with acc := some {} }), by decide +kernel⟩, ⟨.a, ⟨0, []⟩, true, W.l0,
  [], { }, W.kiln.modKiln .a (fun k => { k with acc := some {} }), by decide +kernel⟩, ⟨.b,
  { cfg := { shots := 0 }, accepted := 1 }, W.kiln.modKiln .b (fun k =>
  { k with acc := some { cfg := { shots := 0 }, accepted := 1 } }), by decide +kernel⟩⟩

theorem witness_KilnFits :
    (∃ (q : Port), ∃ (rest : List Port), ∃ (f : KilnFit), ∃ (more : List KilnFit), ∃ (s : State), s.brewOn = true ∧
    s.brew.fitQueue = q :: rest ∧ (s.port q).kiln.fits = f :: more ∧ f.ranges = none ∧ f.bins = none ∧ s.poolCores 4 ≠
    [] ∧ (s.brew.cores.all fun (k : Core) => k.work != some (Work.fit .a) && k.work != some (Work.fit .b)) = true) ∧
    (∃ (q : Port), ∃ (f : KilnFit), ∃ (more : List KilnFit), ∃ (s : State), s.brewOn = true ∧ (s.port q).kiln.fits = f
    :: more ∧ f.ranges.isSome = true ∧ f.bins = none) ∧
    (∃ (q : Port), ∃ (f g : KilnFit), ∃ (more : List KilnFit), ∃ (s : State), s.up = true ∧ (s.port q).kiln.fits = f
    :: g :: more ∧ f.bins = none) ∧
    (∃ (q : Port), ∃ (f : KilnFit), ∃ (rest : List KilnFit), ∃ (b : List BinFit), ∃ (s : State), s.up = true ∧ (s.port
    q).kiln.fits = f :: rest ∧ f.bins = some b ∧ s.fitLate f = false) ∧
    (∃ (c : OdCaller), ∃ (q : Port), ∃ (s : State), Serves s c 1 (objKey (portIndex q 0x4011) 0xA) ∧ s.live q = true ∧
    (s.port q).rx.kfgPass = true ∧ s.kilnOn q = false ∧ (s.port q).kiln.shapeRun = false) ∧
    (∃ (q : Port), ∃ (run1 run2 : List Nat), ∃ (s : State), s.up = true ∧ (s.port q).kiln.shapeRun = true ∧ (s.port
    q).kiln.shapeRuns = [run2, run1] ∧ run1.length = kilnCh (s.pn q 0x4010 5 == 16) ∧ run2.length = kilnCh (s.pn q
    0x4010 5 == 16) ∧ (run1 ++ run2).all (0 < ·) = true ∧ ((shapeNorm run1).zip (shapeNorm run2)).all (fun (z :
    Machine.Num × Machine.Num) => (z.1.div z.2).le (Machine.Num.exp10 (Machine.Num.dec 2 2)) && (z.2.div z.1).le
    (Machine.Num.exp10 (Machine.Num.dec 2 2))) = true) ∧
    (∃ (q : Port), ∃ (count : Nat), ∃ (r0 : List Int), ∃ (s : State), s.up = true ∧ (s.port q).kiln.freqRun = true ∧
    (s.port q).syn.on = true ∧ (s.port q).syn.locked = true ∧ (s.port q).kiln.freq.prev = some r0 ∧ runsAgree [500] r0
    [((Machine.Num.ofNat (256 * count)).sub (s.synHz q)).nearest] = true) ∧
    (∃ (q : Port), ∃ (s : State), s.up = true ∧ (s.port q).syn.on = true) :=
  ⟨⟨.a, [], W.fit, [], W.fitting, by decide +kernel⟩, ⟨.a, { W.fit with ranges := some [] }, [], W.fitting.modFit .a
  (fun f => { f with ranges := some [] }), by decide +kernel⟩, ⟨.a, W.fit, W.fit, [], W.fitting.modKiln .a (fun k =>
  { k with fits := [W.fit, W.fit] }), by decide +kernel⟩, ⟨.a, { W.fit with bins := some [] }, [], [],
  W.fitting.modKiln .a (fun k => { k with fits := [{ W.fit with bins := some [] }] }), by decide +kernel⟩, ⟨W.own, .b,
  (W.opt { state := 6 }).modRx .b (fun r => { r with kfgPass := true }), by decide +kernel⟩, ⟨.a, List.replicate 32 7,
  List.replicate 32 7, W.run.modKiln .a (fun k =>
  { k with shapeRun := true, shapeRuns := [List.replicate 32 7, List.replicate 32 7] }), by decide +kernel⟩, ⟨.a, 1,
  [6], (W.run.modKiln .a (fun k => { k with freqRun := true, freq := { prev := some [6] } })).modPort .a (fun p =>
  { p with syn := { on := true, locked := true, steps := 27 } }), by decide +kernel⟩, ⟨.b, W.run.modPort .b (fun p =>
  { p with syn := { on := true, locked := true, steps := 27 } }), by decide +kernel⟩⟩

theorem witness_VectorInstructions :
    (∃ (c : Nat), ∃ (m : Moves), ∃ (s : State), s.coreReady c = true ∧ (s.core c).movesOk m = true ∧ c <
    s.brew.cores.length) ∧
    (∃ (c : Nat), ∃ (m : Moves), ∃ (s : State), s.coreReady c = true ∧ (s.core c).movesOk m = true ∧ c <
    s.brew.cores.length) ∧
    (∃ (c : Nat), ∃ (m : Moves), ∃ (s : State), s.coreReady c = true ∧ (s.core c).movesOk m = true ∧ c <
    s.brew.cores.length) ∧
    (∃ (c : Nat), ∃ (m : Moves), ∃ (s : State), s.coreReady c = true ∧ (s.core c).movesOk m = true ∧ c <
    s.brew.cores.length) ∧
    (∃ (c : Nat), ∃ (m : Moves), ∃ (s : State), s.coreReady c = true ∧ (s.core c).movesOk m = true ∧ c <
    s.brew.cores.length) ∧
    (∃ (c : Nat), ∃ (m : Moves), ∃ (s : State), s.coreReady c = true ∧ (s.core c).movesOk m = true ∧ c <
    s.brew.cores.length) ∧
    (∃ (c : Nat), ∃ (m : Moves), ∃ (s : State), s.coreReady c = true ∧ (s.core c).movesOk m = true ∧ c <
    s.brew.cores.length) ∧
    (∃ (c : Nat), ∃ (m : Moves), ∃ (s : State), s.coreReady c = true ∧ (s.core c).movesOk m = true ∧ c <
    s.brew.cores.length) ∧
    (∃ (c : Nat), ∃ (m : Moves), ∃ (s : State), s.coreReady c = true ∧ (s.core c).movesOk m = true ∧ c <
    s.brew.cores.length) ∧
    (∃ (c : Nat), ∃ (m : Moves), ∃ (s : State), s.coreReady c = true ∧ (s.core c).movesOk m = true ∧ c <
    s.brew.cores.length) :=
  ⟨⟨3, ⟨none, none⟩, W.core, by decide +kernel⟩, ⟨3, ⟨none, none⟩, W.core, by decide +kernel⟩, ⟨3, ⟨none, none⟩,
  W.core, by decide +kernel⟩, ⟨3, ⟨none, none⟩, W.core, by decide +kernel⟩, ⟨3, ⟨none, none⟩, W.core,
  by decide +kernel⟩, ⟨3, ⟨none, none⟩, W.core, by decide +kernel⟩, ⟨3, ⟨none, none⟩, W.core, by decide +kernel⟩, ⟨3,
  ⟨none, none⟩, W.core, by decide +kernel⟩, ⟨3, ⟨none, none⟩, W.core, by decide +kernel⟩, ⟨3, ⟨none, none⟩, W.core,
  by decide +kernel⟩⟩

theorem witness_ScalarAndMemoryInstructions :
    (∃ (c : Nat), ∃ (m : Moves), ∃ (s : State), s.coreReady c = true ∧ (s.core c).movesOk m = true ∧ c <
    s.brew.cores.length) ∧
    (∃ (c : Nat), ∃ (m : Moves), ∃ (s : State), s.coreReady c = true ∧ (s.core c).movesOk m = true ∧ c <
    s.brew.cores.length) ∧
    (∃ (c : Nat), ∃ (z : ScalarMem), ∃ (m : Moves), ∃ (s : State), s.coreReady c = true ∧ (s.core c).movesOk m = true
    ∧ c < s.brew.cores.length ∧ s.clusterOk (s.core c).owner (ofSigned 32 (((s.core c).s.getD z.addr 0 : Nat) +
    z.ofs)) z.bytes = true ∧ (z.bytes < 4 ∨ (ofSigned 32 (((s.core c).s.getD z.addr 0 : Nat) + z.ofs)) % z.bytes = 0)
    ∧ z.store = false) ∧
    (∃ (c : Nat), ∃ (z : ScalarMem), ∃ (m : Moves), ∃ (s : State), s.coreReady c = true ∧ (s.core c).movesOk m = true
    ∧ c < s.brew.cores.length ∧ s.clusterOk (s.core c).owner (ofSigned 32 (((s.core c).s.getD z.addr 0 : Nat) +
    z.ofs)) z.bytes = true ∧ (z.bytes < 4 ∨ (ofSigned 32 (((s.core c).s.getD z.addr 0 : Nat) + z.ofs)) % z.bytes = 0)
    ∧ z.store = true) ∧
    (∃ (c : Nat), ∃ (m : Moves), ∃ (s : State), s.coreReady c = true ∧ (s.core c).movesOk m = true ∧ c <
    s.brew.cores.length) :=
  ⟨⟨3, ⟨none, none⟩, W.core, by decide +kernel⟩, ⟨3, ⟨some ⟨true, 0, 4, 1, 0⟩, none⟩, W.core, by decide +kernel⟩, ⟨3,
  ⟨false, 4, 1, 8, 2⟩, ⟨none, none⟩, W.core, by decide +kernel⟩, ⟨3, ⟨true, 2, 1, 6, 2⟩, ⟨none, none⟩, W.core,
  by decide +kernel⟩, ⟨3, ⟨none, none⟩, W.core, by decide +kernel⟩⟩

theorem witness_ControlInstructions :
    (∃ (c : Nat), ∃ (cond : Cond), ∃ (m : Moves), ∃ (s : State), s.coreReady c = true ∧ (s.core c).movesOk m = true ∧
    c < s.brew.cores.length ∧ (s.core c).holds cond = false) ∧
    (∃ (c : Nat), ∃ (cond : Cond), ∃ (m : Moves), ∃ (s : State), s.coreReady c = true ∧ (s.core c).movesOk m = true ∧
    c < s.brew.cores.length ∧ (s.core c).holds cond = true) ∧
    (∃ (c : Nat), ∃ (cond : Cond), ∃ (m : Moves), ∃ (s : State), s.coreReady c = true ∧ (s.core c).movesOk m = true ∧
    c < s.brew.cores.length ∧ (s.core c).holds cond = true ∧ (s.core c).rets.length < 16) ∧
    (∃ (c a : Nat), ∃ (r : List Nat), ∃ (cond : Cond), ∃ (m : Moves), ∃ (s : State), s.coreReady c = true ∧ (s.core
    c).movesOk m = true ∧ c < s.brew.cores.length ∧ (s.core c).holds cond = true ∧ (s.core c).rets = a :: r) ∧
    (∃ (c count : Nat), ∃ (m : Moves), ∃ (s : State), s.coreReady c = true ∧ (s.core c).movesOk m = true ∧ c <
    s.brew.cores.length ∧ (s.core c).past.loops.length < 4 ∧ (s.core c).s.getD count 0 ≠ 0) ∧
    (∃ (c count : Nat), ∃ (m : Moves), ∃ (s : State), s.coreReady c = true ∧ (s.core c).movesOk m = true ∧ c <
    s.brew.cores.length ∧ (s.core c).past.loops.length < 4 ∧ (s.core c).s.getD count 0 = 0) ∧
    (∃ (c : Nat), ∃ (m : Moves), ∃ (s : State), s.coreReady c = true ∧ (s.core c).movesOk m = true ∧ c <
    s.brew.cores.length) ∧
    (∃ (c : Nat), ∃ (m : Moves), ∃ (s : State), s.coreReady c = true ∧ (s.core c).movesOk m = true ∧ c <
    s.brew.cores.length) ∧
    (∃ (c : Nat), ∃ (m : Moves), ∃ (s : State), s.coreReady c = true ∧ (s.core c).movesOk m = true ∧ c <
    s.brew.cores.length ∧ (s.core c).dma.length < 4) ∧
    (∃ (c : Nat), ∃ (m : Moves), ∃ (s : State), s.coreReady c = true ∧ (s.core c).movesOk m = true ∧ c <
    s.brew.cores.length) ∧
    (∃ (c : Nat), ∃ (p : Option Nat), ∃ (d : DmaDesc), ∃ (rest : List (Option Nat × DmaDesc)), ∃ (b : List Byte), ∃ (s
    : State), s.brewOn = true ∧ c < 16 ∧ c < s.brew.cores.length ∧ (s.core c).dma = (p, d) :: rest ∧ s.dmaRead c p
    d.src d.srcAddr d.len = some b ∧ d.src < 5 ∧ d.dst = 0 ∧ d.dstAddr + b.length ≤ coreMemSize) ∧
    (∃ (c : Nat), ∃ (p : Option Nat), ∃ (d : DmaDesc), ∃ (rest : List (Option Nat × DmaDesc)), ∃ (b : List Byte), ∃ (s
    : State), s.brewOn = true ∧ c < 16 ∧ c < s.brew.cores.length ∧ (s.core c).dma = (p, d) :: rest ∧ s.dmaRead c p
    d.src d.srcAddr d.len = some b ∧ d.src < 5 ∧ d.dst = 1 ∧ d.dstAddr + b.length ≤ coreMemSize) ∧
    (∃ (c : Nat), ∃ (p : Option Nat), ∃ (d : DmaDesc), ∃ (rest : List (Option Nat × DmaDesc)), ∃ (b : List Byte), ∃ (s
    : State), s.brewOn = true ∧ c < 16 ∧ c < s.brew.cores.length ∧ (s.core c).dma = (p, d) :: rest ∧ s.dmaRead c p
    d.src d.srcAddr d.len = some b ∧ d.src < 5 ∧ d.dst = 2 ∧ s.clusterOk p d.dstAddr b.length = true) ∧
    (∃ (c : Nat), ∃ (p : Option Nat), ∃ (d : DmaDesc), ∃ (rest : List (Option Nat × DmaDesc)), ∃ (b : List Byte), ∃ (s
    : State), s.brewOn = true ∧ c < 16 ∧ c < s.brew.cores.length ∧ (s.core c).dma = (p, d) :: rest ∧ s.dmaRead c p
    d.src d.srcAddr d.len = some b ∧ d.src < 5 ∧ d.dst = 3 ∧ p = none ∧ d.dstAddr + b.length ≤ 0xC00000) ∧
    (∃ (c q : Nat), ∃ (d : DmaDesc), ∃ (rest : List (Option Nat × DmaDesc)), ∃ (s : State), s.brewOn = true ∧ c < 16 ∧
    c < s.brew.cores.length ∧ (s.core c).dma = (some q, d) :: rest ∧ (d.src = 3 ∨ d.src = 4)) ∧
    (∃ (c p : Nat), ∃ (m : Moves), ∃ (s : State), s.coreReady c = true ∧ (s.core c).movesOk m = true ∧ c <
    s.brew.cores.length ∧ (s.core c).work = some (Work.customer p) ∧ p < s.brew.progs.length ∧ (s.core c).stopping =
    false) :=
  ⟨⟨3, .nonzero 1, ⟨none, none⟩, W.core, by decide +kernel⟩, ⟨3, .zero 1, ⟨none, none⟩, W.core, by decide +kernel⟩,
  ⟨3, .always, ⟨none, none⟩, W.core, by decide +kernel⟩, ⟨3, 7, [], .always, ⟨none, none⟩, W.core.modCore 3 (fun k =>
  { k with rets := [7] }), by decide +kernel⟩, ⟨3, 1, ⟨none, none⟩, W.core.modCore 3 (fun k =>
  { k with s := setAt k.s 1 6 }), by decide +kernel⟩, ⟨3, 1, ⟨none, none⟩, W.core, by decide +kernel⟩, ⟨3, ⟨none,
  none⟩, W.core, by decide +kernel⟩, ⟨3, ⟨none, none⟩, W.core, by decide +kernel⟩, ⟨3, ⟨none, none⟩, W.core,
  by decide +kernel⟩, ⟨3, ⟨none, none⟩, W.core, by decide +kernel⟩, ⟨3, none, ⟨1, 16, 0, 32, 8⟩, [], zeros 8,
  W.core.modCore 3 (fun k => { k with dma := [(none, ⟨1, 16, 0, 32, 8⟩)] }), by decide +kernel⟩, ⟨3, none, ⟨0, 16, 1,
  32, 8⟩, [], zeros 8, W.core.modCore 3 (fun k => { k with dma := [(none, ⟨0, 16, 1, 32, 8⟩)] }), by decide +kernel⟩,
  ⟨3, none, ⟨0, 16, 2, 32, 8⟩, [], zeros 8, W.core.modCore 3 (fun k => { k with dma := [(none, ⟨0, 16, 2, 32, 8⟩)] }),
  by decide +kernel⟩, ⟨3, none, ⟨0, 16, 3, 32, 8⟩, [], zeros 8, W.core.modCore 3 (fun k =>
  { k with dma := [(none, ⟨0, 16, 3, 32, 8⟩)] }), by decide +kernel⟩, ⟨3, 2, ⟨4, 16, 0, 32, 8⟩, [], W.core.modCore 3
  (fun k => { k with dma := [(some 2, ⟨4, 16, 0, 32, 8⟩)] }), by decide +kernel⟩, ⟨3, 2, ⟨none, none⟩, W.core.modCore
  3 (fun k => { k with work := some (.customer 2) }), by decide +kernel⟩⟩

theorem witness_CoreFaultsAndDispatch :
    (∃ (c cause : Nat), ∃ (s : State), s.brewOn = true ∧ c < 16 ∧ c < s.brew.cores.length ∧ cause < 3 ∧ (s.core
    c).running = true) ∧
    (∃ (c : Nat), ∃ (s : State), s.brewOn = true ∧ c < s.brew.cores.length ∧ (s.core c).aborting = true) ∧
    (∃ (c : Nat), ∃ (s : State), s.brewOn = true ∧ c < s.brew.cores.length ∧ (s.core c).stopping = true) ∧
    (∃ (q : Port), ∃ (r : LautRec), ∃ (s : State), (s.port q).lautRec = some r ∧ s.brewOn = true ∧ (s.detUse q
    r.last.nth).on = true ∧ (s.port q).det.work = none ∧ s.late r.last.nth = false ∧ s.poolCores (1 + Port.num q) ≠
    []) ∧
    (∃ (q : Port), ∃ (c : Nat), ∃ (w : DetWork), ∃ (x : Nat × Nat × Nat), ∃ (s : State), s.brewOn = true ∧ (s.port
    q).det.work = some w ∧ s.late w.lrec.last.nth = false ∧ w.busy.find? (fun (r : Nat × Nat × Nat) => r.1 == c) =
    some x ∧ c < s.brew.cores.length ∧ w.busy.filter (fun (r : Nat × Nat × Nat) => r.1 != c) ≠ [] ∧ (w.lrec.settling
    || w.lrec.incomplete) = false) ∧
    (∃ (q : Port), ∃ (c : Nat), ∃ (w : DetWork), ∃ (x : Nat × Nat × Nat), ∃ (s : State), s.brewOn = true ∧ (s.port
    q).det.work = some w ∧ s.late w.lrec.last.nth = false ∧ w.busy.find? (fun (r : Nat × Nat × Nat) => r.1 == c) =
    some x ∧ c < s.brew.cores.length ∧ w.busy.filter (fun (r : Nat × Nat × Nat) => r.1 != c) ≠ [] ∧ (w.lrec.settling
    || w.lrec.incomplete) = true) ∧
    (∃ (q : Port), ∃ (c : Nat), ∃ (w : DetWork), ∃ (x : Nat × Nat × Nat), ∃ (s : State), s.brewOn = true ∧ (s.port
    q).det.work = some w ∧ s.late w.lrec.last.nth = false ∧ w.busy.find? (fun (r : Nat × Nat × Nat) => r.1 == c) =
    some x ∧ c < s.brew.cores.length ∧ w.busy.filter (fun (r : Nat × Nat × Nat) => r.1 != c) = []) ∧
    (∃ (q : Port), ∃ (r : DetRec), ∃ (s : State), s.brewOn = true ∧ s.poolCores 3 ≠ [] ∧ (s.port q).det.done = some r
    ∧ s.trkOnAt q r.nth = true ∧ (s.port q).trk.doneTo ≤ r.nth ∧ s.late r.nth = false ∧ (s.port q).trk.work = none ∧
    (s.detOwed .a ++ s.detOwed .b).all (fun (n : Nat) => decide (r.nth < n)) = true) ∧
    (∃ (r : DetRec), ∃ (s : State), s.brewOn = true ∧ s.poolCores 3 ≠ [] ∧ s.pa.det.done = some r ∧ s.trkOnAt .a r.nth
    = true ∧ s.pa.trk.doneTo ≤ r.nth ∧ s.late r.nth = false ∧ s.pa.trk.work = none ∧ (s.detOwed .a ++ s.detOwed
    .b).all (fun (n : Nat) => decide (r.nth < n)) = true) ∧
    (∃ (q : Port), ∃ (c : Nat), ∃ (r : DetRec), ∃ (s : State), s.brewOn = true ∧ (s.port q).trk.work = some (c, r) ∧
    s.late r.nth = false ∧ r.evaluated = false) ∧
    (∃ (q : Port), ∃ (c : Nat), ∃ (r : DetRec), ∃ (s : State), s.brewOn = true ∧ (s.port q).trk.work = some (c, r) ∧
    s.late r.nth = false ∧ r.evaluated = true) ∧
    (∃ (q : Port), ∃ (r : RingRec), ∃ (rest : List RingRec), ∃ (p : Nat), ∃ (g : Program), ∃ (s : State), (s.port
    q).brewIn = r :: rest ∧ s.brewOn = true ∧ p < 4 ∧ p < s.brew.progs.length ∧ Program.subscribes (s.program p) q r =
    true ∧ Program.take (s.program p) q r.bytes = some g) ∧
    (∃ (c : OdCaller), ∃ (p : Nat), ∃ (v : List Byte), ∃ (h : ImageHeader), ∃ (s : State), p < 4 ∧ p <
    s.brew.progs.length ∧ Serves s c 2 (objKey (0x9010 + p) 1) ∧ (s.program p).state ≠ 2 ∧ h.crcOk = true ∧ h.length ≤
    v.length ∧ v.length ≤ 1024 ∧ h.code ≤ 32768 ∧ s.ownerState = 0) ∧
    (∃ (c : OdCaller), ∃ (p : Nat), ∃ (s : State), p < 4 ∧ Serves s c 1 (objKey (0x9010 + p) 3) ∧ s.canRun p = true) ∧
    (∃ (c : OdCaller), ∃ (p : Nat), ∃ (s : State), p < 4 ∧ Serves s c 1 (objKey (0x9010 + p) 3)) :=
  ⟨⟨3, 2, W.core, by decide +kernel⟩, ⟨3, W.core.modCore 3 (fun k => { k with aborting := true }), by decide +kernel⟩,
  ⟨3, W.core.modCore 3 (fun k => { k with stopping := true }), by decide +kernel⟩, ⟨.a, W.laut, W.detect,
  by decide +kernel⟩, ⟨.a, 1, { lrec := W.laut, busy := [(1, 0, 1), (2, 1, 1)] }, (1, 0, 1), W.detect.modDet .a (fun d
  => { d with work := some { lrec := W.laut, busy := [(1, 0, 1), (2, 1, 1)] } }), by decide +kernel⟩, ⟨.a, 1,
  { lrec := { W.laut with settling := true }, busy := [(1, 0, 1), (2, 1, 1)] }, (1, 0, 1), W.detect.modDet .a (fun d
  => { d with work := some { lrec := { W.laut with settling := true }, busy := [(1, 0, 1), (2, 1, 1)] } }),
  by decide +kernel⟩, ⟨.a, 1, { lrec := W.laut, busy := [(1, 0, 1)] }, (1, 0, 1), W.detect.modDet .a (fun d =>
  { d with work := some { lrec := W.laut, busy := [(1, 0, 1)] } }), by decide +kernel⟩, ⟨.a, W.drec, W.track,
  by decide +kernel⟩, ⟨W.drec, W.track, by decide +kernel⟩, ⟨.a, 5, { W.drec with evaluated := false }, W.track.modTrk
  .a (fun k => { k with work := some (5, { W.drec with evaluated := false }) }), by decide +kernel⟩, ⟨.a, 5, W.drec,
  W.track.modTrk .a (fun k => { k with work := some (5, W.drec) }), by decide +kernel⟩, ⟨.a, W.ring, [], 2,
  { W.prog with ringA := [[1, 2]], putA := 2 }, W.stream, by decide +kernel⟩, ⟨W.own, 2, [1, 2], { length := 2 },
  W.run, by decide +kernel⟩, ⟨W.own, 2, W.stream, by decide +kernel⟩, ⟨W.own, 2, W.run, by decide +kernel⟩⟩

theorem witness_CellarWriting :
    (∃ (q : Port), ∃ (x : RingRec), ∃ (rest : List RingRec), ∃ (s : State), (s.port q).celIn = x :: rest ∧ s.celOn q =
    true ∧ (s.ring q x.ring).n ≠ 0 ∧ (s.ring q x.ring).fill + entrySize x.bytes.length ≤ (s.ring q x.ring).segBytes ∧
    s.dramOk (s.ring q x.ring).base = true ∧ s.dramOk ((s.ring q x.ring).base + (s.ring q x.ring).n * (s.ring q
    x.ring).segBytes - 1) = true ∧ (s.ring q x.ring).dropN = 0) ∧
    (∃ (q : Port), ∃ (x : RingRec), ∃ (rest : List RingRec), ∃ (s : State), (s.port q).celIn = x :: rest ∧ s.celOn q =
    true ∧ (s.ring q x.ring).n ≠ 0) ∧
    (∃ (q : Port), ∃ (c : Nat), ∃ (s : State), s.celOn q = true ∧ (s.ring q c).dropN ≠ 0 ∧ (s.ring q c).n ≠ 0 ∧
    (s.ring q c).fill + entrySize 16 ≤ (s.ring q c).segBytes ∧ s.dramOk (s.ring q c).base = true ∧ s.dramOk ((s.ring q
    c).base + (s.ring q c).n * (s.ring q c).segBytes - 1) = true) :=
  ⟨⟨.a, W.rec, [], W.cellar, by decide +kernel⟩, ⟨.a, W.rec, [], W.cellar, by decide +kernel⟩, ⟨.a, 0,
  W.cellar.modRing .a 0 (fun r => { r with dropN := 3 }), by decide +kernel⟩⟩

theorem witness_CellarTriggers :
    (∃ (q p : Port), ∃ (d : Nat), ∃ (r : DetRec), ∃ (e : DetEntry), ∃ (x : PlanRun), ∃ (s : State), (s.port
    q).det.trig = some r ∧ s.capsOf (1 + Port.num q) = [d] ∧ s.qualifies d r = some e ∧ p = (if s.nat (capIndex d) 3 =
    0 then Port.a else if s.nat (capIndex d) 3 = 1 then Port.b else q) ∧ bitOf (s.reg (winCel p) 0) 0 = true ∧ (s.port
    p).hasPlan = true ∧ s.tide.running = true ∧ runAt (s.port p).cel.runs r.time = some x ∧ (s.port
    p).cel.queue.length < 32 ∧ ((runOfOrd (s.port p).cel.runs (x.ordOf (r.tide * x.m))).map (fun (y : PlanRun) =>
    y.time (r.tide * x.m))).getD 0 ≤ s.time.now + 1000000000) ∧
    (∃ (n v d : Nat), ∃ (more : List Nat), ∃ (r : PlanRun), ∃ (e : Nat), ∃ (s : State), s.up = true ∧ n < 2 ∧ (s.tiu
    (2 + n)).events = v :: more ∧ (s.tiu (2 + n)).stuck = false ∧ s.capsOf (3 + n) = [d] ∧ bitOf (s.reg (winCel
    (s.timedPort d)) 0) 0 = true ∧ (s.port (s.timedPort d)).hasPlan = true ∧ s.tide.running = true ∧ s.resolve
    (s.timedPort d) (s.nat (capIndex d) 7) (ceilDiv v 1000) = some (r, e) ∧ (s.port (s.timedPort d)).cel.queue.length
    < 32 ∧ ((runOfOrd (s.port (s.timedPort d)).cel.runs (r.ordOf e)).map (fun (x : PlanRun) => x.time e)).getD 0 ≤
    s.time.now + 1000000000) ∧
    (∃ (c : OdCaller), ∃ (d v : Nat), ∃ (r : PlanRun), ∃ (e : Nat), ∃ (s : State), d < 16 ∧ 0 < v ∧ v < 2 ^ 64 ∧
    Serves s c 1 (objKey (0x5100 + d) 0xF) ∧ s.nat (capIndex d) 2 = 5 ∧ bitOf (s.reg (winCel (s.timedPort d)) 0) 0 =
    true ∧ (s.port (s.timedPort d)).hasPlan = true ∧ s.tide.running = true ∧ s.resolve (s.timedPort d) (s.nat
    (capIndex d) 7) (v) = some (r, e) ∧ (s.port (s.timedPort d)).cel.queue.length < 32 ∧ ((runOfOrd (s.port
    (s.timedPort d)).cel.runs (r.ordOf e)).map (fun (x : PlanRun) => x.time e)).getD 0 ≤ s.time.now + 1000000000) ∧
    (∃ (inp : LinkPort), ∃ (f : Frame), ∃ (d : Nat), ∃ (r : PlanRun), ∃ (e : Nat), ∃ (s : State), s.up = true ∧
    s.carries inp = true ∧ (s.ingress inp f).1 = true ∧ s.chnOn = true ∧ s.takes f = true ∧ s.capsOf 6 = [d] ∧ (s.cap
    d).state = 1 ∨ (s.cap d).state = 2 ∧ bitOf (s.reg (winCel (s.timedPort d)) 0) 0 = true ∧ (s.port (s.timedPort
    d)).hasPlan = true ∧ s.tide.running = true ∧ s.resolve (s.timedPort d) (s.nat (capIndex d) 7) (f.fields.getD 0 0)
    = some (r, e) ∧ (s.port (s.timedPort d)).cel.queue.length < 32 ∧ ((runOfOrd (s.port (s.timedPort d)).cel.runs
    (r.ordOf e)).map (fun (x : PlanRun) => x.time e)).getD 0 ≤ s.time.now + 1000000000) ∧
    (∃ (q : Port), ∃ (t0 : Trigger), ∃ (rest : List Trigger), ∃ (x : Nat × RingEntry), ∃ (s : State), (s.port
    q).cel.queue.map s.resolved = t0 :: rest ∧ s.celOn q = true ∧ ((s.ring q 0).entries.filter fun (z : Nat ×
    RingEntry) => z.2.type == 1).getLast? = some x ∧ (rest.foldl (fun (m x : Trigger) => if x.before m then x else m)
    t0).ord ≤ x.2.ord ∧ (rest.foldl (fun (m x : Trigger) => if x.before m then x else m) t0).d < s.caps.length ∧
    (s.cap (rest.foldl (fun (m x : Trigger) => if x.before m then x else m) t0).d).state = 1 ∧ s.ident.holdOff = false
    ∧ (s.cap (rest.foldl (fun (m x : Trigger) => if x.before m then x else m) t0).d).lastAcc = none ∧ s.tooLate
    (rest.foldl (fun (m x : Trigger) => if x.before m then x else m) t0) = false) :=
  ⟨⟨.a, .a, 0, W.trec, ⟨0, 0, 0, 9999, 1, 0⟩, W.prun, (W.capSrc 1).modDet .a (fun k =>
  { k with trig := some W.trec }), by decide +kernel⟩, ⟨0, 4000000000000, 0, [], W.prun, 32000, (W.capSrc 3).modTiu 2
  (fun x => { x with events := [4000000000000] }), by decide +kernel⟩, ⟨W.own, 0, 4000000000, W.prun, 32000, W.capSrc
  5, by decide +kernel⟩, ⟨.w, W.frame 2 0x31 [4000000000, 3, 0], 0, W.prun, 32000, W.linked ((W.capSrc 6).modCap 0
  (fun k => { k with state := 1 })), by decide +kernel⟩, ⟨.a, W.trg, [], (0, W.rent), W.queued, by decide +kernel⟩⟩

theorem witness_Captures :
    (∃ (d : Nat), ∃ (s : State), d < s.caps.length ∧ (s.cap d).state = 2 ∧ (s.cap d).full = true ∨ s.windowDone d =
    true) ∧
    (∃ (c : OdCaller), ∃ (d : Nat), ∃ (s : State), d < 16 ∧ d < s.caps.length ∧ Serves s c 1 (objKey (0x5100 + d) 1) ∧
    (s.cap d).state < 2) ∧
    (∃ (c : OdCaller), ∃ (d : Nat), ∃ (s : State), d < 16 ∧ d < s.caps.length ∧ Serves s c 1 (objKey (0x5100 + d) 1) ∧
    (s.cap d).state = 1) ∧
    (∃ (c : OdCaller), ∃ (d : Nat), ∃ (s : State), d < 16 ∧ d < s.caps.length ∧ Serves s c 1 (objKey (0x5100 + d) 1) ∧
    (s.cap d).state = 2) ∧
    (∃ (c : OdCaller), ∃ (d : Nat), ∃ (s : State), d < 16 ∧ d < s.caps.length ∧ Serves s c 1 (objKey (0x5100 + d)
    0x16) ∧ (s.cap d).state ≠ 2 ∧ (s.cap d).state ≠ 4) ∧
    (∃ (c : OdCaller), ∃ (d : Nat), ∃ (s : State), d < 16 ∧ d < s.caps.length ∧ Serves s c 1 (objKey (0x5100 + d)
    0x17) ∧ (s.cap d).state = 3) ∧
    (∃ (c : OdCaller), ∃ (d : Nat), ∃ (s : State), d < 16 ∧ d < s.caps.length ∧ Serves s c 1 (objKey (0x5100 + d)
    0x17) ∧ (s.cap d).state = 3) ∧
    (∃ (c : OdCaller), ∃ (d : Nat), ∃ (s : State), d < 16 ∧ d < s.caps.length ∧ Serves s c 1 (objKey (0x5100 + d)
    0x17) ∧ (s.cap d).state = 3) ∧
    (∃ (c : OdCaller), ∃ (d : Nat), ∃ (s : State), d < 16 ∧ d < s.caps.length ∧ Serves s c 1 (objKey (0x5100 + d)
    0x17) ∧ (s.cap d).state = 4) ∧
    (∃ (d : Nat), ∃ (s : State), d < s.caps.length ∧ (s.cap d).state = 4 ∧ (s.cap d).job = 1 ∨ s.cask.jobs.any (fun (x
    : ExportJob) => x.d == d) = false) ∧
    (∃ (d : Nat), ∃ (s : State), d < s.caps.length ∧ (s.cap d).state = 4 ∧ (s.cap d).job ≠ 1 ∧ s.cask.jobs.any (fun (x
    : ExportJob) => x.d == d) = true) ∧
    (∃ (d : Nat), ∃ (s : State), d < s.caps.length ∧ (s.cap d).state = 4) :=
  ⟨⟨2, W.run.modCap 2 (fun k => { k with state := 2, full := true }), by decide +kernel⟩, ⟨W.own, 2, W.run,
  by decide +kernel⟩, ⟨W.own, 2, W.run.modCap 2 (fun k => { k with state := 1 }), by decide +kernel⟩, ⟨W.own, 2,
  W.run.modCap 2 (fun k => { k with state := 2 }), by decide +kernel⟩, ⟨W.own, 2, W.run.modCap 2 (fun k =>
  { k with state := 3 }), by decide +kernel⟩, ⟨W.own, 2, W.run.modCap 2 (fun k => { k with state := 3 }),
  by decide +kernel⟩, ⟨W.own, 2, W.run.modCap 2 (fun k => { k with state := 3 }), by decide +kernel⟩, ⟨W.own, 2,
  W.run.modCap 2 (fun k => { k with state := 3 }), by decide +kernel⟩, ⟨W.own, 2, W.run.modCap 2 (fun k =>
  { k with state := 4 }), by decide +kernel⟩, ⟨2, W.run.modCap 2 (fun k => { k with state := 4 }), by decide +kernel⟩,
  ⟨2,
  { W.run.modCap 2 (fun k => { k with state := 4, job := 2 }) with cask := { W.run.cask with jobs := [{ d := 2, q := .a, c := 0, seg := 0 }] } },
  by decide +kernel⟩, ⟨2, W.run.modCap 2 (fun k => { k with state := 4 }), by decide +kernel⟩⟩

theorem witness_DramAccesses :
    (∃ (init addr : Nat), ∃ (data : List Byte), ∃ (s : State), s.dramReach init addr true = true ∧ data.length = 32) ∧
    (∃ (init addr : Nat), ∃ (data : List Byte), ∃ (s : State), s.dramReach init addr true = true ∧ addr % 32 +
    data.length ≤ 32) ∧
    (∃ (init addr : Nat), ∃ (s : State), s.dramReach init addr false = true) ∧
    (∃ (init addr : Nat), ∃ (s : State), s.dramReach init addr false = false) :=
  ⟨⟨1, 64, List.replicate 32 5, W.dram, by decide +kernel⟩, ⟨1, 67, [1, 2, 3], W.dram, by decide +kernel⟩, ⟨1, 67,
  W.dram, by decide +kernel⟩, ⟨22, 67, W.dram, by decide +kernel⟩⟩

theorem witness_DramUpkeep :
    (∃ (s : State), s.alive = true ∧ s.domain 2 = true) ∧
    (∃ (s : State), s.dram.trained = true) ∧
    (∃ (ch cs : Nat), ∃ (s : State), s.activeRank ch cs = true ∧ (3 * ch + cs) < s.dram.backlog.length ∧
    s.dram.backlog.getD (3 * ch + cs) 0 < 8) ∧
    (∃ (ch cs : Nat), ∃ (queued : Bool), ∃ (s : State), s.activeRank ch cs = true ∧ (queued = false ∨ 8 ≤
    s.dram.backlog.getD (3 * ch + cs) 0)) ∧
    (∃ (ch cs : Nat), ∃ (s : State), s.activeRank ch cs = true ∧ 0 < s.dram.backlog.getD (3 * ch + cs) 0) ∧
    (∃ (ch : Nat), ∃ (s : State), s.dram.trained = true ∧ s.nat 0x5081 1 = 0 ∧ ch ∈ s.dram.chans ∧ s.dram.chans.Nodup) ∧
    (∃ (ch cs : Nat), ∃ (s : State), s.activeRank ch cs = true ∧ bitOf (s.reg 0x2A 0) 2 = true ∧ s.nat 0x5081 4 ≠ 0 ∧
    (3 * ch + cs) ∉ s.dram.asleep) ∧
    (∃ (s : State), s.dramOk (32 * s.dram.scrubAt) = true ∧ bitOf (s.reg 0x2A 0) 1 = true) ∧
    (∃ (s : State), s.domain 2 = true) ∧
    (∃ (c : OdCaller), ∃ (rank : Nat), ∃ (s : State), rank < 12 ∧ Serves s c 2 (objKey 0x5083 1) ∧ rank ∈ s.inService
    ∧ s.canMigrate rank = true) ∧
    (∃ (ch : Nat), ∃ (m : Migration), ∃ (s : State), s.migOf ch = some m) :=
  ⟨⟨W.run, by decide +kernel⟩, ⟨W.dram, by decide +kernel⟩, ⟨0, 0, W.dram, by decide +kernel⟩, ⟨0, 0, false, W.dram,
  by decide +kernel⟩, ⟨0, 0, W.dram.modDram (fun d => { d with backlog := setAt d.backlog 0 2 }), by decide +kernel⟩,
  ⟨0, W.dram.setObj 0x5081 1 (u8 0), by decide +kernel⟩, ⟨0, 0, (W.dram.setRegBit 0x2A 0 2 true).setObj 0x5081 4 (u32
  1), by decide +kernel⟩, ⟨W.dram.setRegBit 0x2A 0 1 true, by decide +kernel⟩, ⟨W.run, by decide +kernel⟩, ⟨W.own, 0,
  W.dram.modDram (fun d => { d with spare := [true, false, false, false] }), by decide +kernel⟩, ⟨0,
  { rank := 0, start := 0 }, W.dram.modDram (fun d => { d with migs := [(0, { rank := 0, start := 0 })] }),
  by decide +kernel⟩⟩

theorem witness_CaskJobs :
    (∃ (init e v : Nat), ∃ (s : State), e < 3 ∧ Writes s init (0x30 + e) ∧ v < 2 ^ 32 ∧ e < s.cask.engs.length ∧
    (s.eng e).queue.length < 16) ∧
    (∃ (e a : Nat), ∃ (rest : List Nat), ∃ (d : List Byte), ∃ (p : Bool), ∃ (s : State), s.caskOn e = true ∧ e <
    s.cask.engs.length ∧ (s.eng e).queue = a :: rest ∧ (s.eng e).job = none ∧ (s.fabRead a 64).1 = some (d, p)) ∧
    (∃ (e : Nat), ∃ (j : CaskJob), ∃ (s : State), s.caskOn e = true ∧ e < s.cask.engs.length ∧ (s.eng e).job = some j) ∧
    (∃ (init e : Nat), ∃ (j : CaskJob), ∃ (s : State), e < 3 ∧ Writes s init (0x30 + e) ∧ e < s.cask.engs.length ∧
    (s.eng e).job = some j) ∧
    (∃ (init e : Nat), ∃ (s : State), e < 3 ∧ Writes s init (0x30 + e) ∧ e < s.cask.engs.length ∧ bitOf (s.reg (0x30 +
    e) 0) 0 = true) :=
  ⟨⟨1, 1, 128, W.run, by decide +kernel⟩, ⟨0, poolBase, [], zeros 64, false, W.cask, by decide +kernel⟩, ⟨0, caskParse
  poolBase (zeros 64), W.caskJob, by decide +kernel⟩, ⟨1, 0, caskParse poolBase (zeros 64), W.caskJob,
  by decide +kernel⟩, ⟨1, 0, W.caskJob, by decide +kernel⟩⟩

theorem witness_OscillatorAndPlls :
    (∃ (rdyMs : Nat), ∃ (s : State), s.up = true ∧ s.nat 0x1200 8 = 1 ∧ 1000 ≤ rdyMs) ∧
    (∃ (freqs : List Int), ∃ (s : State), s.up = true ∧ s.nat 0x1200 8 ≠ 1 ∧ (s.time.gnss = 2 ∨ s.time.synced = true)
    ∧ s.steady freqs = true) ∧
    (∃ (upS : Nat), ∃ (s : State), s.up = true ∧ s.nat 0x1200 8 ≠ 1 ∧ s.time.gnss ≠ 2 ∧ s.time.synced = false ∧ s.nat
    0x1200 0xB ≤ upS) ∧
    (∃ (s : State), s.up = true ∧ s.time.warm = true) ∧
    (∃ (which : Nat), ∃ (s : State), s.alive = true ∧ which < 3) ∧
    (∃ (which : Nat), ∃ (s : State), s.alive = true ∧ (which = 0 ∧ s.power.pllS = true) ∨ (which = 1 ∧ s.power.pllD =
    true) ∨ (which = 2 ∧ s.power.pllF = true)) ∧
    (∃ (p : Port), ∃ (s : State), s.alive = true ∧ (s.port p).syn.on = true ∧ (s.port p).syn.locked = true) ∧
    (∃ (p : Port), ∃ (s : State), s.alive = true ∧ (s.port p).syn.on = true) :=
  ⟨⟨1000, W.run.setObj 0x1200 8 (u8 1), by decide +kernel⟩, ⟨List.replicate 100 3, (W.run.setObj 0x1200 8 (u8
  0)).modTime (fun t => { t with synced := true }), by decide +kernel⟩, ⟨100000, W.run.setObj 0x1200 8 (u8 0),
  by decide +kernel⟩, ⟨W.run.modTime (fun t => { t with warm := true }), by decide +kernel⟩, ⟨1, W.run,
  by decide +kernel⟩, ⟨1, W.run, by decide +kernel⟩, ⟨.a, W.kiln, by decide +kernel⟩, ⟨.a, W.kiln, by decide +kernel⟩⟩

theorem witness_TimeStateAndServo :
    (∃ (o : Int), ∃ (s : State), s.up = true ∧ s.time.offset = some o ∧ (s.time.tideRan = true ∨ o.natAbs ≤ s.nat
    0x2000 4) ∧ -10000000 ≤ s.time.y ∧ s.time.y ≤ 10000000) ∧
    (∃ (o : Int), ∃ (s : State), s.up = true ∧ s.time.offset = some o ∧ s.time.tideRan = false ∧ s.nat 0x2000 4 <
    o.natAbs) ∧
    (∃ (s : State), s.up = true ∧ (s.time.state = 1 ∨ s.time.state = 3) ∧ 16 ≤ s.time.lockRun) ∧
    (∃ (at_ : Nat), ∃ (s : State), s.up = true ∧ s.time.state = 2 ∧ s.gnssSource = false ∧ s.time.syncAt + 8 *
    s.syncNs ≤ at_) ∧
    (∃ (at_ : Nat), ∃ (s : State), s.up = true ∧ s.time.state = 2 ∧ s.gnssSource = true ∧ s.time.gnss ≠ 2 ∧
    s.time.gnssAt + 3000000000 ≤ at_) ∧
    (∃ (s : State), s.up = true ∧ s.time.state = 3) ∧
    (∃ (s : State), s.up = true ∧ s.time.state = 2) ∧
    (∃ (s : State), s.up = true ∧ s.role = 2 ∧ s.time.gnss ≠ 2 ∧ s.time.state ≠ 2 ∧ s.nat 0x1200 0xD = 1) :=
  ⟨⟨-5, W.run.modTime (fun t => { t with offset := some (-5) }), by decide +kernel⟩, ⟨-2000000000, W.run.modTime (fun
  t => { t with offset := some (-2000000000), tideRan := false }), by decide +kernel⟩, ⟨W.run.modTime (fun t =>
  { t with lockRun := 16 }), by decide +kernel⟩, ⟨14000000000, (W.node 1).modTime (fun t => { t with state := 2 }),
  by decide +kernel⟩, ⟨7000000000, W.run.modTime (fun t => { t with state := 2 }), by decide +kernel⟩, ⟨W.run.modTime
  (fun t => { t with state := 3 }), by decide +kernel⟩, ⟨W.run.modTime (fun t => { t with state := 2 }),
  by decide +kernel⟩, ⟨W.manager, by decide +kernel⟩⟩

theorem witness_PrecisionTime :
    (∃ (s : State), s.up = true ∧ s.grandmaster = true ∧ (s.chain.w.up = true ∧ s.chain.e.up = true ∧ s.chain.localUp
    = false)) ∧
    (∃ (s : State), s.up = true ∧ s.chain.w.up = true ∧ s.chain.e.up = true) ∧
    (∃ (s : State), s.up = true ∧ s.grandmaster = true ∧ (s.chain.w.up = true ∧ s.chain.e.up = true ∧ s.chain.localUp
    = false)) ∧
    (∃ (q : LinkPort), ∃ (s : State), s.up = true ∧ s.ptpPort q = true ∧ s.gnssSource = false ∧ q ≠ LinkPort.lan ∧
    s.towardManager q = true) ∧
    (∃ (s : State), s.up = true ∧ s.chain.w.up = true ∧ s.chain.e.up = true ∧ s.chain.iAct = false) ∧
    (∃ (q : LinkPort), ∃ (s : State), s.up = true ∧ s.ptpPort q = true ∧ q = LinkPort.w) ∧
    (∃ (q : LinkPort), ∃ (s : State), s.up = true ∧ s.ptpPort q = true ∧ q = LinkPort.e) ∧
    (∃ (q : LinkPort), ∃ (s : State), s.up = true ∧ s.ptpPort q = true ∧ q ≠ LinkPort.lan) :=
  ⟨⟨W.gm, by decide +kernel⟩, ⟨W.linked W.run, by decide +kernel⟩, ⟨W.gm, by decide +kernel⟩, ⟨.w, W.node 1,
  by decide +kernel⟩, ⟨W.node 1, by decide +kernel⟩, ⟨.w, W.linked W.run, by decide +kernel⟩, ⟨.e, W.linked W.run,
  by decide +kernel⟩, ⟨.e, W.linked W.run, by decide +kernel⟩⟩

theorem witness_GnssInputs :
    (∃ (kind at_ p : Nat), ∃ (sumOk statusA : Bool), ∃ (s : State), s.up = true ∧ s.nat 0x1220 1 = 1 ∧ s.time.edgeAt =
    some p ∧ (kind < 2 ∧ (s.nat 0x1220 3 = 2 ∨ s.nat 0x1220 3 = kind) ∧ sumOk = true ∧ (kind = 0 ∨ statusA = true) ∧ p
    ≤ 1000 * at_ ∧ 1000 * at_ ≤ p + 900000000000) ∧ s.time.edgeSkip = false ∧ s.time.sec = none) ∧
    (∃ (kind at_ p : Nat), ∃ (sumOk statusA : Bool), ∃ (s : State), s.up = true ∧ s.nat 0x1220 1 = 1 ∧ s.time.edgeAt =
    some p ∧ (¬ (kind < 2 ∧ (s.nat 0x1220 3 = 2 ∨ s.nat 0x1220 3 = kind) ∧ sumOk = true ∧ (kind = 0 ∨ statusA = true)
    ∧ p ≤ 1000 * at_ ∧ 1000 * at_ ≤ p + 900000000000))) ∧
    (∃ (at_ : Nat), ∃ (p : Int), ∃ (more : List Nat), ∃ (s : State), s.up = true ∧ s.nat 0x1220 1 = 1 ∧ (s.tiu
    0).events = at_ :: more ∧ 0 < s.time.inputs.length ∧ s.time.lastPps = some p ∧ s.time.gnss = 2 ∧ ¬ (p +
    999999000000 ≤ ((at_ : Int) - s.int 32 0x1220 4) ∧ ((at_ : Int) - s.int 32 0x1220 4) ≤ p + 1000001000000)) ∧
    (∃ (at_ : Nat), ∃ (p : Int), ∃ (more : List Nat), ∃ (s : State), s.up = true ∧ s.nat 0x1220 1 = 1 ∧ (s.tiu
    0).events = at_ :: more ∧ 0 < s.time.inputs.length ∧ s.time.lastPps = some p ∧ (s.time.gnss ≠ 2 ∨ (p +
    999999000000 ≤ ((at_ : Int) - s.int 32 0x1220 4) ∧ ((at_ : Int) - s.int 32 0x1220 4) ≤ p + 1000001000000))) ∧
    (∃ (at_ : Nat), ∃ (more : List Nat), ∃ (s : State), s.up = true ∧ s.nat 0x1220 1 = 1 ∧ (s.tiu 0).events = at_ ::
    more ∧ 0 < s.time.inputs.length ∧ s.time.lastPps = none ∧ s.time.gnss ≠ 2) :=
  ⟨⟨0, 4000000000, 4000000000000, true, false, W.gnss, by decide +kernel⟩, ⟨0, 4000000000, 4000000000000, false,
  false, W.gnss, by decide +kernel⟩, ⟨4500000000000, 4000000000000, [], (W.gnss.modTime (fun t =>
  { t with gnss := 2 })).modTiu 0 (fun x => { x with events := [4500000000000] }), by decide +kernel⟩, ⟨5000000000000,
  4000000000000, [], (W.gnss.modTime (fun t => { t with sec := some 4, prevSec := some 3, ppsRun := 2 })).modTiu 0
  (fun x => { x with events := [5000000000000] }), by decide +kernel⟩, ⟨5000000000000, [1], (W.gnss.modTime (fun t =>
  { t with lastPps := none })).modTiu 0 (fun x => { x with events := [5000000000000, 1] }), by decide +kernel⟩⟩

theorem witness_TimeIntervalUnit :
    (∃ (i t0 : Nat), ∃ (rising : Bool), ∃ (s : State), s.up = true ∧ i < 6 ∧ i < s.time.inputs.length ∧ s.recognises i
    rising = true ∧ (s.tiu i).stuck = false ∧ (s.tiu i).deadUntil ≤ t0 ∧ bitOf (s.reg 0x38 4) 0 = true ∧
    s.time.series.state = 1 ∧ s.time.series.mode = 1 ∧ s.time.series.start = i ∧ s.time.series.gate = 0 ∧
    s.time.series.fifo.length < 64 ∧ s.time.series.taken + 1 < s.time.series.n) ∧
    (∃ (i t0 a : Nat), ∃ (b rising : Bool), ∃ (s : State), s.up = true ∧ i < 6 ∧ i < s.time.inputs.length ∧
    s.recognises i rising = true ∧ (s.tiu i).stuck = false ∧ (s.tiu i).deadUntil ≤ t0 ∧ bitOf (s.reg 0x38 4) 0 = true
    ∧ s.time.series.state = 2 ∧ s.time.series.mode = 2 ∧ s.time.series.stop = i ∧ s.time.series.pend = some (a, b) ∧ a
    ≤ t0 ∧ s.time.series.taken + 1 < s.time.series.n) ∧
    (∃ (i t0 : Nat), ∃ (rising : Bool), ∃ (s : State), s.up = true ∧ i < 6 ∧ i < s.time.inputs.length ∧ s.recognises i
    rising = true ∧ t0 < (s.tiu i).deadUntil) ∧
    (∃ (i : Nat), ∃ (s : State), s.up = true ∧ i < s.time.inputs.length) ∧
    (∃ (i : Nat), ∃ (s : State), s.up = true ∧ i < 6 ∧ i < s.time.inputs.length ∧ (s.tiu i).stuck = false ∧
    s.activeLevel i (s.tiu i).level = true) ∧
    (∃ (i : Nat), ∃ (one1 two1 one2 two2 : Int), ∃ (s : State), s.up = true ∧ i < 6 ∧ i < s.time.inputs.length ∧
    (((two1 - one1) - (two2 - one2)).natAbs ≤ 512 ∧ ((2 * one1 - two1) - (2 * one2 - two2)).natAbs ≤ 512)) ∧
    (∃ (i : Nat), ∃ (one1 two1 one2 two2 : Int), ∃ (s : State), s.up = true ∧ i < 6 ∧ ¬ (((two1 - one1) - (two2 -
    one2)).natAbs ≤ 512 ∧ ((2 * one1 - two1) - (2 * one2 - two2)).natAbs ≤ 512)) ∧
    (∃ (i at_ : Nat), ∃ (s : State), s.up = true ∧ i < 6 ∧ i < s.time.inputs.length ∧ (s.tiu i).calAt + 60000000000 ≤
    at_) ∧
    (∃ (q : Port), ∃ (x : Nat), ∃ (more : List Nat), ∃ (l : Launch), ∃ (s : State), s.up = true ∧ (s.tiu (4 + Port.num
    q)).events = x :: more ∧ 4 + Port.num q < s.time.inputs.length ∧ (s.port q).flight = [l] ∧ l.measured = false ∧
    ((x : Int) - s.int 32 (portIndex q 0x2100) 0x50 - (l.time * 1000 : Nat)).natAbs ≤ 100000) ∧
    (∃ (q : Port), ∃ (x : Nat), ∃ (more : List Nat), ∃ (s : State), s.up = true ∧ (s.tiu (4 + Port.num q)).events = x
    :: more ∧ 4 + Port.num q < s.time.inputs.length ∧ (s.port q).flight = []) :=
  ⟨⟨2, 4000000000500, true, W.series 1, by decide +kernel⟩, ⟨2, 4000000000500, 4000000000000, true, true, (W.series
  2).modSeries (fun r => { r with state := 2, pend := some (4000000000000, true) }), by decide +kernel⟩, ⟨2,
  4000000000500, true, W.run.modTiu 2 (fun x => { x with deadUntil := 4000000010000 }), by decide +kernel⟩, ⟨2, W.run,
  by decide +kernel⟩, ⟨0, W.run.modTiu 0 (fun x => { x with level := true }), by decide +kernel⟩, ⟨1, 1000, 2000,
  1100, 2200, W.run, by decide +kernel⟩, ⟨1, 1000, 2000, 2000, 4200, W.run, by decide +kernel⟩, ⟨1, 60000000000,
  W.run, by decide +kernel⟩, ⟨.a, 4000000030000, [], W.l0, W.flying.modTiu 4 (fun x =>
  { x with events := [4000000030000] }), by decide +kernel⟩, ⟨.b, 4000000030000, [], W.run.modTiu 5 (fun x =>
  { x with events := [4000000030000] }), by decide +kernel⟩⟩

theorem witness_MeasurementSeries :
    (∃ (c : OdCaller), ∃ (s : State), Serves s c 1 (objKey 0x1240 6) ∧ s.time.series.state ≠ 1 ∧ s.time.series.state ≠
    2 ∧ s.nat 0x1240 1 ≠ 0 ∧ s.nat 0x1240 1 < 4 ∧ s.nat 0x1240 2 < 8 ∧ s.nat 0x1240 3 < 8 ∧ s.nat 0x1240 4 < 65536 ∧
    s.nat 0x1240 5 < 4) ∧
    (∃ (init : Nat), ∃ (s : State), Writes s init 0x38 ∧ s.time.series.state ≠ 1 ∧ s.time.series.state ≠ 2 ∧ bitsOf
    (s.reg 0x38 8) 9 8 ≠ 0) ∧
    (∃ (c : OdCaller), ∃ (s : State), Serves s c 1 (objKey 0x1240 1) ∧ (s.time.series.state = 1 ∨ s.time.series.state
    = 2)) ∧
    (∃ (init i t0 : Nat), ∃ (rest : List (Nat × Nat)), ∃ (s : State), Reads s init 0x38 ∧ s.time.series.fifo = (i, t0)
    :: rest) :=
  ⟨⟨W.own, W.run.setObj 0x1240 1 (u8 2), by decide +kernel⟩, ⟨1, W.run.setReg 0x38 8 0x1300, by decide +kernel⟩,
  ⟨W.own, W.series 1, by decide +kernel⟩, ⟨1, 2, 4000000000500, [], W.run.modSeries (fun r =>
  { r with fifo := [(2, 4000000000500)] }), by decide +kernel⟩⟩

theorem witness_FrameRelay :
    (∃ (inp : LinkPort), ∃ (f : Frame), ∃ (at_ : Nat), ∃ (s : State), s.up = true ∧ s.carries inp = true ∧ (s.ingress
    inp f).1 = true ∧ inp = LinkPort.w ∧ s.chain.e.up = true ∧ s.chain.e.wrapped = false ∧ s.chain.localUp = false ∧
    at_ ≤ s.time.now ∧ f.linkLocal = false ∧ f.hops ≠ 0 ∧ f.dst ≠ 0 ∧ f.dst ≠ s.node ∧ f.cls ≠ 4) ∧
    (∃ (inp : LinkPort), ∃ (f : Frame), ∃ (at_ : Nat), ∃ (s : State), s.up = true ∧ s.carries inp = true ∧ (s.ingress
    inp f).1 = false ∧ f.src ≠ s.node ∧ inp ≠ LinkPort.lan ∧ at_ ≤ s.time.now) ∧
    (∃ (inp : LinkPort), ∃ (f : Frame), ∃ (at_ : Nat), ∃ (s : State), s.up = true ∧ s.carries inp = true ∧ at_ ≤
    s.time.now ∧ f.src ≠ s.node ∧ (seenPass s.chain.seen f).isSome = true ∧ inp = LinkPort.w ∧ s.chain.e.up = true ∧
    s.chain.e.wrapped = false ∧ f.linkLocal = false ∧ f.hops ≠ 0 ∧ (f.dst = 0 ∨ f.dst ≠ s.node) ∧ f.cls ≠ 4) ∧
    (∃ (inp : LinkPort), ∃ (f : Frame), ∃ (at_ : Nat), ∃ (s : State), s.up = true ∧ s.carries inp = true ∧ at_ ≤
    s.time.now ∧ (inp = LinkPort.lan ∨ f.linkLocal = true ∨ f.hops = 0 ∨ (f.dst = s.node ∧ f.dst ≠ 0))) ∧
    (∃ (inp : LinkPort), ∃ (f : Frame), ∃ (at_ : Nat), ∃ (s : State), s.up = true ∧ s.carries inp = true ∧ (s.ingress
    inp f).1 = true ∧ s.chnOn = true ∧ s.takes f = true ∧ s.chain.iAct = true ∧ f.type = 1 ∧ f.dst = s.node ∧ f.dst ≠
    0 ∧ inp ≠ LinkPort.lan ∧ at_ ≤ s.time.now) ∧
    (∃ (s : State), s.chnOn = true ∧ s.chain.w.pcs = true ∧ s.chain.w.secured = true ∧ s.chain.e.secured = false) ∧
    (∃ (d : Side), ∃ (s : State), s.up = true ∧ (s.link d).up = true ∨ (s.link d).held = true ∧ s.inRing = false) ∧
    (∃ (d : Side), ∃ (s : State), s.up = true ∧ (s.link d).up = true ∨ (s.link d).held = true ∧ s.inRing = true ∧
    s.originates = true) ∧
    (∃ (d : Side), ∃ (s : State), s.up = true ∧ (s.link d).secured = true ∧ (s.link d).up = false ∧ (s.link d).held =
    false) ∧
    (∃ (d : Side), ∃ (s : State), s.up = true ∧ (s.link d).held = true) ∧
    (∃ (inp : LinkPort), ∃ (f : Frame), ∃ (s : State), s.up = true ∧ s.carries inp = true ∧ (s.ingress inp f).1 = true
    ∧ s.chnOn = true ∧ f.fields.getD 1 0 = 1) ∧
    (∃ (inp : LinkPort), ∃ (f : Frame), ∃ (s : State), s.up = true ∧ s.carries inp = true ∧ (s.ingress inp f).1 = true
    ∧ s.chnOn = true ∧ f.fields.getD 1 0 = 0) ∧
    (∃ (s : State), s.alive = true) ∧
    (∃ (init : Nat), ∃ (s : State), Writes s init 0x39) :=
  ⟨⟨.w, { W.frame 1 0x70 [] with dst := 9 }, 0, W.linked W.run, by decide +kernel⟩, ⟨.w, W.frame 1 0x70 [], 0,
  (W.linked W.run).modChain (fun c => { c with seen := [⟨3, 1, 1, [1]⟩] }), by decide +kernel⟩, ⟨.w, W.frame 1 0x70
  [], 0, W.linked W.run, by decide +kernel⟩, ⟨.w, { W.frame 1 0x70 [] with linkLocal := true }, 0, W.linked W.run,
  by decide +kernel⟩, ⟨.w, { W.frame 1 1 [1, 2] with dst := 5 }, 0, (W.node 2).modChain (fun c =>
  { c with iAct := true }), by decide +kernel⟩, ⟨(W.linked W.run).modChain (fun c =>
  { c with w := { c.w with pcs := true, secured := true } }), by decide +kernel⟩, ⟨.w, W.linked W.run,
  by decide +kernel⟩, ⟨.w, (W.node 1).modChain (fun c => { c with ring := true }), by decide +kernel⟩, ⟨.w,
  W.run.modLink .w (fun l => { l with secured := true }), by decide +kernel⟩, ⟨.w, W.run.modLink .w (fun l =>
  { l with held := true }), by decide +kernel⟩, ⟨.w, W.frame 1 3 [7, 1], (W.linked W.run).modChain (fun c =>
  { c with dirs := [(4, .e)] }), by decide +kernel⟩, ⟨.w, W.frame 1 3 [7, 0], W.linked W.run, by decide +kernel⟩,
  ⟨W.run, by decide +kernel⟩, ⟨1, W.linked W.run, by decide +kernel⟩⟩

theorem witness_ManagerRole :
    (∃ (inp : LinkPort), ∃ (f : Frame), ∃ (s : State), s.up = true ∧ s.carries inp = true ∧ (s.ingress inp f).1 = true
    ∧ s.originates = true ∧ s.chain.iAct = false) ∧
    (∃ (inp : LinkPort), ∃ (f : Frame), ∃ (s : State), s.up = true ∧ s.carries inp = true ∧ (s.ingress inp f).1 = true
    ∧ s.originates = true ∧ s.chain.iAct = true ∧ s.role = 2 ∧ f.fields.getD 5 0 = 1 ∧ f.fields.getD 0 f.src < s.node) ∧
    (∃ (inp : LinkPort), ∃ (f : Frame), ∃ (s : State), s.up = true ∧ s.carries inp = true ∧ (s.ingress inp f).1 = true
    ∧ s.originates = true ∧ s.chain.iAct = true ∧ s.role = 2 ∧ f.fields.getD 5 0 = 0) ∧
    (∃ (s : State), s.originates = true ∧ s.role = 3 ∧ s.chain.iAct = false ∧ s.nat 0x7000 0xB ≤ s.chain.quiet) ∧
    (∃ (s : State), s.originates = true ∧ s.role = 2 ∧ s.chain.listening = true ∧ s.chain.iAct = false) ∧
    (∃ (inp : LinkPort), ∃ (f : Frame), ∃ (s : State), s.up = true ∧ s.carries inp = true ∧ (s.ingress inp f).1 = true
    ∧ s.originates = true ∧ s.takes f = true ∧ s.chain.iAct = true ∧ f.fields.getD 0 0 ≠ s.node ∧ s.chain.nodes.any
    (fun (r : NodeRow) => r.node == f.fields.getD 0 0) = false) ∧
    (∃ (inp : LinkPort), ∃ (f : Frame), ∃ (s : State), s.up = true ∧ s.carries inp = true ∧ (s.ingress inp f).1 = true
    ∧ s.originates = true ∧ s.takes f = true ∧ s.chain.state = 1) ∧
    (∃ (inp : LinkPort), ∃ (f : Frame), ∃ (s : State), s.up = true ∧ s.carries inp = true ∧ (s.ingress inp f).1 = true
    ∧ s.originates = true ∧ s.takes f = true ∧ s.chain.state = 1) ∧
    (∃ (inp : LinkPort), ∃ (f : Frame), ∃ (s : State), s.up = true ∧ s.carries inp = true ∧ (s.ingress inp f).1 = true
    ∧ s.originates = true ∧ s.takes f = true ∧ s.chain.state ≠ 1) :=
  ⟨⟨.w, W.frame 1 1 [3, 0, 4, 1, 0, 1], W.node 1, by decide +kernel⟩, ⟨.w, W.frame 1 1 [3, 0, 4, 1, 0, 1], (W.node
  2).modChain (fun c => { c with iAct := true }), by decide +kernel⟩, ⟨.w, W.frame 1 1 [3, 9, 4, 1, 0, 0], (W.node
  2).modChain (fun c => { c with iAct := true }), by decide +kernel⟩, ⟨(W.node 3).modChain (fun c =>
  { c with quiet := 1000 }), by decide +kernel⟩, ⟨(W.node 2).modChain (fun c => { c with listening := true }),
  by decide +kernel⟩, ⟨.w, { W.frame 0 2 [3, 1] with dst := 5 }, (W.node 2).modChain (fun c =>
  { c with iAct := true }), by decide +kernel⟩, ⟨.w, { W.frame 0 2 [1] with dst := 5 }, (W.node 1).modChain (fun c =>
  { c with state := 1 }), by decide +kernel⟩, ⟨.w, { W.frame 0 2 [0] with dst := 5 }, (W.node 1).modChain (fun c =>
  { c with state := 1 }), by decide +kernel⟩, ⟨.w, { W.frame 0 2 [0] with dst := 5 }, W.node 1, by decide +kernel⟩⟩

theorem witness_Epochs :
    (∃ (c : OdCaller), ∃ (lead : Nat), ∃ (s : State), Serves s c 1 (objKey 0x7000 7) ∧ s.rules = true ∧ s.tide.running
    = true ∧ s.chain.pend = none ∧ 0 < lead ∧ lead < 65536 ∧ s.nat 0x7000 6 + 2 ≤ lead ∧ 2 * s.chain.latency + 1000 ≤
    s.nat 0x7000 6 * s.period * 1000 ∧ s.commonEdge (s.tide.num + lead) (s.pnat 0x2000 1) = true ∧ s.ownSpans = [] ∧
    s.chain.spans = [] ∧ s.chain.resync = [] ∧ (s.nodeCheck (s.snapView (insertKey (objKey 0x2000 1) (leBytes 1
    (s.pnat 0x2000 1)) s.pendSnap))).1.1 = 0) ∧
    (∃ (s : State), s.up = true ∧ s.chain.iAct = true ∧ s.tide.running = true ∧ s.chain.pend = none ∧ s.chain.realign
    ≠ [] ∧ s.chain.restore = [] ∧ s.commonEdge (s.tide.num + s.nat 0x7000 5) (s.pnat 0x2000 1) = true ∧ (s.chain.ahead
    = none ∨ s.chain.meet = 0) ∧ s.ownSpans = [] ∧ s.chain.spans = [] ∧ s.chain.resync = [] ∧ (s.nodeCheck (s.snapView
    (insertKey (objKey 0x2000 1) (leBytes 1 (s.pnat 0x2000 1)) s.pendSnap))).1.1 = 0) ∧
    (∃ (inp : LinkPort), ∃ (f : Frame), ∃ (s : State), s.up = true ∧ s.carries inp = true ∧ (s.ingress inp f).1 = true
    ∧ s.originates = true ∧ s.takes f = true ∧ s.chain.iAct = false ∧ s.chain.state = 2 ∧ f.src = s.chain.acting ∧
    s.tide.num + (fieldsPrep f.fields).guard < (fieldsPrep f.fields).tide ∧ (fieldsPrep f.fields).images = [] ∧
    (fieldsPrep f.fields).change = false ∧ s.commonEdge (fieldsPrep f.fields).tide (fieldsPrep f.fields).period = true
    ∧ (s.nodeCheck (s.snapView (insertKey (objKey 0x2000 1) (leBytes 1 (fieldsPrep f.fields).period)
    s.activeSnap))).1.1 = 0) ∧
    (∃ (inp : LinkPort), ∃ (f : Frame), ∃ (s : State), s.up = true ∧ s.carries inp = true ∧ (s.ingress inp f).1 = true
    ∧ s.originates = true ∧ s.takes f = true ∧ s.chain.state ≠ 2) ∧
    (∃ (inp : LinkPort), ∃ (f : Frame), ∃ (s : State), s.up = true ∧ s.carries inp = true ∧ (s.ingress inp f).1 = true
    ∧ s.chnOn = true ∧ s.takes f = true ∧ s.chain.iAct = true ∧ f.src ∈ s.chain.awaiting ∧ (s.chain.pend).map (fun (e
    : EpochPend) => e.num) = some (f.fields.getD 0 0) ∧ f.fields.getD 1 0 = 1 ∧ (if inp = LinkPort.w then
    s.chain.loadW + f.fields.getD 4 0 else s.chain.loadW) ≤ 1000 * s.nat 0x7000 0xE ∧ (if inp = LinkPort.e then
    s.chain.loadE + f.fields.getD 4 0 else s.chain.loadE) ≤ 1000 * s.nat 0x7000 0xE) ∧
    (∃ (inp : LinkPort), ∃ (f : Frame), ∃ (s : State), s.up = true ∧ s.carries inp = true ∧ (s.ingress inp f).1 = true
    ∧ s.chnOn = true ∧ s.takes f = true ∧ s.chain.iAct = true ∧ f.src ∈ s.chain.awaiting ∧ (s.chain.pend).map (fun (e
    : EpochPend) => e.num) = some (f.fields.getD 0 0) ∧ f.fields.getD 1 0 ≠ 1) ∧
    (∃ (inp : LinkPort), ∃ (f : Frame), ∃ (s : State), s.up = true ∧ s.carries inp = true ∧ (s.ingress inp f).1 = true
    ∧ s.chnOn = true ∧ s.takes f = true ∧ s.chain.pend.any (fun (e : EpochPend) => e.num == f.fields.getD 0 0 &&
    decide (s.tide.num < e.tide)) = true) ∧
    (∃ (e : EpochPend), ∃ (s : State), s.up = true ∧ s.chain.iAct = true ∧ s.chain.pend = some e ∧ s.chain.awaiting ≠
    [] ∧ e.tide ≤ s.tide.num + s.nat 0x7000 6 ∧ s.tide.num < e.tide) ∧
    (∃ (e : EpochPend), ∃ (s : State), s.up = true ∧ s.tide.running = true ∧ s.chain.pend = some e ∧ e.tide ≤
    s.tide.num) :=
  ⟨⟨W.own, 100, W.sound, by decide +kernel⟩, ⟨W.sound.modChain (fun c => { c with iAct := true, realign := [.a] }),
  by decide +kernel⟩, ⟨.w, W.frame 0 0x10 [1, 2000, 1, 0, 0, 0, 4], W.member, by decide +kernel⟩, ⟨.w, W.frame 0 0x10
  [1, 2000, 1, 0, 0, 0, 4], W.member.modChain (fun c => { c with state := 3 }), by decide +kernel⟩, ⟨.w,
  { W.frame 0 0x11 [1, 1, 0, 0, 100] with dst := 5 }, ((W.node 2).modChain (fun c =>
  { c with iAct := true, awaiting := [3], pend := some W.pend })), by decide +kernel⟩, ⟨.w,
  { W.frame 0 0x11 [1, 0, 1, 9, 0] with dst := 5 }, ((W.node 2).modChain (fun c =>
  { c with iAct := true, awaiting := [3], pend := some W.pend })), by decide +kernel⟩, ⟨.w, W.frame 0 0x12 [1],
  (W.node 1).modChain (fun c => { c with pend := some { W.pend with tide := 1001 } }), by decide +kernel⟩,
  ⟨{ W.pend with tide := 1001 }, ((W.node 2).modChain (fun c =>
  { c with iAct := true, awaiting := [3], pend := some W.pend })).modChain (fun c =>
  { c with pend := some { W.pend with tide := 1001 } }), by decide +kernel⟩, ⟨W.pend, W.run.modChain (fun c =>
  { c with pend := some W.pend }), by decide +kernel⟩⟩

theorem witness_FaultTable :
    (∃ (inp : LinkPort), ∃ (f : Frame), ∃ (s : State), s.up = true ∧ s.carries inp = true ∧ (s.ingress inp f).1 = true
    ∧ s.chnOn = true ∧ s.takes f = true ∧ s.chain.iAct = true ∧ f.dst = s.node ∧ f.dst ≠ 0) ∧
    (∃ (c : OdCaller), ∃ (key : Nat), ∃ (s : State), Serves s c 1 (objKey 0x7000 0x11) ∧ key < 2 ^ 32) ∧
    (∃ (k now : Nat), ∃ (s : State), s.up = true ∧ s.bwf.log = [(k, now)] ∧ k ∉ s.bwf.sent ∧ (s.chain.iAct = true ∨
    s.role = 0)) :=
  ⟨⟨.w, { W.frame 1 0x20 [77] with dst := 5 }, (W.node 2).modChain (fun c => { c with iAct := true }),
  by decide +kernel⟩, ⟨W.own, 5, W.run, by decide +kernel⟩, ⟨5, 6,
  { W.run with bwf := { W.run.bwf with log := [(5, 6)] } }, by decide +kernel⟩⟩

theorem witness_PairedSpans :
    (∃ (q : Port), ∃ (inp : LinkPort), ∃ (f : Frame), ∃ (s : State), s.up = true ∧ s.carries inp = true ∧ (s.ingress
    inp f).1 = true ∧ s.chnOn = true ∧ s.takes f = true ∧ f.src = s.pn q 0x7010 2 ∧ q = (if f.fields.getD 0 0 = 0 then
    Port.b else Port.a)) ∧
    (∃ (q : Port), ∃ (s : State), s.up = true ∧ s.partnerGone q = true) ∧
    (∃ (q : Port), ∃ (syms : List Bool), ∃ (s : State), s.rxOn q false = true ∧ s.pilotActive q = true ∧ s.pilotGood q
    syms = true) ∧
    (∃ (q : Port), ∃ (syms : List Bool), ∃ (s : State), s.rxOn q false = true ∧ s.pilotActive q = true ∧ s.pilotGood q
    syms = false) ∧
    (∃ (q : Port), ∃ (drops : List Nat), ∃ (s : State), s.rxOn q false = true ∧ s.pilotActive q = true ∧ s.farPresent
    q = true ∧ drops.length = 4 ∧ drops.all (fun (d : Nat) => decide (100 * s.pn q 0x7010 0x10 < d)) = true ∧ (s.port
    q).pair.state = 2 ∧ s.partnerGone q = true) ∧
    (∃ (q : Port), ∃ (drops : List Nat), ∃ (s : State), s.rxOn q false = true ∧ s.pilotActive q = true ∧ s.farPresent
    q = true ∧ drops.length = 4 ∧ drops.all (fun (d : Nat) => decide (100 * s.pn q 0x7010 0x10 < d)) = true ∧ (s.port
    q).pair.state = 2 ∧ s.partnerGone q = false ∧ (s.port q).pair.unreachable = false ∧ (s.port q).pair.partnerOptics
    = 6) ∧
    (∃ (q : Port), ∃ (k : Nat), ∃ (s : State), s.up = true ∧ s.tide.running = true ∧ s.chain.pend = none ∧ (s.port
    q).pair.takeAt = some k ∧ k ≤ s.tide.num) ∧
    (∃ (q : Port), ∃ (k : Nat), ∃ (s : State), s.up = true ∧ s.tide.running = true ∧ (s.port q).pair.yieldAt = some k
    ∧ k ≤ s.tide.num) ∧
    (∃ (c : OdCaller), ∃ (q : Port), ∃ (s : State), Serves s c 1 (objKey (portIndex q 0x7010) 0x13) ∧ (s.port
    q).pair.state = 2 ∨ (s.port q).pair.state = 3) ∧
    (∃ (q : Port), ∃ (i : Nat), ∃ (s : State), s.up = true ∧ (s.port q).pair.state = 3 ∧ s.tide.num ≤ (s.port
    q).sw.vTide ∧ ((upTo (s.port q).sw.lCur.length).filter (fun (j : Nat) => decide (0 < (s.port q).sw.lN) && decide
    ((s.port q).sw.lN ≤ 2 * (s.port q).sw.lCur.getD j 0))).getLast? = some i) ∧
    (∃ (s : State), s.up = true ∧ s.chain.iAct = true ∧ s.tide.running = true ∧ s.nat 0x7000 0xF ≠ 0 ∧ s.chain.pend ≠
    none) ∧
    (∃ (q : Port), ∃ (inp : LinkPort), ∃ (f : Frame), ∃ (s : State), s.up = true ∧ s.carries inp = true ∧ (s.ingress
    inp f).1 = true ∧ s.chnOn = true ∧ s.takes f = true ∧ (s.port q).pair.state = 2 ∧ f.src = s.pn q 0x7010 2 ∧
    (s.port q).trk.tracks = []) ∧
    (∃ (q : Port), ∃ (inp : LinkPort), ∃ (f : Frame), ∃ (s : State), s.up = true ∧ s.carries inp = true ∧ (s.ingress
    inp f).1 = true ∧ s.chnOn = true ∧ s.takes f = true ∧ (s.port q).pair.open_.any (fun (h : Handoff) => h.track ==
    f.fields.getD 0 0) = true) ∧
    (∃ (q : Port), ∃ (track : Nat), ∃ (s : State), s.up = true ∧ (s.port q).pair.open_.any (fun (h : Handoff) =>
    h.track == track && decide (h.tide + 4 ≤ s.tide.num)) = true) :=
  ⟨⟨.a, .w, W.frame 1 0x21 [1, 6, 2, 1], W.paired 2, by decide +kernel⟩, ⟨.a, W.run, by decide +kernel⟩, ⟨.a,
  (W.paired 3).pilotFrame .b, (W.paired 3).setObj 0x7010 2 (u16 5), by decide +kernel⟩, ⟨.a, [], W.paired 2,
  by decide +kernel⟩, ⟨.a, [60000, 60000, 60000, 60000], (W.paired 2).modChain (fun c =>
  { c with w := { c.w with up := false } }), by decide +kernel⟩, ⟨.a, [60000, 60000, 60000, 60000], (W.paired
  2).modPair .a (fun p => { p with partnerOptics := 6 }), by decide +kernel⟩, ⟨.a, 1000, (W.paired 2).modPair .a (fun
  p => { p with takeAt := some 1000 }), by decide +kernel⟩, ⟨.a, 1000, (W.paired 4).modPair .a (fun p =>
  { p with yieldAt := some 1000 }), by decide +kernel⟩, ⟨W.own, .a, W.paired 2, by decide +kernel⟩, ⟨.a, 1, (W.paired
  3).modSw .a (fun w => { w with vTide := 1000, lN := 2, lCur := [2, 1, 0] }), by decide +kernel⟩, ⟨((W.node
  2).modChain (fun c => { c with iAct := true, awaiting := [3], pend := some W.pend })), by decide +kernel⟩, ⟨.a, .w,
  W.frame 2 0x30 [9, 990, 100, 0], W.paired 2, by decide +kernel⟩, ⟨.a, .w, W.frame 2 0x30 [9], W.handing,
  by decide +kernel⟩, ⟨.a, 9, W.handing, by decide +kernel⟩⟩

theorem witness_TrunkKeys :
    (∃ (d : Side), ∃ (s : State), s.canAuth d = true ∧ (s.link d).xStep = 0 ∧ (s.link d).secured = false) ∧
    (∃ (d : Side), ∃ (s : State), s.canAuth d = true ∧ (s.link d).xStep = 0 ∧ (s.link d).secured = true) ∧
    (∃ (d : Side), ∃ (s : State), s.canAuth d = true ∧ (s.link d).xStep = 0 ∧ (s.link d).secured = true ∧ (s.link
    d).rekey = true) ∧
    (∃ (d : Side), ∃ (f : Frame), ∃ (s : State), s.canAuth d = true ∧ f.type = 0x60 ∧ (s.link d).xStep = 1 ∧ (s.link
    d).got = []) ∧
    (∃ (d : Side), ∃ (f : Frame), ∃ (s : State), s.canAuth d = true ∧ f.type = 0x61 ∧ (s.link d).xStep = 1 ∧ (s.link
    d).got ≠ [] ∧ f.payload.length ≠ 129) ∧
    (∃ (d : Side), ∃ (f : Frame), ∃ (s : State), s.canAuth d = true ∧ f.type = 0x61 ∧ (s.link d).xStep = 1 ∧ (s.link
    d).got ≠ [] ∧ f.payload.length = 129 ∧ (ecKey? ((f.payload.drop 32).take 65)).isSome = true ∧ s.peerOk
    (f.payload.drop 97) = true) ∧
    (∃ (d : Side), ∃ (f : Frame), ∃ (s : State), s.canAuth d = true ∧ f.type = 0x62 ∧ (s.link d).xStep = 2) ∧
    (∃ (d : Side), ∃ (f : Frame), ∃ (s : State), s.canAuth d = true ∧ f.type = 0x63 ∧ (s.link d).xStep = 3) ∧
    (∃ (d : Side), ∃ (s : State), s.up = true ∧ (s.link d).xStep = 1 ∨ (s.link d).xStep = 2) ∧
    (∃ (d : Side), ∃ (s : State), s.up = true ∧ (s.link d).xStep = 3) ∧
    (∃ (d : Side), ∃ (s : State), (s.link d).fresh = false) :=
  ⟨⟨.w, ((W.linked W.run).modLink .w (fun l => { l with xStep := 0 })), by decide +kernel⟩, ⟨.w, ((W.linked
  W.run).modLink .w (fun l => { l with xStep := 0, secured := true })), by decide +kernel⟩, ⟨.w, ((W.linked
  W.run).modLink .w (fun l => { l with xStep := 0, secured := true, rekey := true })), by decide +kernel⟩, ⟨.w,
  W.frame 1 0x60 [0], ((W.linked W.run).modLink .w (fun l => { l with xStep := 1 })), by decide +kernel⟩, ⟨.w, W.frame
  1 0x61 [], ((W.linked W.run).modLink .w (fun l => { l with xStep := 1, got := [1] })), by decide +kernel⟩, ⟨.w,
  { W.frame 1 0x61 [] with payload := zeros 32 ++ ecPublic 1 ++ zeros 32 }, (((W.linked W.run).modLink .w (fun l =>
  { l with xStep := 1, got := [1] })).setObj 0x1400 7 (u8 0)), by decide +kernel⟩, ⟨.w, W.frame 1 0x62 [], ((W.linked
  W.run).modLink .w (fun l => { l with xStep := 2 })), by decide +kernel⟩, ⟨.w, W.frame 1 0x63 [], ((W.linked
  W.run).modLink .w (fun l => { l with xStep := 3 })), by decide +kernel⟩, ⟨.w, ((W.linked W.run).modLink .w (fun l =>
  { l with xStep := 1 })), by decide +kernel⟩, ⟨.w, ((W.linked W.run).modLink .w (fun l => { l with xStep := 3 })),
  by decide +kernel⟩, ⟨.w, ((W.linked W.run).modLink .w (fun l => { l with xStep := 0 })), by decide +kernel⟩⟩

theorem witness_DictionaryReadsAndWrites :
    (∃ (c : OdCaller), ∃ (k : OdKey), ∃ (lv : Nat), ∃ (row : ObjRow), ∃ (s : State), Asks s c lv ∧ s.asked.row k.idx
    k.sub = some row ∧ (s.asked.top k.idx).isSome = true ∧ row.acc ≠ Acc.wo ∧ row.readLevel ≤ lv ∧ (s.asked.readObj
    k.idx k.sub k.active).1.length ≤ 1024) ∧
    (∃ (c : OdCaller), ∃ (k : OdKey), ∃ (v : List Byte), ∃ (h : Hint), ∃ (lv : Nat), ∃ (row : ObjRow), ∃ (s : State),
    Serves s c lv (objKey k.idx k.sub) ∧ s.asked.row k.idx k.sub = some row ∧ (s.asked.top k.idx).isSome = true ∧
    row.acc ≠ Acc.ro ∧ row.writeLevel ≤ lv ∧ row.lengthOk v.length = true ∧ rangeBar row k.idx v = false ∧ custom?
    k.idx k.sub = none ∧ (s.asked.action h k.idx k.sub v).isNone = true ∧ s.asked.stateBar k.idx k.sub v = false ∧
    s.asked.conflict k.idx k.sub v = false ∧ row.ap = Applies.immediate) ∧
    (∃ (c : OdCaller), ∃ (k : OdKey), ∃ (v : List Byte), ∃ (h : Hint), ∃ (lv : Nat), ∃ (row : ObjRow), ∃ (s : State),
    Serves s c lv (objKey k.idx k.sub) ∧ s.asked.row k.idx k.sub = some row ∧ (s.asked.top k.idx).isSome = true ∧
    row.acc ≠ Acc.ro ∧ row.writeLevel ≤ lv ∧ row.lengthOk v.length = true ∧ rangeBar row k.idx v = false ∧ custom?
    k.idx k.sub = none ∧ (s.asked.action h k.idx k.sub v).isNone = true ∧ s.asked.stateBar k.idx k.sub v = false ∧
    s.asked.conflict k.idx k.sub v = false ∧ row.ap = Applies.epoch) ∧
    (∃ (c : OdCaller), ∃ (k : OdKey), ∃ (v : List Byte), ∃ (h : Hint), ∃ (lv : Nat), ∃ (row : ObjRow), ∃ (s : State),
    Serves s c lv (objKey k.idx k.sub) ∧ s.asked.row k.idx k.sub = some row ∧ (s.asked.top k.idx).isSome = true ∧
    row.acc ≠ Acc.ro ∧ row.writeLevel ≤ lv ∧ row.lengthOk v.length = true ∧ rangeBar row k.idx v = false ∧ custom?
    k.idx k.sub = none ∧ (s.asked.action h k.idx k.sub v).isNone = true ∧ s.asked.stateBar k.idx k.sub v = false ∧
    s.asked.conflict k.idx k.sub v = false ∧ row.ap = Applies.nextTide) ∧
    (∃ (c : OdCaller), ∃ (k : OdKey), ∃ (v : List Byte), ∃ (h : Hint), ∃ (lv : Nat), ∃ (row : ObjRow), ∃ (s : State),
    Serves s c lv (objKey k.idx k.sub) ∧ s.asked.row k.idx k.sub = some row ∧ (s.asked.top k.idx).isSome = true ∧
    row.acc ≠ Acc.ro ∧ row.writeLevel ≤ lv ∧ row.lengthOk v.length = true ∧ rangeBar row k.idx v = false ∧ custom?
    k.idx k.sub = none ∧ (s.asked.action h k.idx k.sub v).isNone = true ∧ s.asked.stateBar k.idx k.sub v = false ∧
    s.asked.conflict k.idx k.sub v = false ∧ row.ap = Applies.nextStart) ∧
    (∃ (c : OdCaller), ∃ (k : OdKey), ∃ (v : List Byte), ∃ (h : Hint), ∃ (lv : Nat), ∃ (row : ObjRow), ∃ (s : State),
    Serves s c lv (objKey k.idx k.sub) ∧ s.asked.row k.idx k.sub = some row ∧ (s.asked.top k.idx).isSome = true ∧
    row.acc ≠ Acc.ro ∧ row.writeLevel ≤ lv ∧ row.lengthOk v.length = true ∧ rangeBar row k.idx v = false ∧ custom?
    k.idx k.sub = none ∧ (s.asked.action h k.idx k.sub v).isNone = true ∧ s.asked.stateBar k.idx k.sub v = false ∧
    s.asked.conflict k.idx k.sub v = false ∧ row.ap = Applies.immediate ∧ s.otherNodes = [] ∧ (c.path = Path.pcie ∨
    c.path = Path.spi) ∧ s.od.fwd = [] ∧ s.od.bcasts = []) ∧
    (∃ (c : OdCaller), ∃ (k : OdKey), ∃ (lv : Nat), ∃ (row : ObjRow), ∃ (s : State), Asks s c lv ∧ s.asked.row k.idx
    k.sub = some row ∧ (s.asked.top k.idx).isSome = true) ∧
    (∃ (c : OdCaller), ∃ (svc : Nat), ∃ (s : State), Asks s c 0 ∧ (svc = 0 ∨ 0xA < svc)) :=
  ⟨⟨W.own, ⟨0x1200, 5, false⟩, 1, W.row 0x1200 5, W.run, by decide +kernel⟩, ⟨W.own, ⟨0x1200, 5, false⟩, u32 77, {},
  2, W.row (⟨0x1200, 5, false⟩ : OdKey).idx (⟨0x1200, 5, false⟩ : OdKey).sub, W.run, by decide +kernel⟩, ⟨W.own,
  ⟨0x2010, 3, false⟩, u32 4, {}, 2, W.row (⟨0x2010, 3, false⟩ : OdKey).idx (⟨0x2010, 3, false⟩ : OdKey).sub, W.run,
  by decide +kernel⟩, ⟨W.own, ⟨0x4010, 8, false⟩, u8 1, {}, 2, W.row (⟨0x4010, 8, false⟩ : OdKey).idx (⟨0x4010, 8,
  false⟩ : OdKey).sub, W.run, by decide +kernel⟩, ⟨W.own, ⟨0x5080, 1, false⟩, u8 1, {}, 2, W.row (⟨0x5080, 1, false⟩ :
  OdKey).idx (⟨0x5080, 1, false⟩ : OdKey).sub, W.run, by decide +kernel⟩, ⟨W.own, ⟨0x1200, 5, false⟩, u32 77, {}, 2,
  W.row (⟨0x1200, 5, false⟩ : OdKey).idx (⟨0x1200, 5, false⟩ : OdKey).sub, W.run, by decide +kernel⟩, ⟨W.own, ⟨0x1200,
  5, false⟩, 0, W.row 0x1200 5, W.run, by decide +kernel⟩, ⟨W.own, 11, W.run, by decide +kernel⟩⟩

theorem witness_DictionaryTransfers :
    (∃ (c : OdCaller), ∃ (k : OdKey), ∃ (lv : Nat), ∃ (row : ObjRow), ∃ (total crc : Nat), ∃ (s : State), Asks s c lv
    ∧ s.asked.row k.idx k.sub = some row ∧ (s.asked.top k.idx).isSome = true ∧ row.ty = ObjType.blob ∧ row.acc ≠
    Acc.ro ∧ row.writeLevel ≤ lv ∧ total < 2 ^ 32 ∧ crc < 2 ^ 32 ∧ total ≤ row.limit ∧ s.od.transfers = [] ∧
    (s.asked.downloadStart k.idx k.sub).1 = 0) ∧
    (∃ (c : OdCaller), ∃ (k : OdKey), ∃ (lv : Nat), ∃ (row : ObjRow), ∃ (x : Transfer), ∃ (ofs : Nat), ∃ (v : List
    Byte), ∃ (s : State), Asks s c lv ∧ s.asked.row k.idx k.sub = some row ∧ (s.asked.top k.idx).isSome = true ∧
    row.ty = ObjType.blob ∧ row.acc ≠ Acc.ro ∧ row.writeLevel ≤ lv ∧ v ≠ [] ∧ v.length ≤ 1024 ∧ ofs < 2 ^ 32 ∧
    x.data.length = ofs ∧ s.od.transfers = [x] ∧ x.mine c (objKey k.idx k.sub) = true ∧ (x.data ++ v).length <
    x.total) ∧
    (∃ (c : OdCaller), ∃ (k : OdKey), ∃ (lv : Nat), ∃ (row : ObjRow), ∃ (x : Transfer), ∃ (ofs : Nat), ∃ (v : List
    Byte), ∃ (s : State), Asks s c lv ∧ s.asked.row k.idx k.sub = some row ∧ (s.asked.top k.idx).isSome = true ∧
    row.ty = ObjType.blob ∧ row.acc ≠ Acc.ro ∧ row.writeLevel ≤ lv ∧ v ≠ [] ∧ v.length ≤ 1024 ∧ ofs < 2 ^ 32 ∧
    x.data.length = ofs ∧ s.od.transfers = [x] ∧ x.mine c (objKey k.idx k.sub) = true ∧ (x.total < (x.data ++
    v).length ∨ ((x.data ++ v).length = x.total ∧ crc32c (x.data ++ v) ≠ x.crc))) ∧
    (∃ (c : OdCaller), ∃ (k : OdKey), ∃ (lv : Nat), ∃ (row : ObjRow), ∃ (s : State), Asks s c lv ∧ s.asked.row k.idx
    k.sub = some row ∧ (s.asked.top k.idx).isSome = true ∧ row.ty = ObjType.blob ∧ row.acc ≠ Acc.wo ∧ row.readLevel ≤
    lv) ∧
    (∃ (c : OdCaller), ∃ (k : OdKey), ∃ (lv : Nat), ∃ (row : ObjRow), ∃ (x : Snapshot), ∃ (ofs : Nat), ∃ (s : State),
    Asks s c lv ∧ s.asked.row k.idx k.sub = some row ∧ (s.asked.top k.idx).isSome = true ∧ row.ty = ObjType.blob ∧
    row.acc ≠ Acc.wo ∧ row.readLevel ≤ lv ∧ ofs < 2 ^ 32 ∧ ofs < x.data.length ∧ s.od.snaps.find? (fun (y : Snapshot)
    => y.mine c (objKey k.idx k.sub)) = some x) ∧
    (∃ (c : OdCaller), ∃ (k : OdKey), ∃ (lv : Nat), ∃ (row : ObjRow), ∃ (s : State), Asks s c lv ∧ s.asked.row k.idx
    k.sub = some row ∧ (s.asked.top k.idx).isSome = true) ∧
    (∃ (key : Nat), ∃ (s : State), s.od.transfers.any (fun (x : Transfer) => x.key == key) = true) :=
  ⟨⟨W.own, ⟨0x9010, 1, false⟩, 2, W.row 0x9010 1, 8, 5, W.run, by decide +kernel⟩, ⟨W.own, ⟨0x9010, 1, false⟩, 2,
  W.row 0x9010 1, ⟨.pcie, 0, 0, 0x901001, 8, 5, [1, 2]⟩, 2, [3], W.run.modOd (fun o =>
  { o with transfers := [⟨.pcie, 0, 0, 0x901001, 8, 5, [1, 2]⟩] }), by decide +kernel⟩, ⟨W.own, ⟨0x9010, 1, false⟩, 2,
  W.row 0x9010 1, ⟨.pcie, 0, 0, 0x901001, 8, 5, [1, 2]⟩, 2, [3, 4, 5, 6, 7, 8, 9], W.run.modOd (fun o =>
  { o with transfers := [⟨.pcie, 0, 0, 0x901001, 8, 5, [1, 2]⟩] }), by decide +kernel⟩, ⟨W.own, ⟨0x1001, 2, false⟩, 0,
  W.row 0x1001 2, { W.run with flash := { W.run.flash with ca := [1, 2, 3] } }, by decide +kernel⟩, ⟨W.own, ⟨0x1001,
  2, false⟩, 0, W.row 0x1001 2, ⟨.pcie, 0, 0x100102, [1, 2, 3], []⟩, 1, W.run.modOd (fun o =>
  { o with snaps := [⟨.pcie, 0, 0x100102, [1, 2, 3], []⟩] }), by decide +kernel⟩, ⟨W.own, ⟨0x9010, 1, false⟩, 0, W.row
  0x9010 1, W.run.modOd (fun o => { o with transfers := [⟨.pcie, 0, 0, 0x901001, 8, 5, [1, 2]⟩] }),
  by decide +kernel⟩, ⟨0x901001, W.run.modOd (fun o =>
  { o with transfers := [⟨.pcie, 0, 0, 0x901001, 8, 5, [1, 2]⟩] }), by decide +kernel⟩⟩

theorem witness_SessionsAndStore :
    (∃ (c : OdCaller), ∃ (level : Nat), ∃ (token : List Byte), ∃ (s : State), Asks s c 0 ∧ 1 ≤ level ∧ level ≤ 3 ∧
    s.od.sessions.length < 16 ∧ s.tokenOk token 1 level (zeros 32) = true) ∧
    (∃ (c : OdCaller), ∃ (level : Nat), ∃ (token : List Byte), ∃ (s : State), Asks s c 0 ∧ 1 ≤ level ∧ level ≤ 3 ∧
    s.od.sessions.length < 16 ∧ s.tokenOk token 1 level (zeros 32) = false) ∧
    (∃ (c : OdCaller), ∃ (x : Session), ∃ (s : State), Asks s c 0 ∧ c.session = x.num ∧ x.num ≠ 0 ∧ s.sessionOf c =
    some x) ∧
    (∃ (c : OdCaller), ∃ (node : Nat), ∃ (e : Forwarded), ∃ (s : State), s.up = true ∧ s.od.fwd.find? (fun (x :
    Forwarded) => x.caller == c && x.node == node) = some e ∧ e.bcast = none ∧ e.buf = none ∧ (c.path = Path.pcie ∨
    c.path = Path.spi)) ∧
    (∃ (e w0 w1 : Nat), ∃ (full : Bool), ∃ (s : State), (e = 6 ∨ e = 7) ∧ s.canReach (mbInit e) = true ∧ (s.chan e
    1).full = false ∧ s.up = true ∧ w1 < 2 ^ 32 ∧ 81 ≤ s.mbox.chans.length ∧ 9 ≤ s.mbox.ends.length ∧ w0 = 0x4F440001
    ∧ w1 + 16 + leNat (s.read (hostRegion + w1 + 12) 2) ≤ 0x100000 ∧ s.read (hostRegion + w1) 1 = [1] ∧ s.pathUp (if e
    = 6 then Path.pcie else Path.spi) = true ∧ full = false ∧ s.od.queue = []) ∧
    (∃ (e w0 w1 : Nat), ∃ (full : Bool), ∃ (s : State), (e = 6 ∨ e = 7) ∧ s.canReach (mbInit e) = true ∧ (s.chan e
    1).full = false ∧ s.up = true ∧ w1 < 2 ^ 32 ∧ 81 ≤ s.mbox.chans.length ∧ 9 ≤ s.mbox.ends.length ∧ w0 = 0x4F440001
    ∧ w1 + 16 + leNat (s.read (hostRegion + w1 + 12) 2) ≤ 0x100000 ∧ s.pathUp (if e = 6 then Path.pcie else Path.spi)
    = true ∧ full = true ∧ s.od.queue.length < 32) ∧
    (∃ (e w0 w1 : Nat), ∃ (full : Bool), ∃ (s : State), (e = 6 ∨ e = 7) ∧ s.canReach (mbInit e) = true ∧ (s.chan e
    1).full = false ∧ s.up = true ∧ w1 < 2 ^ 32 ∧ 81 ≤ s.mbox.chans.length ∧ 9 ≤ s.mbox.ends.length ∧ w0 = 0x4F440001
    ∧ w1 + 16 + leNat (s.read (hostRegion + w1 + 12) 2) ≤ 0x100000 ∧ s.pathUp (if e = 6 then Path.pcie else Path.spi)
    = true ∧ full = true ∧ 32 ≤ s.od.queue.length) ∧
    (∃ (e w0 w1 : Nat), ∃ (s : State), (e = 6 ∨ e = 7) ∧ s.canReach (mbInit e) = true ∧ (s.chan e 1).full = false ∧
    s.up = true ∧ w1 < 2 ^ 32 ∧ 81 ≤ s.mbox.chans.length ∧ 9 ≤ s.mbox.ends.length ∧ w0 < 2 ^ 32 ∧ w0 ≠ 0x4F440001) ∧
    (∃ (s : State), s.up = true ∧ s.od.dirty = true ∧ (commitBank s.flash.banks s.flash.guarded) <
    s.flash.banks.length) ∧
    (∃ (s : State), s.up = true ∧ s.od.dirty = true) ∧
    (∃ (s : State), s.up = true ∧ s.od.commitFailed = true ∧ (commitBank s.flash.banks s.flash.guarded) <
    s.flash.banks.length) ∧
    (∃ (s : State), s.up = true ∧ s.od.commitFailed = true) ∧
    (∃ (c : OdCaller), ∃ (s : State), Serves s c 1 (objKey 0x1110 3) ∧ (commitBank s.flash.banks s.flash.guarded) <
    s.flash.banks.length) ∧
    (∃ (c : OdCaller), ∃ (s : State), Serves s c 1 (objKey 0x1110 3)) ∧
    (∃ (c : OdCaller), ∃ (s : State), Serves s c 2 (objKey 0x1110 4) ∧ s.ident.imageState ≠ 1) :=
  ⟨⟨W.own, 2, W.tokSession, W.owned false, by decide +kernel⟩, ⟨W.own, 2, [], W.owned false, by decide +kernel⟩,
  ⟨{ W.own with session := 5 }, ⟨5, .pcie, 0, 2, 4000000000⟩, W.run.modOd (fun o =>
  { o with sessions := [⟨5, .pcie, 0, 2, 4000000000⟩] }), by decide +kernel⟩, ⟨W.own, 7, ⟨W.own, 7, 0x100501, 1, none,
  none⟩, W.run.modOd (fun o => { o with fwd := [⟨W.own, 7, 0x100501, 1, none, none⟩] }), by decide +kernel⟩, ⟨6,
  0x4F440001, 0, false, W.run.write hostRegion [1], by decide +kernel⟩, ⟨6, 0x4F440001, 0, true, W.run.write
  hostRegion [1], by decide +kernel⟩, ⟨6, 0x4F440001, 0, true, (W.run.write hostRegion [1]).modOd (fun o =>
  { o with queue := List.replicate 32 { c := W.own, svc := 1, k := ⟨0, 0, false⟩, data := [] } }), by decide +kernel⟩,
  ⟨6, 1, 0, W.run, by decide +kernel⟩, ⟨(W.run.modOd (fun o =>
  { o with dirty := true, commitFailed := true, image := [(0x120005, u32 7)] })), by decide +kernel⟩, ⟨(W.run.modOd
  (fun o => { o with dirty := true, commitFailed := true, image := [(0x120005, u32 7)] })), by decide +kernel⟩,
  ⟨(W.run.modOd (fun o => { o with dirty := true, commitFailed := true, image := [(0x120005, u32 7)] })),
  by decide +kernel⟩, ⟨(W.run.modOd (fun o =>
  { o with dirty := true, commitFailed := true, image := [(0x120005, u32 7)] })), by decide +kernel⟩, ⟨W.own,
  (W.run.modOd (fun o => { o with dirty := true, commitFailed := true, image := [(0x120005, u32 7)] })),
  by decide +kernel⟩, ⟨W.own, (W.run.modOd (fun o =>
  { o with dirty := true, commitFailed := true, image := [(0x120005, u32 7)] })), by decide +kernel⟩, ⟨W.own,
  (W.run.modOd (fun o => { o with dirty := true, commitFailed := true, image := [(0x120005, u32 7)] })),
  by decide +kernel⟩⟩

theorem witness_RegisterAccesses :
    (∃ (a : Access), ∃ (s : State), s.canReach a.init = true ∧ poolBase ≤ a.addr ∧ 0 < a.width ∧ a.addr + a.width ≤
    poolBase + 0x1000000 ∧ (hostInit a.init = false ∨ hostPool a.addr a.width = true)) ∧
    (∃ (a : Access), ∃ (s : State), s.canReach a.init = true ∧ poolBase ≤ a.addr ∧ 0 < a.width ∧ a.addr + a.width ≤
    poolBase + 0x1000000 ∧ hostInit a.init = true ∧ hostPool a.addr a.width = false) ∧
    (∃ (init o v : Nat), ∃ (r : RegRow), ∃ (s : State), Writes s init 0 ∧ regRow? 0 o = some r ∧ o < 0x10000 ∧ o % 4 =
    0 ∧ r.seq = 0 ∧ r.rws = 0 ∧ r.rw ≠ 0 ∧ o ≠ 0x48 ∧ o ≠ 0x30 ∧ o ≠ 0x34 ∧ o ≠ 0x38 ∧ v < 2 ^ 32) ∧
    (∃ (init o v : Nat), ∃ (s : State), Writes s init 0 ∧ (o = 0x30 ∨ o = 0x34 ∨ o = 0x38) ∧ v < 2 ^ 32) ∧
    (∃ (init w o : Nat), ∃ (s : State), s.canReach init = true ∧ hostInit init = true ∧ hostWritable w = false ∧ w <
    256 ∧ o < 0x10000) ∧
    (∃ (init w o v : Nat), ∃ (r : RegRow), ∃ (s : State), Writes s init w ∧ w ≠ 1 ∧ w ≠ 2 ∧ w < 256 ∧ o < 0x10000 ∧ o
    % 4 = 0 ∧ regRow? w o = some r ∧ r.seq ≠ 0 ∧ v < 2 ^ 32) ∧
    (∃ (init : Nat), ∃ (s : State), Reads s init 8) ∧
    (∃ (init : Nat), ∃ (s : State), Reads s init 8) ∧
    (∃ (init wd : Nat), ∃ (s : State), s.canReach init = true ∧ wd ≠ 4 ∧ wd ≠ 8) ∧
    (∃ (init : Nat), ∃ (s : State), Reads s init 0 ∧ s.indSpace = 3 ∧ s.indAddr < 3145728 ∧ s.indOn s.indSpace
    s.indAddr = true) ∧
    (∃ (init : Nat), ∃ (s : State), Reads s init 0 ∧ 3 ≤ s.indSpace ∧ indIn s.indSpace s.indAddr = true ∧ s.indOn
    s.indSpace s.indAddr = true) ∧
    (∃ (init v : Nat), ∃ (s : State), Writes s init 0 ∧ init < 5 ∧ s.indSpace = 3 ∧ s.indAddr < 3145728 ∧ s.indOn
    s.indSpace s.indAddr = true ∧ bitOf (s.reg (winKiln (indKiln s.indAddr)) 0) 0 = false ∧ v < 2 ^ 32) ∧
    (∃ (init v : Nat), ∃ (s : State), Writes s init 0 ∧ 5 ≤ init ∧ indIn s.indSpace s.indAddr = true ∧ s.indOn
    s.indSpace s.indAddr = true ∧ v < 2 ^ 32) :=
  ⟨⟨⟨21, hostRegion, 8⟩, W.run, by decide +kernel⟩, ⟨⟨21, poolBase, 8⟩, W.run, by decide +kernel⟩, ⟨21, 0x40, 77, ⟨0,
  0x40, 0x107, 0, 0, 0, "IND_SEL"⟩, W.run, by decide +kernel⟩, ⟨21, 0x30, 1, W.run.setStat stSys
  { num := 1, set := [(0, 1)] }, by decide +kernel⟩, ⟨21, 0x48, 0, W.run, by decide +kernel⟩, ⟨21, 0, 4, 1, ⟨0, 4, 0,
  0, 1, 0, "SYS_STAT"⟩, W.run.raise stSys [0], by decide +kernel⟩, ⟨21, W.run, by decide +kernel⟩, ⟨21, W.run,
  by decide +kernel⟩, ⟨21, 2, W.run, by decide +kernel⟩, ⟨21, (W.run.setReg 0 0x40 0x103).setReg 0 0x44 9,
  by decide +kernel⟩, ⟨21, (W.run.setReg 0 0x40 0x103).setReg 0 0x44 9, by decide +kernel⟩, ⟨1, 77, (W.run.setReg 0
  0x40 0x103).setReg 0 0x44 9, by decide +kernel⟩, ⟨21, 77, (W.run.setReg 0 0x40 0x103).setReg 0 0x44 9,
  by decide +kernel⟩⟩

theorem witness_MailboxesAndSemaphores :
    (∃ (init e d len : Nat), ∃ (s : State), Reads s init 1 ∧ e < 9 ∧ mbInit e = init ∧ d < 9 ∧ d ≠ e ∧ len < 16 ∧ 81 ≤
    s.mbox.chans.length ∧ 9 ≤ s.mbox.ends.length ∧ (s.chan e d).full = false ∧ (d ≠ 1 ∨ e < 6 ∨ e = 8 ∨ s.up = false)) ∧
    (∃ (init e len : Nat), ∃ (s : State), Reads s init 1 ∧ e < 9 ∧ mbInit e = init ∧ (e = 6 ∨ e = 7) ∧ len < 16 ∧ 81 ≤
    s.mbox.chans.length ∧ 9 ≤ s.mbox.ends.length ∧ s.up = true ∧ (s.chan e 1).full = false ∧ ((s.chan e 1).data.getD 0
    0) ≠ 0x4F440001) ∧
    (∃ (init e d len : Nat), ∃ (s : State), Reads s init 1 ∧ e < 9 ∧ mbInit e = init ∧ d < 9 ∧ d ≠ e ∧ len < 16 ∧ 81 ≤
    s.mbox.chans.length ∧ 9 ≤ s.mbox.ends.length ∧ (s.chan e d).full = true) ∧
    (∃ (init e src : Nat), ∃ (s : State), Reads s init 1 ∧ e < 9 ∧ mbInit e = init ∧ src < 9 ∧ src ≠ e ∧ 81 ≤
    s.mbox.chans.length ∧ 9 ≤ s.mbox.ends.length ∧ src < (s.endPt e).hold.length ∧ (s.chan src e).full = true) ∧
    (∃ (init e src : Nat), ∃ (s : State), Reads s init 1 ∧ e < 9 ∧ mbInit e = init ∧ src < 9 ∧ src ≠ e ∧ 81 ≤
    s.mbox.chans.length ∧ 9 ≤ s.mbox.ends.length ∧ src < (s.endPt e).hold.length ∧ (s.chan src e).full = false) ∧
    (∃ (init e : Nat), ∃ (s : State), Reads s init 1 ∧ e < 9 ∧ mbInit e = init ∧ 9 ≤ s.mbox.ends.length) ∧
    (∃ (init e v : Nat), ∃ (s : State), Reads s init 1 ∧ e < 9 ∧ mbInit e = init ∧ 9 ≤ s.mbox.ends.length ∧ v < 2 ^
    32) ∧
    (∃ (init e v : Nat), ∃ (s : State), Reads s init 1 ∧ e < 9 ∧ mbInit e = init ∧ 9 ≤ s.mbox.ends.length ∧ v < 2 ^ 32
    ∧ bitsOf v 31 28 < 9 ∧ bitsOf v 31 28 ≠ e) ∧
    (∃ (e : Nat), ∃ (s : State), s.alive = true ∧ 6 ≤ e ∧ e ≤ 8 ∧ 9 ≤ s.mbox.ends.length ∧ 81 ≤ s.mbox.chans.length) ∧
    (∃ (init n : Nat), ∃ (s : State), Reads s init 2 ∧ n < 32 ∧ n < s.mbox.sems.length ∧ s.mbox.sems.getD n none =
    none) ∧
    (∃ (init n w : Nat), ∃ (s : State), Reads s init 2 ∧ n < 32 ∧ n < s.mbox.sems.length ∧ s.mbox.sems.getD n none =
    some w) ∧
    (∃ (init wd : Nat), ∃ (s : State), s.canReach init = true ∧ wd ≠ 4 ∧ wd ≠ 8) ∧
    (∃ (init n v : Nat), ∃ (s : State), Writes s init 2 ∧ n < 32 ∧ n < s.mbox.sems.length ∧ v < 2 ^ 32 ∧
    s.mbox.sems.getD n none = some init) ∧
    (∃ (init n v : Nat), ∃ (s : State), Writes s init 2 ∧ n < 32 ∧ n < s.mbox.sems.length ∧ v < 2 ^ 32 ∧
    s.mbox.sems.getD n none ≠ some init) :=
  ⟨⟨0, 0, 1, 3, W.run, by decide +kernel⟩, ⟨21, 6, 3, W.run, by decide +kernel⟩, ⟨21, 6, 1, 3, W.run.mbPost 6 1 2,
  by decide +kernel⟩, ⟨21, 6, 1, W.run.mbPost 1 6 2, by decide +kernel⟩, ⟨21, 6, 1, W.run, by decide +kernel⟩, ⟨21, 6,
  W.run.mbPost 1 6 2, by decide +kernel⟩, ⟨21, 6, 2, W.run.mbPost 1 6 2, by decide +kernel⟩, ⟨1, 1, 0x60000003, W.run,
  by decide +kernel⟩, ⟨6, W.run.mbPost 1 6 2, by decide +kernel⟩, ⟨21, 31, W.run, by decide +kernel⟩, ⟨21, 31, 22,
  W.run.modMbox (fun m => { m with sems := setAt m.sems 31 (some 22) }), by decide +kernel⟩, ⟨21, 1, W.run,
  by decide +kernel⟩, ⟨21, 31, 0, W.run.modMbox (fun m => { m with sems := setAt m.sems 31 (some 21) }),
  by decide +kernel⟩, ⟨21, 31, 0, W.run, by decide +kernel⟩⟩

theorem witness_HostPaths :
    (∃ (s : State), s.alive = true ∧ s.domain 1 = true ∧ s.hostSel = false) ∧
    (∃ (x : ExportRec), ∃ (rest : List ExportRec), ∃ (n : Nat), ∃ (s : State), s.host.expIn = x :: rest ∧ s.domain 1 =
    true ∧ n < 8 ∧ n < s.host.rings.length ∧ (∀ (m : Nat), m < 8 → s.expTakes m x = decide (m = n)) ∧
    (s.host.rings.getD n {}).gapN = 0 ∧ s.reg 3 0xC ≠ 0 ∧ (s.host.rings.getD n {}).wp + (x.entry 0 false).length ≤
    s.expSize n ∧ (x.entry 0 false).length + 32 + ((s.host.rings.getD n {}).wp + s.expSize n - (s.host.rings.getD n
    {}).rp) % s.expSize n ≤ s.expSize n) ∧
    (∃ (x : ExportRec), ∃ (rest : List ExportRec), ∃ (n : Nat), ∃ (s : State), s.host.expIn = x :: rest ∧ s.domain 1 =
    true ∧ n < 8 ∧ n < s.host.rings.length ∧ (∀ (m : Nat), m < 8 → s.expTakes m x = decide (m = n)) ∧
    (s.host.rings.getD n {}).gapN = 0 ∧ (s.host.rings.getD n {}).wp + (x.entry 0 false).length ≤ s.expSize n ∧
    s.expSize n < (x.entry 0 false).length + 32 + ((s.host.rings.getD n {}).wp + s.expSize n - (s.host.rings.getD n
    {}).rp) % s.expSize n) ∧
    (∃ (n : Nat), ∃ (s : State), s.domain 1 = true ∧ n < 8 ∧ n < s.host.rings.length ∧ (s.host.rings.getD n {}).due =
    true) ∧
    (∃ (init n v : Nat), ∃ (s : State), Writes s init 3 ∧ n < 8 ∧ n < s.host.rings.length ∧ v % 32 = 0 ∧ v < 2 ^
    clampN 16 30 (bitsOf (s.reg 3 (0x108 + 0x20 * n)) 28 24)) ∧
    (∃ (init n v : Nat), ∃ (s : State), Writes s init 3 ∧ n < 8 ∧ v < 2 ^ 32 ∧ (v % 32 ≠ 0 ∨ 2 ^ clampN 16 30 (bitsOf
    (s.reg 3 (0x108 + 0x20 * n)) 28 24) ≤ v)) ∧
    (∃ (o n : Nat), ∃ (vs : List Nat), ∃ (s : State), s.spiOn = true ∧ 1 ≤ n ∧ n ≤ 64 ∧ o % 4 = 0 ∧ o + 4 * n ≤
    0x100000 ∧ vs.length = n ∧ (∀ (v : Nat), v ∈ vs → v < 2 ^ 32)) ∧
    (∃ (o n : Nat), ∃ (s : State), s.spiOn = true ∧ 1 ≤ n ∧ n ≤ 64 ∧ o % 4 = 0 ∧ o + 4 * n ≤ 0x100000) ∧
    (∃ (o n : Nat), ∃ (vs : List Nat), ∃ (s : State), s.spiOn = true ∧ 1 ≤ n ∧ n ≤ 64 ∧ o % 4 = 0 ∧ o + 4 * n ≤
    0x100000 ∧ vs.length < n ∧ (∀ (v : Nat), v ∈ vs → v < 2 ^ 32)) ∧
    (∃ (s : State), s.spiOn = true ∧ 9 ≤ s.mbox.ends.length) :=
  ⟨⟨W.run.setReg 3 0x108 0x80000000, by decide +kernel⟩, ⟨W.exp, [], 0, W.exports, by decide +kernel⟩, ⟨W.exp, [], 0,
  { W.exports with host := { W.exports.host with rings := setAt W.exports.host.rings 0 { wp := 0, rp := 32 } } },
  by decide +kernel⟩, ⟨2, W.run.modExp 2 (fun r => { r with due := true }), by decide +kernel⟩, ⟨21, 2, 64, W.run,
  by decide +kernel⟩, ⟨21, 2, 65, W.run, by decide +kernel⟩, ⟨8, 2, [5, 6], W.run, by decide +kernel⟩, ⟨8, 2,
  W.run.write hostRegion [1, 2, 3, 4, 5, 6, 7, 8, 9], by decide +kernel⟩, ⟨8, 3, [5, 6], W.run, by decide +kernel⟩,
  ⟨W.run, by decide +kernel⟩⟩

theorem witness_HousekeepingConverter :
    (∃ (slot : Nat), ∃ (vref : Int), ∃ (i : Nat), ∃ (s : State), s.hkOn = true ∧ s.hk.refRdy = true ∧ 0 < vref ∧
    s.slotOwned slot = false ∧ s.hk.run = HkRun.none ∧ s.hk.inj = none ∧ s.hk.pass = some i ∧ i + 1 < s.scanLen) ∧
    (∃ (slot : Nat), ∃ (vref : Int), ∃ (i : Nat), ∃ (s : State), s.hkOn = true ∧ s.hk.refRdy = true ∧ 0 < vref ∧
    s.slotOwned slot = false ∧ s.hk.run = HkRun.none ∧ s.hk.inj = none ∧ s.hk.pass = some i ∧ s.scanLen ≤ i + 1 ∧ 0 <
    s.scanLen ∧ s.hk.listDue = false ∧ s.hk.passDue = true) ∧
    (∃ (slot : Nat), ∃ (vref : Int), ∃ (e : Nat), ∃ (s : State), s.hkOn = true ∧ s.hk.refRdy = true ∧ 0 < vref ∧
    s.slotOwned slot = false ∧ s.hk.run = HkRun.none ∧ s.hk.inj = some e) ∧
    (∃ (s : State), s.hkOn = true ∧ s.hk.ready = true ∧ bitOf (s.reg 0x40 0) 1 = true ∧ 0 < s.scanLen) ∧
    (∃ (done : Nat), ∃ (s : State), Reads s 31 0x40 ∧ s.hk.aux.new = true ∧ s.hk.aux.source < 16 ∧ s.hk.aux.inj =
    false ∧ s.hk.queue = [] ∧ 1 ≤ done) ∧
    (∃ (s : State), Reads s 31 0x40 ∧ s.hk.aux.new = true ∧ s.hk.queue.length < 16) ∧
    (∃ (s : State), Reads s 31 0x40 ∧ 16 ≤ s.hk.queue.length) ∧
    (∃ (init : Nat), ∃ (s : State), Reads s init 0x40 ∧ init ≠ 31) ∧
    (∃ (c : OdCaller), ∃ (e : Nat), ∃ (s : State), Serves s c 1 (objKey 0x8000 7) ∧ e < 64 ∧ e % 32 < 24 ∧ s.hkBusy =
    false ∧ s.hk.run = HkRun.none ∧ s.hk.inj = none) ∧
    (∃ (init e : Nat), ∃ (s : State), Writes s init 0x40 ∧ e < 64 ∧ s.hkBusy = false ∧ s.hk.run = HkRun.none ∧
    s.hk.inj = none) ∧
    (∃ (init e : Nat), ∃ (s : State), Writes s init 0x40 ∧ e < 64 ∧ (s.hkBusy = true ∨ s.hk.run ≠ HkRun.none ∨
    s.hk.inj ≠ none)) ∧
    (∃ (s : State), s.hkOn = true) ∧
    (∃ (s : State), s.hkOn = true ∧ s.hkRef = 1 ∧ s.hk.refRdy = true) :=
  ⟨⟨5, 2500000, 0, (W.hk.setReg 0x40 4 0x300).modHk (fun h => { h with pass := some 0 }), by decide +kernel⟩, ⟨5,
  2500000, 2, (W.hk.setReg 0x40 4 0x300).modHk (fun h => { h with pass := some 2, passDue := true }),
  by decide +kernel⟩, ⟨5, 2500000, 3, W.hk.modHk (fun h => { h with inj := some 3 }), by decide +kernel⟩,
  ⟨((W.hk.setRegBit 0x40 0 1 true).setReg 0x40 4 0x300).modHk (fun h => { h with ready := true }), by decide +kernel⟩,
  ⟨1, W.hk.modHk (fun h => { h with aux := { source := 3, new := true, value := 100 } }), by decide +kernel⟩,
  ⟨W.hk.modHk (fun h => { h with aux := { source := 3, new := true, value := 100 } }), by decide +kernel⟩, ⟨W.hk.modHk
  (fun h => { h with aux := { source := 3, new := true, value := 100 }, queue := List.replicate 16 {} }),
  by decide +kernel⟩, ⟨21, W.hk, by decide +kernel⟩, ⟨W.own, 3, W.hk, by decide +kernel⟩, ⟨1, 3, W.hk,
  by decide +kernel⟩, ⟨1, 3, W.hk.modHk (fun h => { h with inj := some 5 }), by decide +kernel⟩, ⟨W.hk,
  by decide +kernel⟩, ⟨W.hk.setReg 0x40 4 1, by decide +kernel⟩⟩

theorem witness_CalibrationsAndBridges :
    (∃ (c : OdCaller), ∃ (s : State), Serves s c 1 (objKey 0x8020 1) ∧ s.hk.run = HkRun.none) ∧
    (∃ (init : Nat), ∃ (s : State), Writes s init 0x40 ∧ s.hkOn = true ∧ s.hk.run = HkRun.none) ∧
    (∃ (s : State), s.hkOn = true ∧ s.nat 0x8020 5 ≠ 0 ∧ s.hk.run = HkRun.none) ∧
    (∃ (o1 o2 : Int), ∃ (g1 g2 : Nat), ∃ (s : State), s.hkOn = true ∧ s.hk.run = HkRun.self ∧ s.hk.refRdy = true ∧
    selfAgree o1 o2 g1 g2 = true) ∧
    (∃ (o1 o2 : Int), ∃ (g1 g2 : Nat), ∃ (s : State), s.hkOn = true ∧ s.hk.run = HkRun.self ∧ s.hk.refRdy = true ∧
    selfAgree o1 o2 g1 g2 = false ∧ (s.hk.ready = true ∨ s.hk.again = true)) ∧
    (∃ (s : State), s.up = true ∧ s.nat 0x8020 5 ≠ 0 ∧ s.hk.run ≠ HkRun.self) ∧
    (∃ (c : OdCaller), ∃ (input : Nat), ∃ (s : State), Serves s c 1 (objKey 0x8020 7) ∧ s.hk.run = HkRun.none ∧ input
    < 16) ∧
    (∃ (c : OdCaller), ∃ (input : Nat), ∃ (s : State), Serves s c 1 (objKey 0x8020 8) ∧ s.hk.run = HkRun.none ∧
    s.zeroAccepted input = true ∧ input < 16) ∧
    (∃ (s1 s2 : Int), ∃ (input : Nat), ∃ (s : State), s.hk.run = HkRun.sys false input ∧ (s1 - s2).natAbs ≤ 512) ∧
    (∃ (s1 s2 : Int), ∃ (input : Nat), ∃ (s : State), s.hk.run = HkRun.sys false input ∧ 512 < (s1 - s2).natAbs) ∧
    (∃ (n : Nat), ∃ (s : State), s.hkOn = true ∧ n < 2 ∧ (s.hk.br n).cfg.en = false) ∧
    (∃ (n : Nat), ∃ (runs : List (Nat × Int × Nat)), ∃ (s : State), s.hkOn = true ∧ n < 2 ∧ (s.hk.br n).cfg.en = true
    ∧ s.hk.refRdy = true ∧ s.hk.ready = true ∧ sumN (runs.map fun (r : Nat × Int × Nat) => r.1) = (s.hk.br
    n).cfg.samples) ∧
    (∃ (n : Nat), ∃ (drive vs vp vn : Int), ∃ (s : State), s.bridgeTrip n drive vs vp vn = false) ∧
    (∃ (n : Nat), ∃ (drive vs vp vn : Int), ∃ (s : State), s.hkOn = true ∧ n < 2 ∧ (s.hk.br n).cfg.en = true ∧
    ((s.hk.br n).cfg.vmode = false ∧ 2600000 ≤ drive) ∨ (Num.ofInt (2 * vs)).lt (s.predictedVs n) = true ∨ vp < 50000
    ∨ 2700000 < vp ∨ vn < 50000 ∨ 2700000 < vn) ∧
    (∃ (n : Nat), ∃ (w : BrRes), ∃ (s : State), n < 2 ∧ (s.hk.br n).wait = some w ∧ w.cfg.func ≠ 1) ∧
    (∃ (q : Port), ∃ (s : State), s.up = true ∧ s.domain (10 + Port.num q) = true ∧ (s.port q).hasPlan = true ∧
    (s.port q).trim.window = true ∧ s.unmuted q = true ∧ 4096 ≤ (s.port q).gaps ∧ (s.port q).trim.prev = none) ∧
    (∃ (q : Port), ∃ (res r0 : List Int), ∃ (s : State), s.up = true ∧ s.domain (10 + Port.num q) = true ∧ (s.port
    q).hasPlan = true ∧ (s.port q).trim.window = true ∧ s.unmuted q = true ∧ 4096 ≤ (s.port q).gaps ∧ (s.port
    q).trim.prev = some r0 ∧ runsAgree [20, 10, 10] r0 res = true) ∧
    (∃ (q : Port), ∃ (res r0 : List Int), ∃ (s : State), s.up = true ∧ s.domain (10 + Port.num q) = true ∧ (s.port
    q).hasPlan = true ∧ (s.port q).trim.window = true ∧ s.unmuted q = true ∧ 4096 ≤ (s.port q).gaps ∧ (s.port
    q).trim.prev = some r0 ∧ runsAgree [20, 10, 10] r0 res = false) :=
  ⟨⟨W.own, W.hk, by decide +kernel⟩, ⟨1, W.hk, by decide +kernel⟩, ⟨W.hk, by decide +kernel⟩, ⟨3, 5, 32768, 32770,
  (W.hk.modHk (fun h => { h with run := .self })), by decide +kernel⟩, ⟨3, 500, 32768, 32770, (W.hk.modHk (fun h =>
  { h with run := .self, ready := true })), by decide +kernel⟩, ⟨W.hk, by decide +kernel⟩, ⟨W.own, 3, W.hk,
  by decide +kernel⟩, ⟨W.own, 3, W.hk.setObj 0x8030 4 (u32 0), by decide +kernel⟩, ⟨512, 1024, 3, W.hk.modHk (fun h =>
  { h with run := .sys false 3 }), by decide +kernel⟩, ⟨512, 2024, 3, W.hk.modHk (fun h =>
  { h with run := .sys false 3 }), by decide +kernel⟩, ⟨1, W.hk, by decide +kernel⟩, ⟨1, [(96, 100, 1000)],
  ((W.hk.modHk (fun h => { h with ready := true })).modBr 1 (fun b =>
  { b with cfg := { b.cfg with en := true, ms := 1 } })), by decide +kernel⟩, ⟨1, 0, 10000000, 1000000, 900000,
  ((W.hk.modHk (fun h => { h with ready := true })).modBr 1 (fun b =>
  { b with cfg := { b.cfg with en := true, ms := 1 } })), by decide +kernel⟩, ⟨1, 0, 10000000, 1000000, 0,
  ((W.hk.modHk (fun h => { h with ready := true })).modBr 1 (fun b =>
  { b with cfg := { b.cfg with en := true, ms := 1 } })), by decide +kernel⟩, ⟨1, ⟨100, false, { func := 0 }, true,
  false⟩, W.hk.modBr 1 (fun b => { b with wait := some ⟨100, false, { func := 0 }, true, false⟩ }),
  by decide +kernel⟩, ⟨.a, (W.opt { state := 3 }).modPort .a (fun ps =>
  { ps with gaps := 4096, trim := { ps.trim with prev := none } }), by decide +kernel⟩, ⟨.a, [1, 2, 3], [3, 4, 5],
  (W.opt { state := 3 }).modPort .a (fun ps =>
  { ps with gaps := 4096, trim := { ps.trim with prev := some [3, 4, 5] } }), by decide +kernel⟩, ⟨.a, [100, 2, 3],
  [3, 4, 5], (W.opt { state := 3 }).modPort .a (fun ps =>
  { ps with gaps := 4096, trim := { ps.trim with prev := some [3, 4, 5] } }), by decide +kernel⟩⟩

theorem witness_IdentityAndOwner :
    (∃ (c : OdCaller), ∃ (v : List Byte), ∃ (s : State), Serves s c 0 (objKey 0x1002 1) ∧ v.length = 32 ∧
    s.ident.idState = 0) ∧
    (∃ (c : OdCaller), ∃ (v : List Byte), ∃ (s : State), Serves s c 3 (objKey 0x1001 1) ∧ v.length ≤ 1024 ∧ sha256 v =
    s.otp.certHash) ∧
    (∃ (c : OdCaller), ∃ (v : List Byte), ∃ (s : State), Serves s c 2 (objKey 0x1400 1) ∧ s.ownerState = 0 ∧ (ecKey?
    v).isSome = true) ∧
    (∃ (c : OdCaller), ∃ (v : List Byte), ∃ (r : OwnerRec), ∃ (s : State), Serves s c 0 (objKey 0x1400 5) ∧
    s.flash.owner = some r ∧ v.length ≤ 1024 ∧ s.tokenOk v 3 0 (zeros 32) = true) ∧
    (∃ (c : OdCaller), ∃ (v : List Byte), ∃ (s : State), Serves s c 0 (objKey 0x1400 5) ∧ v.length ≤ 1024 ∧ s.tokenOk
    v 3 0 (zeros 32) = false ∧ s.tokenOk v 5 0 (zeros 32) = true) ∧
    (∃ (c : OdCaller), ∃ (v : List Byte), ∃ (r : OwnerRec), ∃ (s : State), Serves s c 0 (objKey 0x1400 6) ∧
    s.flash.owner = some r ∧ v.length ≤ 1024 ∧ s.tokenOk (v.take 136) 4 0 (sha256 (v.drop 136)) = true ∧ (ecKey?
    (v.drop 136)).isSome = true) ∧
    (∃ (c : OdCaller), ∃ (v : List Byte), ∃ (s : State), Serves s c 0 (objKey 0x1400 5) ∧ v.length ≤ 1024 ∧ s.tokenOk
    v 3 0 (zeros 32) = false ∧ s.tokenOk v 5 0 (zeros 32) = false) ∧
    (∃ (c : OdCaller), ∃ (r : OwnerRec), ∃ (s : State), Serves s c 2 (objKey 0x1400 4) ∧ s.flash.owner = some r ∧
    r.intact = true) :=
  ⟨⟨W.own, zeros 32, W.run, by decide +kernel⟩, ⟨{ W.own with session := 5 }, [1, 2, 3], W.session 3
  { W.run with otp := { W.run.otp with certHash := sha256 [1, 2, 3] } }, by decide +kernel⟩, ⟨W.own, W.key, W.run,
  by decide +kernel⟩, ⟨W.own, W.tokUnlock, ⟨W.key, 0, true, true⟩, W.owned true, by decide +kernel⟩, ⟨W.own,
  W.tokRelease, W.owned false, by decide +kernel⟩, ⟨W.own, W.tokTransfer ++ W.key, ⟨W.key, 0, false, true⟩, W.owned
  false, by decide +kernel⟩, ⟨W.own, [], W.owned true, by decide +kernel⟩, ⟨{ W.own with session := 5 }, ⟨W.key, 0,
  false, true⟩, W.session 2 (W.owned false), by decide +kernel⟩⟩

theorem witness_FirmwareUpdates :
    (∃ (c : OdCaller), ∃ (v : List Byte), ∃ (s : State), Serves s c 2 (objKey 0x1410 4) ∧ v.length ≤ 1024 ∧
    s.ownerState ≠ 2 ∧ (s.ident.stageState = 2 ∨ s.ident.stageState = 3) ∧ s.tokenOk v 2 0 (sha256
    (s.flash.staging.take 256)) = true) ∧
    (∃ (c : OdCaller), ∃ (s : State), Serves s c 2 (objKey 0x1410 5) ∧ s.ownerState ≠ 2) ∧
    (∃ (c : OdCaller), ∃ (s : State), Serves s c 2 (objKey 0x1410 5) ∧ s.ownerState = 0 ∧ s.ident.stageState = 2 ∧
    s.captureBusy = false ∧ s.power.vmainOk = true ∧ s.vbatLow = false) ∧
    (∃ (c : OdCaller), ∃ (s : State), Serves s c 2 (objKey 0x1410 5) ∧ s.ownerState = 0 ∧ s.ident.stageState = 2 ∧
    s.captureBusy = false ∧ s.power.vmainOk = true ∧ s.vbatLow = false) ∧
    (∃ (c : OdCaller), ∃ (s : State), Serves s c 2 (objKey 0x1410 5) ∧ s.ownerState ≠ 2 ∧ s.ident.imageState = 1) ∧
    (∃ (s : State), s.power.phase = Phase.starting ∧ s.pllsLocked = true ∧ s.bootFlash = true ∧ s.flash.armed = true ∧
    s.ident.checked = false ∧ s.power.vmainOk = true) ∧
    (∃ (vbatOk : Bool), ∃ (s : State), s.power.phase = Phase.starting ∧ s.pllsLocked = true ∧ s.bootFlash = true ∧
    s.flash.armed = true ∧ s.ident.checked = false ∧ (s.power.vmainOk = false ∨ vbatOk = false)) ∧
    (∃ (c : OdCaller), ∃ (s : State), Serves s c 1 (objKey 0x1410 7) ∧ s.ident.imageState = 1) ∧
    (∃ (s : State), s.up = true ∧ s.ident.imageState = 1 ∧ s.autoConfirmOk = true) ∧
    (∃ (s : State), s.up = true ∧ s.ident.imageState = 1) ∧
    (∃ (s : State), s.power.phase = Phase.starting ∧ s.pllsLocked = true ∧ s.bootFlash = true ∧ s.flash.awaiting =
    true ∧ s.ident.fresh = false) ∧
    (∃ (s : State), s.power.phase = Phase.starting ∧ s.power.pllS = true ∧ s.power.pllD = true ∧ s.power.pllF = true ∧
    s.dram.trained = true ∧ s.bootFlash = true ∧ s.flash.awaiting = false ∧ (s.flash.armed = false ∨ s.ident.checked =
    true) ∧ s.ident.loadWait = false ∧ s.romAccepts s.flash.active = true) ∧
    (∃ (s : State), s.power.phase = Phase.starting ∧ s.power.pllS = true ∧ s.power.pllD = true ∧ s.power.pllF = true ∧
    s.dram.trained = true ∧ s.bootFlash = true ∧ s.flash.awaiting = false ∧ (s.flash.armed = false ∨ s.ident.checked =
    true) ∧ s.ident.loadWait = false ∧ s.romAccepts s.flash.active = false ∧ s.romAccepts s.flash.previous = false) ∧
    (∃ (img : List Byte), ∃ (s : State), s.power.phase = Phase.starting ∧ s.power.pllS = true ∧ s.power.pllD = true ∧
    s.power.pllF = true ∧ s.dram.trained = true ∧ s.bootFlash = false ∧ s.loadOpen = true ∧ s.romAccepts img = true) ∧
    (∃ (s : State), s.power.phase = Phase.starting ∧ s.power.pllS = true ∧ s.power.pllD = true ∧ s.power.pllF = true ∧
    s.dram.trained = true ∧ s.bootFlash = true ∧ (s.flash.awaiting = true ∧ s.ident.fresh = false) ∨ (s.flash.armed =
    true ∧ s.ident.checked = false)) ∧
    (∃ (s : State), s.power.phase = Phase.starting ∧ s.power.pllS = true ∧ s.power.pllD = true ∧ s.power.pllF = true ∧
    s.dram.trained = true ∧ s.bootFlash = false ∧ s.loadOpen = false) :=
  ⟨⟨{ W.own with session := 5 }, W.tokUpdate, (W.session 2 (W.owned false)).modIdent (fun i =>
  { i with stageState := 2 }), by decide +kernel⟩, ⟨W.own, W.staged, by decide +kernel⟩, ⟨W.own, W.staged,
  by decide +kernel⟩, ⟨W.own, W.staged, by decide +kernel⟩, ⟨W.own, W.trial, by decide +kernel⟩, ⟨W.boot.modFlash (fun
  f => { f with armed := true }), by decide +kernel⟩, ⟨false, W.boot.modFlash (fun f => { f with armed := true }),
  by decide +kernel⟩, ⟨W.own, W.trial, by decide +kernel⟩,
  ⟨{ W.trial with tide := { W.trial.tide with ran := true } }, by decide +kernel⟩, ⟨W.trial, by decide +kernel⟩,
  ⟨W.boot.modFlash (fun f => { f with awaiting := true }), by decide +kernel⟩, ⟨W.boot.modFlash (fun f =>
  { f with active := W.image }), by decide +kernel⟩, ⟨W.boot, by decide +kernel⟩, ⟨W.image,
  ({ W.boot with power := { W.boot.power with straps := W.boot.power.straps + 0x40 } } : State), by decide +kernel⟩,
  ⟨W.boot.modFlash (fun f => { f with armed := true }), by decide +kernel⟩,
  ⟨({ W.boot with power := { W.boot.power with straps := W.boot.power.straps + 0x80 } } : State), by decide +kernel⟩⟩

theorem witness_ResetsAndStarts :
    (∃ (s : State), s.power.phase ≠ Phase.standby ∧ s.power.phase ≠ Phase.porst) ∧
    (∃ (lowNs : Nat), ∃ (s : State), s.power.phase ≠ Phase.standby ∧ s.power.phase ≠ Phase.porst ∧ 1000 ≤ lowNs) ∧
    (∃ (lowNs : Nat), lowNs < 1000) ∧
    (∃ (s : State), s.power.phase ≠ Phase.standby ∧ s.power.phase ≠ Phase.porst) ∧
    (∃ (s : State), s.power.phase = Phase.porst) ∧
    (∃ (s : State), s.power.phase = Phase.held) ∧
    (∃ (d : Nat), ∃ (s : State), s.switchesOn d = true) ∧
    (∃ (c : OdCaller), ∃ (s : State), Serves s c 2 (objKey 0x1300 0x11)) ∧
    (∃ (c : OdCaller), ∃ (s : State), Serves s c 2 (objKey 0x1300 6)) ∧
    (∃ (s : State), s.up = true ∧ s.power.resetAsked = true ∧ s.tide.running = false) ∧
    (∃ (init : Nat), ∃ (s : State), Writes s init 0x48) :=
  ⟨⟨W.run, by decide +kernel⟩, ⟨1000, W.run, by decide +kernel⟩, ⟨999, by decide +kernel⟩, ⟨W.run, by decide +kernel⟩,
  ⟨State.reset, by decide +kernel⟩, ⟨W.run.fullReset 1, by decide +kernel⟩, ⟨2, W.boot, by decide +kernel⟩, ⟨W.own,
  { W.run with aon := { W.run.aon with safeHold := true } }, by decide +kernel⟩, ⟨W.own, W.run, by decide +kernel⟩,
  ⟨{ W.run.askReset with tide := {} }, by decide +kernel⟩, ⟨1, W.run, by decide +kernel⟩⟩

theorem witness_StandbyAndSupplies :
    (∃ (c : OdCaller), ∃ (s : State), Serves s c 2 (objKey 0x1300 7) ∧ s.alarmPast = false ∧ (c.path = Path.pcie ∨
    c.path = Path.spi)) ∧
    (∃ (init : Nat), ∃ (s : State), Writes s init 0x49 ∧ s.alarmPast = false) ∧
    (∃ (s : State), s.power.phase = Phase.running ∧ s.power.vmainCount = true ∧ s.power.vmainOk = false ∧ s.nat 0x1300
    9 = 1 ∧ s.alarmPast = false) ∧
    (∃ (init : Nat), ∃ (s : State), Writes s init 0x49 ∧ s.alarmPast = true) ∧
    (∃ (lowNs : Nat), ∃ (s : State), s.power.phase = Phase.standby ∧ 10000 ≤ lowNs) ∧
    (∃ (lowNs : Nat), lowNs < 10000) ∧
    (∃ (s : State), s.power.phase = Phase.standby ∧ s.aon.wakeAlarm ≠ 0) ∧
    (∃ (s : State), s.power.phase = Phase.standby ∧ s.aon.mainLoss = true) ∧
    (∃ (s : State), s.power.phase = Phase.running) ∧
    (∃ (s : State), s.power.phase = Phase.running ∧ s.power.vmainOk = true) ∧
    (∃ (s : State), s.power.vmainOk = false) ∧
    (∃ (centre edge : Int), ∃ (s : State), s.alive = true ∧ (if tShut ≤ centre then s.power.shutC + 1 else 0) < 2 ∧
    (if tShut ≤ edge then s.power.shutE + 1 else 0) < 2) ∧
    (∃ (centre edge : Int), ∃ (s : State), s.alive = true ∧ (2 ≤ (if tShut ≤ centre then s.power.shutC + 1 else 0) ∨ 2
    ≤ (if tShut ≤ edge then s.power.shutE + 1 else 0)) ∧ 0 < s.nat 0x1300 0xE ∧ s.rtcNow + s.nat 0x1300 0xE *
    1000000000 < 2 ^ 64) ∧
    (∃ (s : State), s.power.phase = Phase.running ∧ s.nat 0x1300 0xF = 0) ∧
    (∃ (s : State), s.power.phase = Phase.standby) ∧
    (∃ (s : State), s.alive = false) ∧
    (∃ (s : State), s.alive = true) :=
  ⟨⟨W.own, W.run, by decide +kernel⟩, ⟨1, W.run, by decide +kernel⟩,
  ⟨{ W.run with power := { W.run.power with vmainCount := true, vmainOk := false } }.setObj 0x1300 9 (u8 1),
  by decide +kernel⟩, ⟨1, { W.run with aon := { W.run.aon with wakeAlarm := 1, rtc := 5 } }, by decide +kernel⟩,
  ⟨10000, W.run.standby false, by decide +kernel⟩, ⟨9999, by decide +kernel⟩,
  ⟨{ W.run with aon := { W.run.aon with wakeAlarm := 2 ^ 50 } }.standby false, by decide +kernel⟩, ⟨W.run.standby
  true, by decide +kernel⟩, ⟨W.run, by decide +kernel⟩, ⟨{ W.run with power := { W.run.power with vmainOk := true } },
  by decide +kernel⟩, ⟨{ W.run with power := { W.run.power with vmainOk := false } }, by decide +kernel⟩, ⟨1850, 100,
  W.run, by decide +kernel⟩, ⟨2000, 100, { W.run with power := { W.run.power with shutC := 1 } }, by decide +kernel⟩,
  ⟨W.run.setObj 0x1300 0xF (u8 0), by decide +kernel⟩, ⟨W.run.standby false, by decide +kernel⟩, ⟨W.run.standby false,
  by decide +kernel⟩, ⟨W.run, by decide +kernel⟩⟩

theorem witness_FaultsAndWatchdogs :
    (∃ (s : State), s.alive = true) ∧
    (∃ (s : State), s.alive = true ∧ bitOf (s.reg 0x48 0) 0 = true ∧ s.bwf.log.length < 64) ∧
    (∃ (s : State), s.alive = true ∧ bitOf (s.reg 0x48 0) 0 = true ∧ 64 ≤ s.bwf.log.length) ∧
    (∃ (s : State), s.alive = true) ∧
    (∃ (init k at_ : Nat), ∃ (rest : List (Nat × Nat)), ∃ (s : State), Reads s init 0x48 ∧ s.bwf.log = (k, at_) ::
    rest) ∧
    (∃ (init v : Nat), ∃ (s : State), Writes s init 0x48 ∧ 1 ≤ init ∧ init ≤ 4 ∧ v < 2 ^ 32) ∧
    (∃ (init v : Nat), ∃ (s : State), Writes s init 0x48 ∧ v < 2 ^ 32) ∧
    (∃ (cp : Nat), ∃ (s : State), s.alive = true ∧ cp < 4 ∧ bitOf (s.reg 0x48 0) (4 + cp) = true) ∧
    (∃ (cp : Nat), ∃ (s : State), s.alive = true ∧ cp < 4 ∧ bitOf s.power.wdogStage cp = true) ∧
    (∃ (s : State), s.alive = true) ∧
    (∃ (init addr : Nat), ∃ (s : State), s.alive = true ∧ init < 32 ∧ addr < 2 ^ 40) :=
  ⟨⟨W.run, by decide +kernel⟩, ⟨W.bwf, by decide +kernel⟩,
  ⟨{ W.bwf with bwf := { W.bwf.bwf with log := List.replicate 64 (1, 2) } }, by decide +kernel⟩, ⟨W.run,
  by decide +kernel⟩, ⟨1, 5, 6, [], { W.bwf with bwf := { W.bwf.bwf with log := [(5, 6)] } }, by decide +kernel⟩, ⟨2,
  1, { W.bwf with power := { W.bwf.power with wdogStage := 3 } }, by decide +kernel⟩, ⟨1, 1, W.bwf,
  by decide +kernel⟩, ⟨2, W.bwf, by decide +kernel⟩, ⟨1, { W.bwf with power := { W.bwf.power with wdogStage := 3 } },
  by decide +kernel⟩, ⟨W.run, by decide +kernel⟩, ⟨21, 5, W.run, by decide +kernel⟩⟩

theorem witness_StepKeepsInvariant :
    (∃ (s : State), s.inv) :=
  ⟨W.seqs.withFront .interlockClose,
  by refine ⟨by decide +kernel, by unfold SeqReg.agesOk; decide +kernel, by decide +kernel, by decide +kernel⟩⟩

theorem witness_OtpNeverGoesBack :
    (∃ (i : Instr), ∃ (s t : State), exec i s = .next t) ∧
    (∃ (i : Instr), ∃ (s t : State), exec i s = .next t ∧ t.otp ≠ s.otp) ∧
    (∃ (i : Instr), ∃ (s t : State), exec i s = .next t ∧ s.otp.secVersion ≤ 64 ∧ hdrField s.ident.running 16 4 ≤ 64) :=
  ⟨⟨.confirm none, W.awaiting, W.confirmed, W.awaiting_confirm⟩, ⟨.confirm none, W.awaiting, W.confirmed,
  W.awaiting_confirm, by decide +kernel⟩, ⟨.confirm none, W.awaiting, W.confirmed,
  W.awaiting_confirm, by decide +kernel, by decide +kernel⟩⟩

theorem witness_StatusSequenceRule :
    (∃ (bits : List Nat), bits ≠ []) ∧
    (∃ (r : SeqReg), ∃ (b q : Nat), (b, q) ∈ r.set) ∧
    (∃ (r : SeqReg), ∃ (v : Nat), 128 ≤ (r.num + 256 - bitsOf v 31 24) % 256) ∧
    (∃ (r : SeqReg), ∃ (v w : Nat), bitsOf v 31 24 = bitsOf w 31 24 ∧ (∀ e ∈ r.set, bitOf v e.1 = bitOf w e.1)) :=
  ⟨⟨[3, 5], by decide +kernel⟩, ⟨⟨5, [(3, 4)]⟩, 3, 4, by decide +kernel⟩, ⟨⟨5, [(3, 4)]⟩, 0x64000008,
  by decide +kernel⟩, ⟨⟨5, [(3, 4)]⟩, 0x05000008, 0x05000018, by decide +kernel⟩⟩

theorem witness_StatusAges :
    (∃ (r : SeqReg), r.agesOk) ∧
    (∃ (r : SeqReg), ∃ (bits : List Nat), ∃ (b q : Nat), bits ≠ [] ∧ b ∉ bits ∧ (b, q) ∈ r.set) ∧
    (∃ (r : SeqReg), ∃ (rises : List (List Nat)), r.num < 256 ∧ (∀ e ∈ r.set, e.1 < 24) ∧ (∀ l ∈ rises, l ≠ []) ∧ 128
    ≤ rises.length ∧ rises.length < 256) :=
  ⟨⟨⟨5, [(3, 134)]⟩, by unfold SeqReg.agesOk; decide +kernel⟩, ⟨⟨5, [(3, 134)]⟩, [4], 3, 134, by decide +kernel⟩, ⟨⟨5,
  [(3, 4)]⟩, List.replicate 128 [3], by decide +kernel⟩⟩

theorem witness_ReplayedRequests :
    (∃ (l : List Kept), ∃ (p : Path), ∃ (src : Nat), (l.filter (fun (x : Kept) => sameSource x.path p x.source
    src)).length ≤ 16) ∧
    (∃ (c : OdCaller), ∃ (x : Kept), ∃ (s : State), s.up = true ∧ s.pathUp c.path = true ∧ c.waits = false ∧
    s.od.queue = [] ∧ s.od.kept.find? (fun (x : Kept) => sameSource x.path c.path x.source c.source && x.transaction
    == c.transaction) = some x) ∧
    (∃ (c : OdCaller), ∃ (x : Kept), ∃ (s : State), s.up = true ∧ s.pathUp c.path = true ∧ c.waits = false ∧
    s.od.queue = [] ∧ s.od.kept.find? (fun (x : Kept) => sameSource x.path c.path x.source c.source && x.transaction
    == c.transaction) = some x) ∧
    (∃ (c : OdCaller), ∃ (x : Kept), ∃ (s : State), s.up = true ∧ s.pathUp c.path = true ∧ c.waits = false ∧
    s.od.queue = [] ∧ s.od.kept.find? (fun (x : Kept) => sameSource x.path c.path x.source c.source && x.transaction
    == c.transaction) = some x) ∧
    (∃ (c : OdCaller), ∃ (x : Kept), ∃ (s : State), s.up = true ∧ s.pathUp c.path = true ∧ c.waits = false ∧
    s.od.queue = [] ∧ s.od.kept.find? (fun (x : Kept) => sameSource x.path c.path x.source c.source && x.transaction
    == c.transaction) = some x) :=
  ⟨⟨[⟨.link, 3, 1, []⟩], .link, 3, by decide +kernel⟩, ⟨W.own, ⟨.pcie, 0, W.own.transaction, [1, 2]⟩, W.run.modOd (fun
  o => { o with kept := [⟨.pcie, 0, W.own.transaction, [1, 2]⟩] }), by decide +kernel⟩, ⟨W.own, ⟨.pcie, 0,
  W.own.transaction, [1, 2]⟩, W.run.modOd (fun o => { o with kept := [⟨.pcie, 0, W.own.transaction, [1, 2]⟩] }),
  by decide +kernel⟩, ⟨W.own, ⟨.pcie, 0, W.own.transaction, [1, 2]⟩, W.run.modOd (fun o =>
  { o with kept := [⟨.pcie, 0, W.own.transaction, [1, 2]⟩] }), by decide +kernel⟩, ⟨W.own, ⟨.pcie, 0,
  W.own.transaction, [1, 2]⟩, W.run.modOd (fun o => { o with kept := [⟨.pcie, 0, W.own.transaction, [1, 2]⟩] }),
  by decide +kernel⟩⟩

theorem witness_RefusedRequests :
    (∃ (c : OdCaller), ∃ (k : OdKey), ∃ (lv : Nat), ∃ (row : ObjRow), ∃ (s : State), Asks s c 0 ∧ s.level c = some lv
    ∧ s.asked.row k.idx k.sub = some row ∧ (s.asked.top k.idx).isSome = true ∧ row.acc = Acc.ro) ∧
    (∃ (c : OdCaller), ∃ (k : OdKey), ∃ (lv : Nat), ∃ (row : ObjRow), ∃ (s : State), Asks s c 0 ∧ s.level c = some lv
    ∧ s.asked.row k.idx k.sub = some row ∧ (s.asked.top k.idx).isSome = true ∧ row.acc ≠ Acc.ro ∧ lv < row.writeLevel) ∧
    (∃ (c : OdCaller), ∃ (k : OdKey), ∃ (v : List Byte), ∃ (lv : Nat), ∃ (row : ObjRow), ∃ (s : State), Asks s c 0 ∧
    s.level c = some lv ∧ s.asked.row k.idx k.sub = some row ∧ (s.asked.top k.idx).isSome = true ∧ row.acc ≠ Acc.ro ∧
    row.writeLevel ≤ lv ∧ row.lengthOk v.length = false) ∧
    (∃ (c : OdCaller), ∃ (k : OdKey), ∃ (lv : Nat), ∃ (row : ObjRow), ∃ (s : State), Asks s c 0 ∧ s.level c = some lv
    ∧ s.asked.row k.idx k.sub = some row ∧ (s.asked.top k.idx).isSome = true ∧ row.acc = Acc.wo) :=
  ⟨⟨W.own, ⟨0x1001, 2, false⟩, (W.run.level W.own).getD 9, W.row (⟨0x1001, 2, false⟩ : OdKey).idx (⟨0x1001, 2, false⟩
  : OdKey).sub, W.run, by decide +kernel⟩, ⟨W.own, ⟨0x1400, 1, false⟩, ((W.owned true).level W.own).getD 9, W.row
  0x1400 1, W.owned true, by decide +kernel⟩, ⟨W.own, ⟨0x1200, 5, false⟩, [1], (W.run.level W.own).getD 9, W.row
  (⟨0x1200, 5, false⟩ : OdKey).idx (⟨0x1200, 5, false⟩ : OdKey).sub, W.run, by decide +kernel⟩, ⟨W.own, ⟨0x8000, 7,
  false⟩, (W.run.level W.own).getD 9, W.row (⟨0x8000, 7, false⟩ : OdKey).idx (⟨0x8000, 7, false⟩ : OdKey).sub, W.run,
  by decide +kernel⟩⟩

theorem witness_CoreInstructionFrame :
    (∃ (c : Nat), ∃ (m : Moves), ∃ (s : State), s.coreReady c = true ∧ (s.core c).movesOk m = true ∧ c <
    s.brew.cores.length) ∧
    (∃ (c : Nat), ∃ (m : Moves), ∃ (s : State), s.coreReady c = true ∧ (s.core c).movesOk m = true ∧ c <
    s.brew.cores.length) ∧
    (∃ (c : Nat), ∃ (m : Moves), ∃ (s : State), s.coreReady c = true ∧ (s.core c).movesOk m = true ∧ c <
    s.brew.cores.length) ∧
    (∃ (c : Nat), ∃ (m : Moves), ∃ (s : State), s.coreReady c = true ∧ (s.core c).movesOk m = true ∧ c <
    s.brew.cores.length) ∧
    (∃ (c : Nat), ∃ (m : Moves), ∃ (s : State), s.coreReady c = true ∧ (s.core c).movesOk m = true ∧ c <
    s.brew.cores.length) ∧
    (∃ (c : Nat), ∃ (m : Moves), ∃ (s : State), s.coreReady c = true ∧ (s.core c).movesOk m = true ∧ c <
    s.brew.cores.length) ∧
    (∃ (c : Nat), ∃ (m : Moves), ∃ (s : State), s.coreReady c = true ∧ (s.core c).movesOk m = true ∧ c <
    s.brew.cores.length) ∧
    (∃ (c : Nat), ∃ (m : Moves), ∃ (s : State), s.coreReady c = true ∧ (s.core c).movesOk m = true ∧ c <
    s.brew.cores.length) ∧
    (∃ (c : Nat), ∃ (m : Moves), ∃ (s : State), s.coreReady c = true ∧ (s.core c).movesOk m = true ∧ c <
    s.brew.cores.length) ∧
    (∃ (c : Nat), ∃ (m : Moves), ∃ (s : State), s.coreReady c = true ∧ (s.core c).movesOk m = true ∧ c <
    s.brew.cores.length) ∧
    (∃ (c : Nat), ∃ (z : ScalarMem), ∃ (m : Moves), ∃ (s : State), s.coreReady c = true ∧ (s.core c).movesOk m = true
    ∧ c < s.brew.cores.length ∧ s.clusterOk (s.core c).owner (ofSigned 32 (((s.core c).s.getD z.addr 0 : Nat) +
    z.ofs)) z.bytes = true ∧ (z.bytes < 4 ∨ (ofSigned 32 (((s.core c).s.getD z.addr 0 : Nat) + z.ofs)) % z.bytes = 0)
    ∧ z.store = false) ∧
    (∃ (c : Nat), ∃ (z : ScalarMem), ∃ (m : Moves), ∃ (s : State), s.coreReady c = true ∧ (s.core c).movesOk m = true
    ∧ c < s.brew.cores.length ∧ s.clusterOk (s.core c).owner (ofSigned 32 (((s.core c).s.getD z.addr 0 : Nat) +
    z.ofs)) z.bytes = true ∧ (z.bytes < 4 ∨ (ofSigned 32 (((s.core c).s.getD z.addr 0 : Nat) + z.ofs)) % z.bytes = 0)
    ∧ z.store = true ∧ s.memOk) ∧
    (∃ (c : Nat), ∃ (m : Moves), ∃ (s : State), s.coreReady c = true ∧ (s.core c).movesOk m = true ∧ c <
    s.brew.cores.length) ∧
    (∃ (c : Nat), ∃ (m : Moves), ∃ (s : State), s.coreReady c = true ∧ (s.core c).movesOk m = true ∧ c <
    s.brew.cores.length ∧ (s.core c).rets.length < 16) ∧
    (∃ (c : Nat), ∃ (m : Moves), ∃ (s : State), s.coreReady c = true ∧ (s.core c).movesOk m = true ∧ c <
    s.brew.cores.length ∧ (s.core c).past.loops.length < 4) ∧
    (∃ (c : Nat), ∃ (m : Moves), ∃ (s : State), s.coreReady c = true ∧ (s.core c).movesOk m = true ∧ c <
    s.brew.cores.length) ∧
    (∃ (c : Nat), ∃ (m : Moves), ∃ (s : State), s.coreReady c = true ∧ (s.core c).movesOk m = true ∧ c <
    s.brew.cores.length) ∧
    (∃ (c : Nat), ∃ (m : Moves), ∃ (s : State), s.coreReady c = true ∧ (s.core c).movesOk m = true ∧ c <
    s.brew.cores.length ∧ (s.core c).dma.length < 4) ∧
    (∃ (c : Nat), ∃ (m : Moves), ∃ (s : State), s.coreReady c = true ∧ (s.core c).movesOk m = true ∧ c <
    s.brew.cores.length) ∧
    (∃ (c : Nat), ∃ (p : Nat), ∃ (m : Moves), ∃ (s : State), s.coreReady c = true ∧ (s.core c).movesOk m = true ∧ c <
    s.brew.cores.length ∧ (s.core c).work = some (Work.customer p)) :=
  ⟨⟨3, ⟨none, none⟩, W.core, by decide +kernel⟩, ⟨3, ⟨none, none⟩, W.core, by decide +kernel⟩, ⟨3, ⟨none, none⟩,
  W.core, by decide +kernel⟩, ⟨3, ⟨none, none⟩, W.core, by decide +kernel⟩, ⟨3, ⟨none, none⟩, W.core,
  by decide +kernel⟩, ⟨3, ⟨none, none⟩, W.core, by decide +kernel⟩, ⟨3, ⟨none, none⟩, W.core, by decide +kernel⟩, ⟨3,
  ⟨none, none⟩, W.core, by decide +kernel⟩, ⟨3, ⟨none, none⟩, W.core, by decide +kernel⟩, ⟨3, ⟨some ⟨true, 0, 4, 1,
  0⟩, none⟩, W.core, by decide +kernel⟩, ⟨3, ⟨false, 4, 1, 8, 2⟩, ⟨none, none⟩, W.core, by decide +kernel⟩, ⟨3, ⟨true,
  2, 1, 6, 2⟩, ⟨none, none⟩, W.core, by decide +kernel⟩, ⟨3, ⟨none, none⟩, W.core, by decide +kernel⟩, ⟨3, ⟨none,
  none⟩, W.core, by decide +kernel⟩, ⟨3, ⟨none, none⟩, W.core, by decide +kernel⟩, ⟨3, ⟨none, none⟩, W.core,
  by decide +kernel⟩, ⟨3, ⟨none, none⟩, W.core, by decide +kernel⟩, ⟨3, ⟨none, none⟩, W.core, by decide +kernel⟩, ⟨3,
  ⟨none, none⟩, W.core, by decide +kernel⟩, ⟨3, 2, ⟨none, none⟩, W.core.modCore 3 (fun k =>
  { k with work := some (.customer 2) }), by decide +kernel⟩⟩

theorem witness_PortIsolation :
    (∃ (i : Instr), ∃ (s t : State), ∃ (q r : Port), portOf i = some q ∧ r ≠ q ∧ exec i s = .next t) :=
  ⟨.rxCalStale .a false, State.reset, State.reset, .a, .b, rfl, by decide, rfl⟩

theorem witness_SignalFrame :
    (∃ (i : Instr), ∃ (s t : State), ∃ (p : Part), p ∉ signalParts i ∧ (asksServer i = true → s.od.queue = []) ∧ exec
    i s = .next t) :=
  ⟨.interlockClose, State.reset, { State.reset with power := { State.reset.power with ilockOpen := false } }, .mem,
  by decide, by decide, rfl⟩

theorem witness_StorageFrame :
    (∃ (i : Instr), ∃ (s t : State), ∃ (p : Part), p ∉ storageParts i ∧ (asksServer i = true → s.od.queue = []) ∧ exec
    i s = .next t) :=
  ⟨.zqShortCal, State.reset, State.reset, .mem, by decide, by decide, rfl⟩

theorem witness_TimeAndChainFrame :
    (∃ (i : Instr), ∃ (s t : State), ∃ (p : Part), p ∉ timeParts i ∧ (asksServer i = true → s.od.queue = []) ∧ exec i
    s = .next t) :=
  ⟨.rtcWriteBack, State.reset, State.reset, .mem, by decide, by decide, rfl⟩

theorem witness_HostFrame :
    (∃ (i : Instr), ∃ (s t : State), ∃ (p : Part), p ∉ hostParts i ∧ (asksServer i = true → s.od.queue = []) ∧ exec i
    s = .next t) ∧
    (∃ (i : Instr), ∃ (s t : State), exec i s = .next t) :=
  ⟨⟨.sessionExpiry 5, State.reset, State.reset, .mem, by decide, by decide, rfl⟩, ⟨.sessionExpiry 5, State.reset,
  State.reset, rfl⟩⟩

theorem witness_StoredBytes :
    (∃ (s : State), s.memOk) ∧
    (∃ (s : State), s.memOk) ∧
    (∃ (s : State), s.memOk) ∧
    (∃ (q : Port), ∃ (x : RingRec), ∃ (rest : List RingRec), ∃ (s : State), s.memOk ∧ (s.port q).celIn = x :: rest ∧
    (s.ring q x.ring).cur < (s.ring q x.ring).n ∧ (s.ring q x.ring).fill ≤ (s.ring q x.ring).segBytes ∧ (s.ring q
    x.ring).dropN = 0) ∧
    (∃ (c : Nat), ∃ (p : Option Nat), ∃ (d : DmaDesc), ∃ (rest : List (Option Nat × DmaDesc)), ∃ (b : List Byte), ∃ (s
    : State), s.memOk ∧ (s.core c).dma = (p, d) :: rest ∧ s.dmaRead c p d.src d.srcAddr d.len = some b ∧ (s.dmaWrite c
    p d.dst d.dstAddr b).isSome = true) :=
  ⟨⟨W.dram, by decide +kernel⟩, ⟨W.dram, by decide +kernel⟩, ⟨W.dram.setRegBit 0x2A 0 1 true, by decide +kernel⟩, ⟨.a,
  W.rec, [], W.cellar, by decide +kernel⟩, ⟨3, none, ⟨0, 16, 2, 32, 8⟩, [], zeros 8, W.core.modCore 3 (fun k =>
  { k with dma := [(none, ⟨0, 16, 2, 32, 8⟩)] }), by decide +kernel⟩⟩

end Sys2Proof.Tests
end

section
/-! What the registers and status registers of a state read before anything is stored in them, and the state after
reset. -/
namespace Sys2Proof.Machine
open Sys2Proof

/-! ## The register table -/

/-- Every row of the table is itself the first instance, whose row the other instances share. -/
theorem canonReg_of_mem_regRows : ∀ r ∈ regRows, canonReg r.win r.ofs = (r.win, r.ofs) := by
  decide +kernel

/-- No two rows of the table describe the same register. -/
theorem eq_of_mem_regRows_of_address : ∀ r ∈ regRows, ∀ x ∈ regRows, x.win = r.win → x.ofs = r.ofs → x = r := by
  decide +kernel

theorem regRow?_eq_find?_of_mem_regRows {r : RegRow} (hr : r ∈ regRows) :
    regRow? r.win r.ofs = regRows.find? (fun x => x.win == r.win && x.ofs == r.ofs) := by
  simp only [regRow?, canonReg_of_mem_regRows r hr]

/-- The row found for a register of the table is the table's own. -/
theorem regRow?_of_mem_regRows {r : RegRow} (hr : r ∈ regRows) : regRow? r.win r.ofs = some r := by
  rw [regRow?_eq_find?_of_mem_regRows hr]
  have hfound : (regRows.find? (fun x => x.win == r.win && x.ofs == r.ofs)).isSome :=
    List.find?_isSome.mpr ⟨r, hr, by simp only [BEq.rfl, Bool.and_self]⟩
  obtain ⟨x, hx⟩ := Option.isSome_iff_exists.mp hfound
  obtain ⟨hwin, hofs⟩ : x.win = r.win ∧ x.ofs = r.ofs := by
    simpa only [Bool.and_eq_true, beq_iff_eq] using List.find?_some hx
  rw [hx, eq_of_mem_regRows_of_address r hr x (List.mem_of_find?_eq_some hx) hwin hofs]

/-! ## Registers and status registers in which nothing is stored -/

/-- R13: a register in which nothing is stored reads the reset value of its row. -/
theorem State.reg_of_not_stored {s : State} {r : RegRow} (hr : r ∈ regRows)
    (hs : lookup (regKey r.win r.ofs) s.regs = none) : s.reg r.win r.ofs = r.rst := by
  simp only [State.reg, hs, regRow?_of_mem_regRows hr, Option.getD_none]

/-- A status register that is not listed has no bit set and SEQNUM 0. -/
theorem State.stat_of_not_listed {s : State} {k : Nat} (hs : lookup k s.stats = none) : s.stat k = {} := by
  simp only [State.stat, hs, Option.getD_none]

/-! ## The state after reset -/

theorem reset_port (q : Port) : State.reset.port q = {} := by
  cases q <;> rfl

/-- In a list of copies of the default, every index reads the default. -/
theorem getD_replicate_self {α : Type} (n i : Nat) (d : α) : (List.replicate n d).getD i d = d := by
  rw [List.getD_eq_getElem?_getD, List.getElem?_replicate]
  split
  · exact Option.getD_some
  · exact Option.getD_none

theorem reset_caps_getD (d : Nat) : State.reset.caps.getD d {} = {} :=
  getD_replicate_self 16 d ({} : Capture)

theorem reset_sems_getD (n : Nat) : State.reset.mbox.sems.getD n none = none :=
  getD_replicate_self 32 n none

/-- Settles O46: registers and status bits by the rules for what is not stored, the ports, descriptors and semaphores
by their initial values. -/
theorem resetState : Obligations.ResetState := by
  refine ⟨fun r hr => State.reg_of_not_stored hr rfl, fun k => ?statusBits, ⟨rfl, rfl, rfl⟩, fun q => ?ports,
    ⟨rfl, rfl, fun d => ?captures⟩, reset_sems_getD⟩
  case statusBits => rw [State.stat_of_not_listed rfl]
  case ports => simp only [reset_port, and_self]
  case captures => rw [reset_caps_getD]

end Sys2Proof.Machine
end

section
/-! What the work at a Tide edge leaves as it is: the Tide grid, local time, the objects in force, and the status bits
that are set. -/
namespace Sys2Proof.Machine
open Sys2Proof

/-- From `s` to `t` the Tide grid and local time have not changed, and no status bit has cleared. -/
structure State.KeepsGrid (s t : State) : Prop where
  tide : t.tide = s.tide
  time : t.time = s.time
  bits : ∀ k b, (s.stat k).has b = true → (t.stat k).has b = true

/-- The same, and nothing of the dictionary or of the straps has changed. -/
structure State.Keeps (s t : State) : Prop extends State.KeepsGrid s t where
  od : t.od = s.od
  power : t.power = s.power

namespace State

/-! ## Status bits -/

theorem stat_of_stats_eq {s t : State} (h : t.stats = s.stats) (k : Nat) : t.stat k = s.stat k := by
  simp only [State.stat, h]

theorem stat_setStat (s : State) (k k' : Nat) (r : SeqReg) :
    (s.setStat k r).stat k' = if k' = k then r else s.stat k' := by
  simp only [State.stat, State.setStat, lookup_insertKey]
  split <;> rfl

/-- R412: the bits set in one cycle are set afterwards, and every bit that was set before is. -/
@[simp] theorem stat_has_raise (s : State) (k k' b : Nat) (bits : List Nat) :
    ((s.raise k bits).stat k').has b = ((k' == k && bits.contains b) || (s.stat k').has b) := by
  rw [State.raise, stat_of_stats_eq (afterRise_stats _ _), stat_setStat]
  split
  next h => simp [h]
  next h => simp [h]

/-! ## Keeping the grid -/

theorem KeepsGrid.trans {s t u : State} (h : s.KeepsGrid t) (h' : t.KeepsGrid u) : s.KeepsGrid u :=
  ⟨h'.tide.trans h.tide, h'.time.trans h.time, fun k b hb => h'.bits k b (h.bits k b hb)⟩

theorem KeepsGrid.of_eq {s t : State} (tide : t.tide = s.tide) (time : t.time = s.time) (stats : t.stats = s.stats) :
    s.KeepsGrid t :=
  ⟨tide, time, fun k _ hb => by rwa [stat_of_stats_eq stats k]⟩

/-! ## Keeping the grid and the dictionary: each shared update -/

namespace Keeps

variable {s t u : State}

theorem refl (s : State) : s.Keeps s := ⟨⟨rfl, rfl, fun _ _ hb => hb⟩, rfl, rfl⟩

theorem trans (h : s.Keeps t) (h' : t.Keeps u) : s.Keeps u :=
  ⟨h.toKeepsGrid.trans h'.toKeepsGrid, h'.od.trans h.od, h'.power.trans h.power⟩

theorem of_eq (tide : t.tide = s.tide) (time : t.time = s.time) (stats : t.stats = s.stats) (od : t.od = s.od)
    (power : t.power = s.power) : s.Keeps t :=
  ⟨.of_eq tide time stats, od, power⟩

theorem modPort (h : s.Keeps t) (q : Port) (f : PortState → PortState) : s.Keeps (t.modPort q f) :=
  h.trans (.of_eq (by simp) (by simp) (by simp) (by simp) (by simp))

theorem modChain (h : s.Keeps t) (f : Chain → Chain) : s.Keeps (t.modChain f) := h.trans (.of_eq rfl rfl rfl rfl rfl)

theorem modLink (h : s.Keeps t) (d : Side) (f : Link → Link) : s.Keeps (t.modLink d f) :=
  h.trans (.of_eq rfl rfl rfl rfl rfl)

theorem modEgr (h : s.Keeps t) (q : LinkPort) (f : Egress → Egress) : s.Keeps (t.modEgr q f) :=
  h.trans (.of_eq rfl rfl rfl rfl rfl)

theorem modHk (h : s.Keeps t) (f : Hk → Hk) : s.Keeps (t.modHk f) := h.trans (.of_eq rfl rfl rfl rfl rfl)

theorem withBrew (h : s.Keeps t) (b : Brew) : s.Keeps { t with brew := b } := h.trans (.of_eq rfl rfl rfl rfl rfl)

theorem setReg (h : s.Keeps t) (w o v : Nat) : s.Keeps (t.setReg w o v) := h.trans (.of_eq rfl rfl rfl rfl rfl)

theorem setRegBit (h : s.Keeps t) (w o b : Nat) (v : Bool) : s.Keeps (t.setRegBit w o b v) := h.setReg w o _

theorem write (h : s.Keeps t) (a : Nat) (bs : List Byte) : s.Keeps (t.write a bs) :=
  h.trans (.of_eq rfl rfl rfl rfl rfl)

theorem emit (h : s.Keeps t) (o : Output) : s.Keeps (t.emit o) := h.trans (.of_eq rfl rfl rfl rfl rfl)

theorem withFlash (h : s.Keeps t) (f : Flash) : s.Keeps { t with flash := f } := h.trans (.of_eq rfl rfl rfl rfl rfl)

theorem takeFree (h : s.Keeps t) : s.Keeps t.takeFree.2 := h.trans (.of_eq rfl rfl rfl rfl rfl)

theorem toExport (h : s.Keeps t) (r : ExportRec) : s.Keeps (t.toExport r) :=
  h.trans (.of_eq (by simp) (by simp) (by simp) (by simp) (by simp))

theorem raise (h : s.Keeps t) (k : Nat) (bits : List Nat) : s.Keeps (t.raise k bits) :=
  h.trans ⟨⟨by simp, by simp, fun _ _ hb => by simp [hb]⟩, by simp, by simp⟩

/-- A branch is taken or it is not. -/
theorem ite {c : Prop} [Decidable c] (h : s.Keeps t) (h' : s.Keeps u) : s.Keeps (if c then t else u) := by
  split
  · exact h
  · exact h'

theorem raiseIf (h : s.Keeps t) (c : Bool) (k b : Nat) : s.Keeps (t.raiseIf c k b) := (h.raise k [b]).ite h

theorem foldl {α : Type} {f : State → α → State} (h : s.Keeps t) (hf : ∀ (u : State) (x : α), u.Keeps (f u x))
    (l : List α) : s.Keeps (l.foldl f t) := by
  induction l generalizing t with
  | nil => exact h
  | cons x xs ih => exact ih (h.trans (hf t x))

theorem contained (h : s.Keeps t) (unit inst num : Nat) : s.Keeps (t.contained unit inst num) := by
  have counted : s.Keeps { t with bwf := { t.bwf with contained := satAdd 0xFFFFFFFF t.bwf.contained 1 } } :=
    h.trans (.of_eq rfl rfl rfl rfl rfl)
  unfold State.contained State.containedKey
  refine Keeps.ite (Keeps.ite (counted.raise _ _) (Keeps.raise ?_ _ _)) counted
  exact counted.trans (.of_eq rfl rfl rfl rfl rfl)

end Keeps

/-! ## A Tide's end at the optics -/

theorem keeps_manualBias (s : State) (q : Port) : s.Keeps (s.manualBias q) :=
  .ite ((Keeps.refl s).modPort q _) (.refl s)

theorem keeps_biasEdge (s : State) (q : Port) (errs : List Int) (sweep : Nat) : s.Keeps (s.biasEdge q errs sweep) := by
  have free : s.Keeps s.takeFree.2.takeFree.2.takeFree.2 := (Keeps.refl s).takeFree.takeFree.takeFree
  unfold State.biasEdge
  exact .ite (.ite (.refl s) (keeps_manualBias s q))
    (.ite (.ite (((free.modPort q _).modPort q _).raise _ _) (free.modPort q _)) (.refl s))

theorem keeps_fineEdge (s : State) (q : Port) (err : Option Int) : s.Keeps (s.fineEdge q err) := by
  cases err with
  | none => exact .refl s
  | some e => exact .ite (((Keeps.refl s).modPort q _).modPort _ _) (.refl s)

theorem keeps_setLatency (s : State) (q : Port) (v : Int) : s.Keeps (s.setLatency q v) :=
  ((Keeps.refl s).modPort q _).withFlash _

theorem keeps_latencyEdge (s : State) (q : Port) : s.Keeps (s.latencyEdge q) := by
  have taken : ∀ f, s.Keeps (s.modOpt q f) := fun f => (Keeps.refl s).modPort q _
  unfold State.latencyEdge
  refine .ite (taken _) (.ite ?_ (taken _))
  split
  · exact .ite (((taken _).trans (keeps_setLatency _ q _)).modPort q _) (taken _)
  · exact taken _

theorem keeps_trimEdge (s : State) (q : Port) : s.Keeps (s.trimEdge q) := (Keeps.refl s).modPort q _

/-! ## A Tide's end at the converters and the engines -/

theorem keeps_farReturn (s : State) (q : Port) : s.Keeps (s.farReturn q) := (Keeps.refl s).raiseIf _ _ _

theorem keeps_rxEdge (s : State) (q : Port) (m : RxMeas) : s.Keeps (s.rxEdge q m) := by
  have counted : ∀ f bits, s.Keeps ((s.modRx q f).raise (stRx q) bits) := fun f bits =>
    ((Keeps.refl s).modPort q _).raise _ _
  have toned : ∀ f bits (g : State → Nat → Output) (l : List Nat),
      s.Keeps (l.foldl (fun t k => t.emit (g t k)) ((s.modRx q f).raise (stRx q) bits)) := fun f bits g l =>
    (counted f bits).foldl (fun u _ => (Keeps.refl u).emit _) l
  unfold State.rxEdge
  exact .ite ((Keeps.ite (toned _ _ _ _) (counted _ _)).contained _ _ _) (.ite (toned _ _ _ _) (counted _ _))

theorem keeps_kilnAdcEdge (s : State) (q : Port) (m : RxMeas) : s.Keeps (s.kilnAdcEdge q m) := by
  have counted : ∀ f bits, s.Keeps ((s.modRx q f).raise (stKAdc q) bits) := fun f bits =>
    ((Keeps.refl s).modPort q _).raise _ _
  unfold State.kilnAdcEdge
  exact .ite ((counted _ _).contained _ _ _) (counted _ _)

theorem keeps_deliver (s : State) (q : Port) (cel : Bool) (ring type : Nat) (exp : Bool) (kind time ell lt ch : Nat)
    (bytes : List Byte) : s.Keeps (s.deliver q cel ring type exp kind time ell lt ch bytes) := by
  have stored : s.Keeps (if cel then s.toRing q ⟨ring, type, time, ell, bytes, lt, ch⟩ else s) :=
    .ite ((Keeps.refl s).modPort q _) (.refl s)
  exact .ite (stored.toExport _) stored

theorem keeps_anchorRecord (s : State) (q : Port) : s.Keeps (s.anchorRecord q) := by
  unfold State.anchorRecord
  dsimp only
  split
  · exact .refl s
  · exact .ite (.refl s) (((Keeps.refl s).modPort q _).trans (keeps_deliver ..))

theorem keeps_swashEdge (s : State) (q : Port) : s.Keeps (s.swashEdge q) := by
  have cleared : ∀ f, s.Keeps (s.modRx q f) := fun f => (Keeps.refl s).modPort q _
  unfold State.swashEdge
  dsimp only
  refine .ite (Keeps.raiseIf (Keeps.modPort ?_ q _) _ _ _) (cleared _)
  split
  · exact .ite (cleared _) ((cleared _).trans (keeps_anchorRecord _ q))
  · exact cleared _

theorem keeps_pilotLevelEdge (s : State) (q : Port) (l : Nat) : s.Keeps (s.pilotLevelEdge q l) :=
  (Keeps.refl s).modPort q _

theorem keeps_aliasEdge (s : State) (q : Port) : s.Keeps (s.aliasEdge q) :=
  .ite (((Keeps.refl s).modPort q _).raiseIf _ _ _) (.refl s)

/-! ## The end of a Tide -/

theorem keeps_portEnd (s : State) (q : Port) (m : PortMeas) : s.Keeps (s.portEnd q m) := by
  have tx : s.Keeps (if s.txOn q then
      (((s.biasEdge q m.bias m.sweep).fineEdge q m.pilotErr).latencyEdge q).trimEdge q else s) :=
    .ite ((((keeps_biasEdge s q _ _).trans (keeps_fineEdge _ q _)).trans (keeps_latencyEdge _ q)).trans
      (keeps_trimEdge _ q)) (.refl s)
  have rx : ∀ t : State, t.Keeps (if t.rxOn q false then
      (((t.farReturn q).rxEdge q m.rx).swashEdge q).pilotLevelEdge q m.pilotLevel else t) := fun t =>
    .ite ((((keeps_farReturn t q).trans (keeps_rxEdge _ q _)).trans (keeps_swashEdge _ q)).trans
      (keeps_pilotLevelEdge _ q _)) (.refl t)
  have kiln : ∀ t : State, t.Keeps (if t.rxOn q true then (t.kilnAdcEdge q m.rx).aliasEdge q else t) := fun t =>
    .ite ((keeps_kilnAdcEdge t q _).trans (keeps_aliasEdge _ q)) (.refl t)
  exact (tx.trans (rx _)).trans (kiln _)

theorem keeps_chargeCore (s : State) (c t : Nat) : s.Keeps (s.chargeCore c t) := by
  unfold State.chargeCore
  dsimp only
  split
  · exact .ite (((Keeps.refl s).withBrew _).withBrew _) (.refl s)
  · exact .refl s

theorem periodNs_eq_of_od_power {s t : State} (od : t.od = s.od) (power : t.power = s.power) :
    t.periodNs = s.periodNs := by
  simp only [State.periodNs, State.nat, State.obj, State.nodeHigh, od, power]

/-- Where a Tide ends, its grid changes only in what tells of overruns and of a Tide that ran (R46). -/
theorem tideEnd_keeps (s : State) (t : Nat) (ma mb : PortMeas) :
    (s.tideEnd t ma mb).time = s.time ∧ (s.tideEnd t ma mb).periodNs = s.periodNs ∧
      (s.tideEnd t ma mb).tide.slipCount = s.tide.slipCount := by
  have ended : s.Keeps ((s.portEnd .a ma).portEnd .b mb).hkEdge :=
    ((keeps_portEnd s .a ma).trans (keeps_portEnd _ .b mb)).modHk _
  unfold State.tideEnd
  generalize ((s.portEnd .a ma).portEnd .b mb).hkEdge = u at ended
  have charged : u.stagesEnd.Keeps ((upTo 16).foldl (fun s c => s.chargeCore c t) u.stagesEnd) :=
    (Keeps.refl _).foldl (fun v c => keeps_chargeCore v c t) _
  have slips : u.tide.slipCount = s.tide.slipCount := by rw [ended.tide]
  refine ⟨?_, periodNs_eq_of_od_power ?_ ?_, ?_⟩ <;> dsimp only
  · exact charged.time.trans ended.time
  · exact charged.od.trans ended.od
  · exact charged.power.trans ended.power
  · exact (congrArg Tide.slipCount charged.tide).trans slips

/-! ## Frames of this node -/

theorem keeps_emitFrame (s : State) (q : LinkPort) (f : Frame) : s.Keeps (s.emitFrame q f) :=
  .of_eq (by simp) (by simp) (by simp) (by simp) (by simp)

theorem keeps_police (s : State) (q : LinkPort) (f : Frame) : s.Keeps (s.police q f).2 := by
  unfold State.police
  split
  · dsimp only
    split
    · exact ((Keeps.refl s).modChain _).raise _ _
    · dsimp only
      exact (Keeps.refl s).modEgr q _
  · exact .refl s

theorem keeps_egress (s : State) (q : LinkPort) (f : Frame) : s.Keeps (s.egress q f) :=
  .ite ((keeps_police s q f).trans (keeps_emitFrame _ q f)) (keeps_police s q f)

theorem keeps_sendSide (s : State) (d : Side) (f : Frame) : s.Keeps (s.sendSide d f) := by
  unfold State.sendSide
  split
  · exact keeps_egress s _ _
  · exact .refl s

theorem keeps_sendPort (s : State) (q : LinkPort) (f : Frame) : s.Keeps (s.sendPort q f) := by
  cases q with
  | w => exact keeps_sendSide s .w f
  | e => exact keeps_sendSide s .e f
  | lan => exact .ite (keeps_egress s .lan f) (.refl s)

theorem keeps_originate (s : State) (cls type dst : Nat) (fields : List Nat) (payload : List Byte) :
    s.Keeps (s.originate cls type dst fields payload) := by
  unfold State.originate
  exact .ite (((Keeps.refl s).modChain _).foldl (fun u q => keeps_sendPort u q _) _) (.refl s)

/-! ## Programs -/

theorem keeps_markOutputs (s : State) (c : Nat) (poison : Bool) : s.Keeps (s.markOutputs c poison) := by
  unfold State.markOutputs
  split
  · exact (Keeps.refl s).withBrew _
  · exact .refl s

theorem keeps_memStart (s : State) (p : Nat) : s.Keeps (s.memStart p) :=
  ((Keeps.refl s).write _ _).foldl (fun u _ => (Keeps.refl u).write _ _) _

theorem keeps_startCores (s : State) (p : Nat) (img : List Byte) (cs : List Nat) : s.Keeps (s.startCores p img cs) :=
  (Keeps.refl s).foldl (fun u _ => (Keeps.refl u).withBrew _) cs

theorem keeps_startProgram (s : State) (p : Nat) : s.Keeps (s.startProgram p) := by
  unfold State.startProgram
  dsimp only
  split
  · exact .ite (((((Keeps.refl s).withBrew _).trans (keeps_memStart _ p)).withBrew _).trans (keeps_startCores _ p _ _))
      (.refl s)
  · exact .refl s

theorem keeps_stopProgram (s : State) (p : Nat) : s.Keeps (s.stopProgram p) := by
  have halted : ∀ (u : State) (c : Nat) (f : Core → Core),
      u.Keeps (if (u.core c).running then (u.markOutputs c false).modCore c f else u) := fun u c f =>
    .ite ((keeps_markOutputs u c false).withBrew _) (.refl u)
  exact .ite (((Keeps.refl s).foldl (fun u c => halted u c _) _).withBrew _) (.refl s)

theorem keeps_programEdge (s : State) : s.Keeps s.programEdge := by
  have dispatched : ∀ (u : State) (cs : List Nat) (f : State → Nat → Core → Core),
      u.Keeps (cs.foldl (fun s c => s.modCore c (f s c)) u) := fun u cs f =>
    (Keeps.refl u).foldl (fun v _ => (Keeps.refl v).withBrew _) cs
  unfold State.programEdge
  exact .ite (((Keeps.refl s).withBrew _).foldl (fun u p => .ite (dispatched u _ _) (.refl u)) _)
    ((Keeps.refl s).withBrew _)

/-! ## The start of a Tide -/

theorem keeps_tideRun (s : State) (q : Port) : s.Keeps (s.tideRun q) := by
  unfold State.tideRun
  split
  · exact .ite (.refl s) ((Keeps.refl s).modPort q _)
  · exact .refl s

theorem keeps_scanList (s : State) : s.Keeps s.scanList := by
  have synced : ∀ u : State, u.Keeps u.syncScan := fun u => by
    unfold State.syncScan
    refine Keeps.setRegBit (Keeps.foldl ?_ (fun v i => ?_) _) _ _ _ _
    · exact (Keeps.refl u).setReg _ _ _
    · exact (Keeps.refl v).setReg _ _ _
  exact .ite ((Keeps.refl s).modHk _) (((Keeps.refl s).modHk _).trans (synced _))

/-- The latch of Next Tide values changes the objects in force, and no more of the grid (R380). -/
theorem keepsGrid_latchNextTide (s : State) : s.KeepsGrid s.latchNextTide := by
  have scanned : ∀ (u : State) (c : Bool), u.Keeps (if c then u.scanList else u) := fun u c =>
    (keeps_scanList u).ite (.refl u)
  unfold State.latchNextTide
  dsimp only
  refine KeepsGrid.trans ?_ (Keeps.foldl (.refl _) (fun v p => ?_) _).toKeepsGrid
  · refine KeepsGrid.trans ?_ (scanned _ _).toKeepsGrid
    exact .of_eq rfl rfl rfl
  · split
    · exact .ite (keeps_startProgram v p) (keeps_stopProgram v p)
    · exact .refl v

theorem keeps_chainEdge (s : State) : s.Keeps s.chainEdge := by
  have side : ∀ (u : State) (d : Side) (f : Egress → Egress) (g : Link → Link) (c : Bool) (k : List Nat),
      u.Keeps (if c then (((u.modEgr (sidePort d) f).modLink d g).originate 1 3 0 k []).raise stChn [2]
        else u.modEgr (sidePort d) f) := fun u d f g c k =>
    .ite (((((Keeps.refl u).modEgr _ _).modLink _ _).trans (keeps_originate ..)).raise _ _) ((Keeps.refl u).modEgr _ _)
  unfold State.chainEdge
  exact (((side s .w _ _ _ _).trans (side _ .e _ _ _ _)).modEgr _ _).modChain _

theorem keeps_quietEdge (s : State) : s.Keeps s.quietEdge := .ite ((Keeps.refl s).modChain _) (.refl s)

theorem keeps_heartbeat (s : State) : s.Keeps s.heartbeat := by
  unfold State.heartbeat
  exact .ite (((Keeps.ite ((Keeps.refl s).modChain _) (.refl s)).modChain _).trans (keeps_originate ..)) (.refl s)

theorem keeps_pilotEdge (s : State) (q : Port) : s.Keeps (s.pilotEdge q) := by
  have due : ∀ u : State, u.Keeps (u.pilotDue q) := fun u => by
    unfold State.pilotDue
    exact .ite (.ite ((((Keeps.refl u).modPort q _).modPort q _).emit _) ((Keeps.refl u).modPort q _)) (.refl u)
  exact ((Keeps.refl s).modPort q _).trans (due _)

theorem keeps_pairEdge (s : State) (q : Port) : s.Keeps (s.pairEdge q) := by
  unfold State.pairEdge
  have told : ∀ (dests : List Nat) (f : State → List Nat) (g : Pair → Pair),
      s.Keeps ((dests.foldl (fun s n => s.originate 1 0x21 n (f s) []) s).modPair q g) := fun dests f g =>
    ((Keeps.refl s).foldl (fun u n => keeps_originate u ..) dests).modPort q _
  exact .ite ((told _ _ _).modChain _) (told _ _ _)

theorem keeps_trkDropped (s : State) (q : Port) : s.Keeps (s.trkDropped q) := by
  unfold State.trkDropped
  exact (Keeps.refl s).modPort q _

/-- The state once Tide `n` has its edge at `e`, before anything acts on it (R24). -/
def atEdge (s : State) (n e res : Nat) : State :=
  let s := s.advance e
  { s with
    tide := { s.tide with num := n, edge := e, residual := res, running := true, edges := s.tide.edges + 1 }
    bwf := { s.bwf with sent := [] } }

theorem atEdge_tide (s : State) (n e res : Nat) : (s.atEdge n e res).tide =
    { s.tide with num := n, edge := e, residual := res, running := true, edges := s.tide.edges + 1 } := rfl

theorem atEdge_stat (s : State) (n e res k : Nat) : (s.atEdge n e res).stat k = s.stat k := rfl

theorem atEdge_time (s : State) (n e res : Nat) : (s.atEdge n e res).time = (s.advance e).time := rfl

/-- The state in which TIDE_STAT tells of the edge: the runs of launches and the latched values are the new Tide's. -/
def tideLatched (s : State) (n res : Nat) : State :=
  (bothPorts.foldl State.tideRun (s.atEdge n (n * s.periodNs + res) res)).latchNextTide

theorem keepsGrid_tideLatched (s : State) (n res : Nat) :
    (s.atEdge n (n * s.periodNs + res) res).KeepsGrid (s.tideLatched n res) :=
  ((Keeps.refl _).foldl keeps_tideRun _).toKeepsGrid.trans (keepsGrid_latchNextTide _)

/-- What acts at an edge after TIDE_STAT is set: links, manager, pilots, pairs, tracking and programs. -/
theorem keeps_tideBegin_of_latched (s : State) (n res : Nat) :
    ((s.tideLatched n res).raise stTide [0]).Keeps (s.tideBegin n res) := by
  have ports : ∀ (u : State) (q : Port), u.Keeps (
      if (((u.pilotEdge q).pairEdge q).port q).restartNext then
        (((u.pilotEdge q).pairEdge q).restartAll q .full).modPort q (fun ps => { ps with restartNext := false })
      else (u.pilotEdge q).pairEdge q) := fun u q => by
    have paired : u.Keeps ((u.pilotEdge q).pairEdge q) := (keeps_pilotEdge u q).trans (keeps_pairEdge _ q)
    exact .ite ((paired.modPort q _).modPort q _) paired
  have chained : ∀ u : State, u.Keeps u.chainEdge.quietEdge.heartbeat := fun u =>
    ((keeps_chainEdge u).trans (keeps_quietEdge _)).trans (keeps_heartbeat _)
  unfold State.tideBegin State.tideLatched State.atEdge
  refine Keeps.trans (Keeps.foldl ?_ keeps_trkDropped _) (keeps_programEdge _)
  refine Keeps.foldl ?_ ports _
  exact chained _

/-- R24: what a Tide that begins leaves on the grid, in local time and in the status bits. -/
theorem keepsGrid_tideBegin (s : State) (n res : Nat) :
    (s.atEdge n (n * s.periodNs + res) res).KeepsGrid (s.tideBegin n res) :=
  ((keepsGrid_tideLatched s n res).trans ((Keeps.refl _).raise stTide [0]).toKeepsGrid).trans
    (keeps_tideBegin_of_latched s n res).toKeepsGrid

/-- The edge sets bit 0 of TIDE_STAT, whatever acts at it. -/
theorem tideBegin_sets_edge_bit (s : State) (n res : Nat) : ((s.tideBegin n res).stat stTide).has 0 = true :=
  (keeps_tideBegin_of_latched s n res).bits stTide 0 (by simp)

/-- R24: the Tide that begins has its number, its edge at number times period plus residual, and its residual, and
TIDE_STAT tells of it. -/
theorem tideBegin_begun {s : State} {p : Nat} (hperiod : s.periodNs = p) (n res : Nat) :
    (s.tideBegin n res).tide.num = n ∧ (s.tideBegin n res).tide.edge = (s.tideBegin n res).tide.num * p + res ∧
      (s.tideBegin n res).tide.residual = res ∧ (s.tideBegin n res).tide.running = true ∧
      ((s.tideBegin n res).stat stTide).has 0 = true := by
  refine ⟨?_, ?_, ?_, ?_, tideBegin_sets_edge_bit s n res⟩ <;> rw [(keepsGrid_tideBegin s n res).tide, atEdge_tide]
  rw [hperiod]

theorem tideBegin_keeps_bit {s : State} {k b : Nat} (h : (s.stat k).has b = true) (n res : Nat) :
    ((s.tideBegin n res).stat k).has b = true :=
  (keepsGrid_tideBegin s n res).bits k b (by rwa [atEdge_stat])

theorem tideBegin_slipCount (s : State) (n res : Nat) : (s.tideBegin n res).tide.slipCount = s.tide.slipCount := by
  rw [(keepsGrid_tideBegin s n res).tide, atEdge_tide]

theorem advance_theta (s : State) (t : Nat) : (s.advance t).time.theta = s.time.theta := by
  unfold State.advance
  dsimp only
  split <;> rfl

theorem advance_periodNs (s : State) (t : Nat) : (s.advance t).periodNs = s.periodNs :=
  periodNs_eq_of_od_power (advance_od _ _) (advance_power _ _)

/-- Local time moves to a dated command's time, never back (log 14). -/
theorem advance_now (s : State) (t : Nat) : (s.advance t).time.now = max s.time.now t := by
  unfold State.advance
  dsimp only
  split
  · omega
  · dsimp only
    omega

theorem tideBegin_theta (s : State) (n res : Nat) : (s.tideBegin n res).time.theta = s.time.theta := by
  rw [(keepsGrid_tideBegin s n res).time, atEdge_time, advance_theta]

/-! ## The slip of a Tide (R27) -/

/-- Local time stepped by what the servo has measured. -/
def timeSlipped (s : State) : State :=
  (s.stepTime s.time.theta).modTime (fun t => { t with theta := 0, offset := none, lockRun := 0 })

theorem timeSlipped_periodNs (s : State) : s.timeSlipped.periodNs = s.periodNs := periodNs_eq_of_od_power rfl rfl

theorem timeSlipped_tide (s : State) : s.timeSlipped.tide = s.tide := rfl

theorem timeSlipped_now (s : State) : s.timeSlipped.time.now = (s.time.now - s.time.theta).toNat := rfl

theorem timeSlipped_theta (s : State) : s.timeSlipped.time.theta = 0 := rfl

/-- The slip's markers, and the restart of the points and clear of the histories, at the ports that have a plan. -/
def slipPorts (s : State) (n k : Nat) : State :=
  let ports := bothPorts.filter (fun q => (s.port q).hasPlan)
  ports.foldl (fun s q => (s.restartAll q .soft).clearHistories q)
    (ports.foldl (fun s q => (upTo (max 1 (k - n))).foldl (fun s i => s.slipMarker q (n + i)) s) s)

theorem keeps_slipPorts (s : State) (n k : Nat) : s.Keeps (s.slipPorts n k) := by
  have marked : ∀ (u : State) (q : Port) (m : Nat), u.Keeps (u.slipMarker q m) := fun u q m =>
    ((Keeps.refl u).modPort q _).toExport _
  exact ((Keeps.refl s).foldl (fun u q => (Keeps.refl u).foldl (fun v i => marked v q (n + i)) _) _).foldl
    (fun u q => ((Keeps.refl u).modPort q _).modPort q _) _

/-- A slip counted and shown. -/
def slipCounted (s : State) : State :=
  ({ s with tide := { s.tide with slipCount := satAdd 0xFFFFFFFF s.tide.slipCount 1 } } : State).raise stTide [1]

theorem slipCounted_slipCount (s : State) : s.slipCounted.tide.slipCount = satAdd 0xFFFFFFFF s.tide.slipCount 1 :=
  congrArg Tide.slipCount (raise_tide _ _ _)

theorem slipCounted_time (s : State) : s.slipCounted.time = s.time := raise_time _ _ _

theorem slipCounted_periodNs (s : State) : s.slipCounted.periodNs = s.periodNs :=
  periodNs_eq_of_od_power (raise_od _ _ _) (raise_power _ _ _)

theorem slipCounted_has (s : State) : (s.slipCounted.stat stTide).has 1 = true := by
  simp [slipCounted]

/-- The end of the Tide before Tide `n`, at whose edge local time is stepped. -/
def slipEdge (s : State) (n : Nat) (ma mb : PortMeas) : State :=
  let s := s.tideEnd (n * s.periodNs) ma mb
  (s.advance (n * s.periodNs)).timeSlipped

theorem slipEdge_periodNs (s : State) (n : Nat) (ma mb : PortMeas) : (s.slipEdge n ma mb).periodNs = s.periodNs := by
  obtain ⟨-, hperiod, -⟩ := tideEnd_keeps s (n * s.periodNs) ma mb
  rw [slipEdge, timeSlipped_periodNs, advance_periodNs, hperiod]

theorem slipEdge_slipCount (s : State) (n : Nat) (ma mb : PortMeas) :
    (s.slipEdge n ma mb).tide.slipCount = s.tide.slipCount := by
  obtain ⟨-, -, hslips⟩ := tideEnd_keeps s (n * s.periodNs) ma mb
  rw [slipEdge, timeSlipped_tide, advance_tide, hslips]

theorem slipEdge_theta (s : State) (n : Nat) (ma mb : PortMeas) : (s.slipEdge n ma mb).time.theta = 0 := by
  rw [slipEdge, timeSlipped_theta]

/-- R27: the corrected local time at which Tide `n`, reached or passed, would have begun. -/
theorem slipEdge_now (s : State) (n : Nat) (ma mb : PortMeas) :
    (s.slipEdge n ma mb).time.now = ((max s.time.now (n * s.periodNs) : Nat) - s.time.theta).toNat := by
  obtain ⟨htime, hperiod, -⟩ := tideEnd_keeps s (n * s.periodNs) ma mb
  rw [slipEdge, timeSlipped_now, advance_now, advance_theta, hperiod, htime]

/-- The first Tide of the corrected grid. -/
def slipTide (s : State) (ma mb : PortMeas) : Nat :=
  let s := s.slipEdge (s.tide.num + 1) ma mb
  ceilDiv s.time.now (max 1 s.periodNs)

theorem slipTide_eq (s : State) (ma mb : PortMeas) : s.slipTide ma mb =
    ceilDiv ((max s.time.now ((s.tide.num + 1) * s.periodNs) : Nat) - s.time.theta).toNat (max 1 s.periodNs) := by
  rw [slipTide, slipEdge_periodNs, slipEdge_now]

end State

/-! ## The commands -/

/-- R24: the edge of a running Tide, where no reset is asked for. -/
theorem exec_tideEdge {s : State} {res : Nat} {ma mb : PortMeas} (hup : s.up = true) (hrun : s.tide.running = true)
    (hreset : s.power.resetAsked = false) :
    exec (.tideEdge res ma mb) s = .next ((s.tideEnd ((s.tide.num + 1) % 2 ^ 48 * s.periodNs + res % 8) ma mb).tideBegin
      ((s.tide.num + 1) % 2 ^ 48) (res % 8)) := by
  show execTideEdge res ma mb s = _
  unfold execTideEdge
  rw [if_pos ⟨hup, hrun⟩, if_neg (by simp [hreset])]

/-- R502: a reset that is asked for comes at the edge. -/
theorem exec_tideEdge_of_resetAsked {s : State} {res : Nat} {ma mb : PortMeas} (hup : s.up = true)
    (hrun : s.tide.running = true) (hreset : s.power.resetAsked = true) :
    exec (.tideEdge res ma mb) s = .next (s.fullReset 5) := by
  show execTideEdge res ma mb s = _
  unfold execTideEdge
  rw [if_pos ⟨hup, hrun⟩, if_pos hreset]

/-- R26: the first Tide starts. -/
theorem exec_firstTideStart {s : State} {res : Nat} (hup : s.up = true) (hrun : s.tide.running = false)
    (htime : s.role = 0 ∨ s.time.state = 2) :
    exec (.firstTideStart res) s = .next ((s.modTime (fun t => { t with tideRan := true })).tideBegin
      (ceilDiv s.time.now (max 1 s.periodNs)) (res % 8)) := by
  show execFirstTideStart res s = _
  unfold execFirstTideStart
  rw [if_pos ⟨hup, by simp [hrun], htime⟩]
  rfl

/-- R27: a slip, where no reset is asked for. -/
theorem exec_tideSlip {s : State} {res : Nat} {ma mb : PortMeas} (hup : s.up = true) (hrun : s.tide.running = true)
    (hslip : s.beyondSlip s.time.theta = true) (hreset : s.power.resetAsked = false) :
    exec (.tideSlip res ma mb) s = .next (((s.slipEdge (s.tide.num + 1) ma mb).slipPorts (s.tide.num + 1)
      (s.slipTide ma mb)).slipCounted.tideBegin (s.slipTide ma mb) (res % 8)) := by
  show execTideSlip res ma mb s = _
  unfold execTideSlip
  rw [if_pos ⟨hup, hrun, hslip⟩, if_neg (by simp [hreset])]
  simp only [State.slipTide, State.slipEdge, State.slipPorts, State.slipCounted, State.timeSlipped]

/-- R502: a reset that is asked for comes at the slip's edge. -/
theorem exec_tideSlip_of_resetAsked {s : State} {res : Nat} {ma mb : PortMeas} (hup : s.up = true)
    (hrun : s.tide.running = true) (hslip : s.beyondSlip s.time.theta = true) (hreset : s.power.resetAsked = true) :
    exec (.tideSlip res ma mb) s = .next (s.fullReset 5) := by
  show execTideSlip res ma mb s = _
  unfold execTideSlip
  rw [if_pos ⟨hup, hrun, hslip⟩, if_pos hreset]

/-- R500: a full reset leaves its cause, holds the block, and puts the Tide and the dictionary at their reset values. -/
theorem fullReset_spec (s : State) : (s.fullReset 5).aon.cause = 5 ∧ (s.fullReset 5).power.phase = .held ∧
    (s.fullReset 5).tide = {} ∧ (s.fullReset 5).od = {} :=
  ⟨rfl, rfl, rfl, rfl⟩

/-- Settles O2: each command that begins a Tide comes to `tideBegin`, which sets the grid, and what acts after that keeps
it. -/
theorem tideCommands : Obligations.TideCommands := by
  unfold Obligations.TideCommands
  refine ⟨?edge, ?edgeReset, ?first, ?slip, ?slipReset⟩
  case edge =>
    intro res ma mb s hup hrun hreset
    obtain ⟨-, hperiod, -⟩ := State.tideEnd_keeps s ((s.tide.num + 1) % 2 ^ 48 * s.periodNs + res % 8) ma mb
    refine ⟨_, exec_tideEdge hup hrun hreset, ?_⟩
    exact State.tideBegin_begun hperiod _ _
  case edgeReset =>
    intro res ma mb s hup hrun hreset
    exact ⟨_, exec_tideEdge_of_resetAsked hup hrun hreset, fullReset_spec s⟩
  case first =>
    intro res s hup hrun htime
    refine ⟨_, exec_firstTideStart hup hrun htime, ?_⟩
    have hperiod : (s.modTime (fun t => { t with tideRan := true })).periodNs = s.periodNs :=
      State.periodNs_eq_of_od_power rfl rfl
    exact State.tideBegin_begun hperiod _ _
  case slip =>
    intro res ma mb s hup hrun hslip hreset
    refine ⟨_, exec_tideSlip hup hrun hslip hreset, ?_⟩
    rw [← State.slipTide_eq s ma mb]
    generalize s.slipTide ma mb = k
    have hports := State.keeps_slipPorts (s.slipEdge (s.tide.num + 1) ma mb) (s.tide.num + 1) k
    generalize (s.slipEdge (s.tide.num + 1) ma mb).slipPorts (s.tide.num + 1) k = u at hports
    have hperiod : u.slipCounted.periodNs = s.periodNs := by
      rw [State.slipCounted_periodNs, State.periodNs_eq_of_od_power hports.od hports.power, State.slipEdge_periodNs]
    obtain ⟨hnum, hedge, hres, hruns, hshown⟩ := State.tideBegin_begun hperiod k (res % 8)
    refine ⟨hnum, hedge, hres, hruns, hshown, ?_, ?_, ?_⟩
    · rw [State.tideBegin_slipCount, State.slipCounted_slipCount, hports.tide, State.slipEdge_slipCount]
    · exact State.tideBegin_keeps_bit (State.slipCounted_has u) _ _
    · rw [State.tideBegin_theta, State.slipCounted_time, hports.time, State.slipEdge_theta]
  case slipReset =>
    intro res ma mb s hup hrun hslip hreset
    exact ⟨_, exec_tideSlip_of_resetAsked hup hrun hslip hreset, fullReset_spec s⟩

end Sys2Proof.Machine
end

section
/-! Two statements that the model does not meet: a launch that ends a tone window, and a write to Kiln SRAM that an
accumulation occupies. -/
namespace Sys2Proof.Machine
open Sys2Proof

/-- What the next state of an outcome shows; none where the outcome is no next state. -/
def shown {α : Type} (f : State → α) : Host.Outcome State Fault Refusal → Option α
  | .next t => some (f t)
  | .fault _ => none
  | .refused _ => none

theorem shown_eq_of_next {α : Type} {f : State → α} {o : Host.Outcome State Fault Refusal} {t : State} {x : α}
    (ho : o = .next t) (hx : shown f o = some x) : f t = x := by
  subst ho
  exact Option.some.inj hx

/-! ## A launch that ends a tone window (R101) -/

/-- The slot 0 launch at the edge of Tide 1000, whose rotation is even. -/
def slotZeroLaunch : Launch :=
  { tide := 1000, nth := 0, j := 0, slot := 0, ell := 32000, time := 4000000000, epoch := 0, dark := false
    tuning := false, tone := false, late := false, missing := false, biasUnlock := false, calStale := false
    timeFree := false, incomplete := false, cfg := {} }

/-- Port A is Live, its background calibration gathers tone windows, and its first launch of the Tide is in flight. -/
def gatheringTones : State :=
  { State.reset with
    power := { phase := .running, straps := 0xC00 }
    tide := { running := true, num := 1000, edge := 4000000000 }
    pa := { hasPlan := true, opt := { state := 6 }, rx := { bgOn := true, fgPass := true }
            flight := [slotZeroLaunch] } }

/-- The next launch of the slot sends the calibration tone of the window that it ends, and then itself. -/
theorem gatheringTones_launch_out_length {t : State} (ht : exec (.launch .a 8) gatheringTones = .next t) :
    t.out.length = 2 :=
  shown_eq_of_next (f := fun t => t.out.length) ht (by decide +kernel)

/-- Refutes O3: a launch of `gatheringTones` puts two outputs, the tone of R101 and the launch, where the first clause
allows the launch alone. -/
theorem not_launchPlan : ¬ Obligations.LaunchPlan := by
  unfold Obligations.LaunchPlan
  rintro ⟨hlaunch, -⟩
  obtain ⟨t, ht, -, -, l, d, -, -, -, -, hout⟩ :=
    hlaunch .a 8 gatheringTones (by decide +kernel) (by decide +kernel) (by decide +kernel) (by decide +kernel)
      (by decide +kernel) (by decide +kernel)
  have htwo : t.out.length = 2 := gatheringTones_launch_out_length ht
  have hone : t.out.length = 1 := by rw [hout]; rfl
  omega

/-! ## A write to a word that an accumulation holds (R416) -/

/-- IND_DATA names word 0 of Kiln SRAM, which holds the first cell of port A's accumulation. -/
def holdingAccumulation : State :=
  { State.reset with
    power := { phase := .running, domains := 0xFFF }
    regs := [(regKey 0 0x40, 3)]
    pa := { kiln := { acc := some { cfg := { bins := 1 }, cells := [[1]] } } } }

/-- The word written goes to the accumulation's cell, and the memory stays empty. -/
theorem holdingAccumulation_write {t : State} (ht : exec (.indDataWrite 1 7) holdingAccumulation = .next t) :
    (t.mem, (t.port .a).kiln.acc.map KilnAcc.cells) = ([], some [[7]]) :=
  shown_eq_of_next (f := fun t => (t.mem, (t.port .a).kiln.acc.map KilnAcc.cells)) ht (by decide +kernel)

/-- Refutes O36: a permitted write of IND_DATA to a word that an accumulation holds changes the accumulation and not the
memory, where the statement has the memory take every word. -/
theorem not_registerAccesses : ¬ Obligations.RegisterAccesses := by
  unfold Obligations.RegisterAccesses
  rintro ⟨-, -, -, -, -, -, -, -, -, -, -, hwrite, -⟩
  obtain ⟨t, ht, hmem, -⟩ :=
    hwrite 1 7 holdingAccumulation (by decide +kernel) (by decide) (by decide +kernel) (by decide +kernel)
      (by decide +kernel) (by decide +kernel) (by decide)
  obtain ⟨hnone, -⟩ := Prod.mk.inj (holdingAccumulation_write ht)
  have hword : memWrite holdingAccumulation.mem (kilnBase + 4 * holdingAccumulation.indAddr) (leBytes 4 7) ≠ [] := by
    decide +kernel
  exact hword (hmem.symm.trans hnone)

end Sys2Proof.Machine
end

section
/-! Calibration of the receive converters (R100–R104): what a run of the Rayleigh and of the Kiln converters does to their
part of the port, said once for both. -/
namespace Sys2Proof.Machine
open Sys2Proof

/-! ## The Rayleigh and the Kiln converters of a port alike -/

namespace Rx

/-- A foreground calibration runs. -/
def running (r : Rx) : Bool → Bool
  | true => r.kfgRunning
  | false => r.fgRunning

/-- A foreground calibration has passed. -/
def passed (r : Rx) : Bool → Bool
  | true => r.kfgPass
  | false => r.fgPass

/-- Attempts of the foreground calibration that have failed. -/
def tries (r : Rx) : Bool → Nat
  | true => r.kfgTries
  | false => r.fgTries

/-- The corrections of the converters. -/
def item (r : Rx) : Bool → CalItem
  | true => r.kCal
  | false => r.cal

/-- R100: a foreground calibration starts. -/
def foregroundStarted (kiln : Bool) (r : Rx) : Rx :=
  if kiln then { r with kfgRunning := true, kfgTries := 0, kfgPass := false, kfgFail := false }
  else { r with fgRunning := true, fgTries := 0, fgPass := false }

/-- R100: a foreground calibration ends with a pass. -/
def foregroundPassed (kiln : Bool) (res : List Int) (r : Rx) : Rx :=
  if kiln then { r with kfgRunning := false, kfgPass := true, kCal := r.kCal.foreground res }
  else { r with fgRunning := false, fgPass := true, cal := r.cal.foreground res }

/-- R100: the foreground calibration fails for the `n`-th time, and runs on while that is below 2. -/
def foregroundFailed (kiln : Bool) (n : Nat) (r : Rx) : Rx :=
  if kiln then { r with kfgTries := n, kfgRunning := n < 2, kfgFail := 2 ≤ n }
  else { r with fgTries := n, fgRunning := n < 2 }

/-- The corrections `c` take the place of the converters' own. -/
def setItem (kiln : Bool) (c : CalItem) (r : Rx) : Rx := if kiln then { r with kCal := c } else { r with cal := c }

/-- R100: the corrections of converters whose foreground calibration has failed twice are marked so. -/
def itemFailed (kiln : Bool) (r : Rx) : Rx := r.setItem kiln { r.item kiln with state := 2 }

/-- R103, R104: a background run has ended with the corrections `c`, and the tone windows of the next are counted anew. -/
def backgroundRun (kiln : Bool) (c : CalItem) (r : Rx) : Rx :=
  if kiln then { r with kCal := c, kWindows := 0 } else { r with cal := c, windows := List.replicate 8 0 }

variable (r : Rx) (kiln : Bool)

theorem foregroundStarted_spec : (r.foregroundStarted kiln).running kiln = true ∧
    (r.foregroundStarted kiln).passed kiln = false ∧ (r.foregroundStarted kiln).tries kiln = 0 := by
  cases kiln <;> exact ⟨rfl, rfl, rfl⟩

theorem foregroundPassed_spec (res : List Int) : (r.foregroundPassed kiln res).running kiln = false ∧
    (r.foregroundPassed kiln res).passed kiln = true ∧
    (r.foregroundPassed kiln res).item kiln = (r.item kiln).foreground res := by
  cases kiln <;> exact ⟨rfl, rfl, rfl⟩

theorem foregroundFailed_spec (n : Nat) : (r.foregroundFailed kiln n).running kiln = decide (n < 2) ∧
    (r.foregroundFailed kiln n).passed kiln = r.passed kiln ∧ (r.foregroundFailed kiln n).tries kiln = n := by
  cases kiln <;> exact ⟨rfl, rfl, rfl⟩

theorem itemFailed_spec : (r.itemFailed kiln).running kiln = r.running kiln ∧
    (r.itemFailed kiln).passed kiln = r.passed kiln ∧ ((r.itemFailed kiln).item kiln).state = 2 := by
  cases kiln <;> exact ⟨rfl, rfl, rfl⟩

@[simp] theorem item_backgroundRun (c : CalItem) : (r.backgroundRun kiln c).item kiln = c := by
  cases kiln <;> rfl

@[simp] theorem item_setItem (c : CalItem) : (r.setItem kiln c).item kiln = c := by
  cases kiln <;> rfl

/-- R103: 1,024 tone windows of every slot channel are enough for a run of the Rayleigh converters. -/
theorem windowsDone_rayleigh {r : Rx} (h : ∀ k : Nat, k < 8 → 1024 ≤ r.windows.getD k 0) :
    r.windowsDone false = true := by
  simpa [windowsDone, upTo] using h

/-- R104: 1,024 tone windows are enough for a run of the Kiln converters. -/
theorem windowsDone_kiln {r : Rx} (h : 1024 ≤ r.kWindows) : r.windowsDone true = true := by
  simpa [windowsDone] using h

end Rx

/-- The window of the block that the converters belong to. -/
def convWin (q : Port) : Bool → Nat
  | true => winKiln q
  | false => winRx q

/-- The status register that holds CAL_FAIL of the converters. -/
def convStat (q : Port) : Bool → Nat
  | true => stKAdc q
  | false => stRx q

/-- The bit CAL_FAIL of that register. -/
def calFailBit : Bool → Nat
  | true => 2
  | false => 3

/-! ## Two runs of a pair (R457, R461) -/

/-- R457: a run that agrees with the one before is accepted, their mean the target. -/
theorem CalItem.run_of_agree {c : CalItem} {tol r0 res : List Int} (now : Nat) (hprev : c.prev = some r0)
    (hagree : runsAgree tol r0 res = true) : c.run tol now res =
      ({ c with prev := none, target := runsMean r0 res, state := 1, count := satAdd 0xFFFFFFFF c.count 1, time := now
                tides := 0, tries := 0 }, some true) := by
  simp only [CalItem.run, hprev, hagree, if_true]

/-- R457: a run that does not agree counts a failure. -/
theorem CalItem.run_of_disagree {c : CalItem} {tol r0 res : List Int} (now : Nat) (hprev : c.prev = some r0)
    (hagree : runsAgree tol r0 res = false) : c.run tol now res =
      ({ c with prev := none, fails := satAdd 0xFFFFFFFF c.fails 1, tries := c.tries + 1 }, some false) := by
  simp only [CalItem.run, hprev, hagree, Bool.false_eq_true, if_false]

/-! ## Registers, ports and the fault log -/

namespace State

theorem bitOf_setRegBit (s : State) (w o b : Nat) : bitOf ((s.setRegBit w o b true).reg w o) b = true := by
  have hstored : (s.setRegBit w o b true).reg w o = s.reg w o ||| 2 ^ b := by
    simp only [setRegBit, setReg, reg, lookup_insertKey, if_true, Option.getD_some]
  rw [hstored, bitOf, Nat.testBit_or, Nat.testBit_two_pow_self, Bool.or_true]

theorem reg_of_regs_eq {s t : State} (h : t.regs = s.regs) (w o : Nat) : t.reg w o = s.reg w o := by
  simp only [reg, h]

theorem port_of_eq {s t : State} (ha : t.pa = s.pa) (hb : t.pb = s.pb) (q : Port) : t.port q = s.port q := by
  cases q
  case a => exact ha
  case b => exact hb

@[simp] theorem port_raise (s : State) (k : Nat) (bits : List Nat) (q : Port) : (s.raise k bits).port q = s.port q :=
  port_of_eq (raise_pa _ _ _) (raise_pb _ _ _) q

@[simp] theorem port_raiseIf (s : State) (c : Bool) (k b : Nat) (q : Port) : (s.raiseIf c k b).port q = s.port q :=
  port_of_eq (raiseIf_pa _ _ _ _) (raiseIf_pb _ _ _ _) q

@[simp] theorem port_contained (s : State) (u i n : Nat) (q : Port) : (s.contained u i n).port q = s.port q :=
  port_of_eq (contained_pa _ _ _ _) (contained_pb _ _ _ _) q

@[simp] theorem rx_modRx (s : State) (q : Port) (f : Rx → Rx) : ((s.modRx q f).port q).rx = f (s.port q).rx := by
  cases q <;> rfl

@[simp] theorem rx_tryRamp (s : State) (q : Port) : ((s.tryRamp q).port q).rx = (s.port q).rx := by
  unfold tryRamp
  dsimp only
  split
  · cases q <;> rfl
  · rfl

/-- R104: CAL_STALE of the Rayleigh converters. -/
theorem bitOf_portBits_calStale {s : State} {q : Port} (h : (s.port q).rx.cal.state = 3) :
    bitOf (s.portBits (winRx q) 8) 8 = true := by
  have hbits : s.portBits (winRx q) 8 = bit ((s.port q).rx.cal.state == 3) * 2 ^ 8 := by
    cases q <;> rfl
  rw [hbits, h]
  decide

/-- R512: a contained fault is counted. -/
theorem contained_count (s : State) (u i n : Nat) :
    (s.contained u i n).bwf.contained = satAdd 0xFFFFFFFF s.bwf.contained 1 := by
  unfold contained containedKey
  dsimp only
  split
  · split
    · rw [raise_bwf]
    · rw [raise_bwf]
  · rfl

/-- R512: while BWF_CTRL.ENABLE is 1 and the log has room, a contained fault is logged with its time. -/
theorem contained_log {s : State} (u i n : Nat) (henable : bitOf (s.reg 0x48 0) 0 = true)
    (hroom : s.bwf.log.length < 64) :
    (s.contained u i n).bwf.log = s.bwf.log ++ [(faultKey s.node u 1 i n, s.time.now)] := by
  unfold contained containedKey
  dsimp only
  split
  · rw [if_neg (Nat.not_le.mpr hroom), raise_bwf]
  · contradiction

theorem node_of_eq {s t : State} (od : t.od = s.od) (power : t.power = s.power) : t.node = s.node := by
  simp only [node, nodeHigh, od, power]

end State

/-! ## Foreground calibration (R100) -/

section
variable {s : State} {q : Port} {kiln : Bool} {res : List Int}

/-- What a failed foreground calibration does, the second time as the first (R100). -/
def State.foregroundFailed (s : State) (q : Port) (kiln : Bool) (n : Nat) : State :=
  (s.modRx q (Rx.foregroundFailed kiln n)).raise (convStat q kiln) [calFailBit kiln]

theorem State.rx_foregroundFailed (s : State) (q : Port) (kiln : Bool) (n : Nat) :
    ((s.foregroundFailed q kiln n).port q).rx = (s.port q).rx.foregroundFailed kiln n := by
  rw [State.foregroundFailed, port_raise, rx_modRx]

theorem State.foregroundFailed_calFail (s : State) (q : Port) (kiln : Bool) (n : Nat) :
    ((s.foregroundFailed q kiln n).stat (convStat q kiln)).has (calFailBit kiln) = true := by
  simp [State.foregroundFailed]

@[simp] theorem State.foregroundFailed_bwf (s : State) (q : Port) (kiln : Bool) (n : Nat) :
    (s.foregroundFailed q kiln n).bwf = s.bwf := by
  simp [State.foregroundFailed]

theorem exec_rxForegroundCal (hon : s.rxOn q kiln = true) (hoff : bitOf (s.reg (convWin q kiln) 0) 0 = false) :
    exec (.rxForegroundCal q kiln) s = .next (((if kiln then s.kilnConfig q else s.rxConfig q).setRegBit
      (convWin q kiln) 0 0 true).modRx q (Rx.foregroundStarted kiln)) := by
  show execRxForegroundCal q kiln s = _
  cases kiln
  case false => exact if_pos (by simpa [convWin, hon] using hoff)
  case true => exact if_pos (by simpa [convWin, hon] using hoff)

theorem exec_rxForegroundCalDone (hon : s.rxOn q kiln = true) (hrun : (s.port q).rx.running kiln = true) (pass : Bool) :
    exec (.rxForegroundCalDone q kiln pass res) s =
      if pass then
        .next (if kiln then s.modRx q (Rx.foregroundPassed kiln res)
          else (s.modRx q (Rx.foregroundPassed kiln res)).tryRamp q)
      else if 2 ≤ (s.port q).rx.tries kiln + 1 then
        .next (((s.foregroundFailed q kiln ((s.port q).rx.tries kiln + 1)).modRx q (Rx.itemFailed kiln)).contained
          (convWin q kiln) 0 2)
      else .next (s.foregroundFailed q kiln ((s.port q).rx.tries kiln + 1)) := by
  show execRxForegroundCalDone q kiln pass res s = _
  cases kiln
  case false => exact if_pos (by simpa [hon, Rx.running] using hrun)
  case true => exact if_pos (by simpa [hon, Rx.running] using hrun)

/-- R100, R112: ENABLE is set. -/
theorem foreground_starts (hon : s.rxOn q kiln = true) (hoff : bitOf (s.reg (convWin q kiln) 0) 0 = false) :
    ∃ t, exec (.rxForegroundCal q kiln) s = .next t ∧ bitOf (t.reg (convWin q kiln) 0) 0 = true ∧
      (t.port q).rx.running kiln = true ∧ (t.port q).rx.passed kiln = false ∧ (t.port q).rx.tries kiln = 0 := by
  refine ⟨_, exec_rxForegroundCal hon hoff, ?_, ?_⟩
  · rw [State.reg_of_regs_eq (State.modRx_regs _ _ _), State.bitOf_setRegBit]
  · rw [State.rx_modRx]
    exact Rx.foregroundStarted_spec _ kiln

/-- R100: a pass; log 164 takes it for an accepted run. -/
theorem foreground_passes (hon : s.rxOn q kiln = true) (hrun : (s.port q).rx.running kiln = true) :
    ∃ t, exec (.rxForegroundCalDone q kiln true res) s = .next t ∧ (t.port q).rx.running kiln = false ∧
      (t.port q).rx.passed kiln = true ∧ ((t.port q).rx.item kiln).use = res ∧
      ((t.port q).rx.item kiln).state = 1 ∧ ((t.port q).rx.item kiln).tides = 0 := by
  refine ⟨_, (exec_rxForegroundCalDone hon hrun true).trans (if_pos rfl), ?_⟩
  have hrx : ((if kiln then s.modRx q (Rx.foregroundPassed kiln res)
      else (s.modRx q (Rx.foregroundPassed kiln res)).tryRamp q).port q).rx =
      (s.port q).rx.foregroundPassed kiln res := by
    split
    · rw [State.rx_modRx]
    · rw [State.rx_tryRamp, State.rx_modRx]
  obtain ⟨hends, hpass, hitem⟩ := (s.port q).rx.foregroundPassed_spec kiln res
  rw [hrx, hitem]
  exact ⟨hends, hpass, rfl, rfl, rfl⟩

/-- R100: the first failure. -/
theorem foreground_repeats (hon : s.rxOn q kiln = true) (hrun : (s.port q).rx.running kiln = true)
    (htries : (s.port q).rx.tries kiln = 0) :
    ∃ t, exec (.rxForegroundCalDone q kiln false res) s = .next t ∧ (t.port q).rx.running kiln = true ∧
      (t.port q).rx.passed kiln = (s.port q).rx.passed kiln ∧ (t.port q).rx.tries kiln = 1 ∧
      (t.stat (convStat q kiln)).has (calFailBit kiln) = true ∧ t.bwf.contained = s.bwf.contained := by
  have hexec : exec (.rxForegroundCalDone q kiln false res) s = .next (s.foregroundFailed q kiln 1) := by
    rw [exec_rxForegroundCalDone hon hrun, htries]
    rfl
  obtain ⟨hruns, hpass, hcount⟩ := (s.port q).rx.foregroundFailed_spec kiln 1
  refine ⟨_, hexec, ?_⟩
  rw [State.rx_foregroundFailed, State.foregroundFailed_bwf]
  exact ⟨hruns, hpass, hcount, State.foregroundFailed_calFail s q kiln 1, rfl⟩

/-- R100: the second failure, whose fault is number 2 of the block; what the calibration itself does is as for the first. -/
theorem foreground_fails (hon : s.rxOn q kiln = true) (hrun : (s.port q).rx.running kiln = true)
    (htries : (s.port q).rx.tries kiln = 1) :
    ∃ t, exec (.rxForegroundCalDone q kiln false res) s = .next t ∧ (t.port q).rx.running kiln = false ∧
      (t.port q).rx.passed kiln = (s.port q).rx.passed kiln ∧ ((t.port q).rx.item kiln).state = 2 ∧
      (t.stat (convStat q kiln)).has (calFailBit kiln) = true ∧
      t.bwf.contained = satAdd 0xFFFFFFFF s.bwf.contained 1 ∧
      (bitOf (s.reg 0x48 0) 0 = true → s.bwf.log.length < 64 →
        t.bwf.log = s.bwf.log ++ [(faultKey s.node (convWin q kiln) 1 0 2, s.time.now)]) := by
  have hexec : exec (.rxForegroundCalDone q kiln false res) s =
      .next (((s.foregroundFailed q kiln 2).modRx q (Rx.itemFailed kiln)).contained (convWin q kiln) 0 2) := by
    rw [exec_rxForegroundCalDone hon hrun, htries]
    rfl
  have hfail := State.foregroundFailed_calFail s q kiln 2
  have hbwf : ((s.foregroundFailed q kiln 2).modRx q (Rx.itemFailed kiln)).bwf = s.bwf := by simp
  have hregs : ((s.foregroundFailed q kiln 2).modRx q (Rx.itemFailed kiln)).regs = s.regs := by
    simp [State.foregroundFailed]
  have htime : ((s.foregroundFailed q kiln 2).modRx q (Rx.itemFailed kiln)).time = s.time := by
    simp [State.foregroundFailed]
  have hnode : ((s.foregroundFailed q kiln 2).modRx q (Rx.itemFailed kiln)).node = s.node :=
    State.node_of_eq (by simp [State.foregroundFailed]) (by simp [State.foregroundFailed])
  obtain ⟨hends, hpass, -⟩ := (s.port q).rx.foregroundFailed_spec kiln 2
  obtain ⟨hends', hpass', hstate⟩ := ((s.port q).rx.foregroundFailed kiln 2).itemFailed_spec kiln
  refine ⟨_, hexec, ?_⟩
  rw [State.port_contained, State.rx_modRx, State.rx_foregroundFailed]
  refine ⟨hends'.trans hends, hpass'.trans hpass, hstate, ?failShown, ?counted, ?logged⟩
  case failShown =>
    refine ((State.Keeps.refl _).contained _ _ _).bits _ _ ?_
    rwa [State.stat_of_stats_eq (State.modRx_stats _ _ _)]
  case counted => rw [State.contained_count, hbwf]
  case logged =>
    intro henable hroom
    rw [State.contained_log _ _ _ (by rwa [State.reg_of_regs_eq hregs]) (by rwa [hbwf]), hbwf, hnode, htime]

end

/-! ## Background calibration (R103, R104) -/

section
variable {s : State} {q : Port} {kiln : Bool} {res r0 : List Int}

/-- A background run that nothing holds off: the converters are on and have passed their foreground calibration, and the
tone windows are complete. -/
structure State.BackgroundReady (s : State) (q : Port) (kiln : Bool) : Prop where
  on : s.rxOn q kiln = true
  passed : (s.port q).rx.passed kiln = true
  bgOn : (s.port q).rx.bgOn = true
  window : ((s.port q).rx.item kiln).window = true
  windowsDone : (s.port q).rx.windowsDone kiln = true
  noHold : bitOf (s.reg (winRx q) 0) 1 = false

/-- The state after a background run with its outcome. -/
def State.backgroundRun (s : State) (q : Port) (kiln : Bool) (o : CalItem × Option Bool) : State :=
  (s.modRx q (Rx.backgroundRun kiln o.1)).raiseIf (o.2 == some false) (convStat q kiln) (calFailBit kiln)

@[simp] theorem State.item_backgroundRun (s : State) (q : Port) (kiln : Bool) (o : CalItem × Option Bool) :
    ((s.backgroundRun q kiln o).port q).rx.item kiln = o.1 := by
  rw [State.backgroundRun, port_raiseIf, rx_modRx, Rx.item_backgroundRun]

theorem State.backgroundRun_calFail (s : State) (q : Port) (kiln : Bool) (c : CalItem) :
    ((s.backgroundRun q kiln (c, some false)).stat (convStat q kiln)).has (calFailBit kiln) = true := by
  simp [State.backgroundRun, State.raiseIf]

theorem exec_rxBackgroundCalRun (h : s.BackgroundReady q kiln) : exec (.rxBackgroundCalRun q kiln res) s =
    .next (s.backgroundRun q kiln (((s.port q).rx.item kiln).run rxTol s.time.now res)) := by
  show execRxBackgroundCalRun q kiln res s = _
  obtain ⟨hon, hpass, hbg, hwindow, hdone, hhold⟩ := h
  cases kiln
  case false =>
    simp only [Rx.passed, Rx.item] at hpass hwindow
    exact if_pos (by simp [hon, hpass, hbg, hwindow, hdone, hhold])
  case true =>
    simp only [Rx.passed, Rx.item] at hpass hwindow
    exact if_pos (by simp [hon, hpass, hbg, hwindow, hdone, hhold])

/-- CAL_HOLD holds a background run off. -/
theorem exec_rxBackgroundCalRun_of_hold (hhold : bitOf (s.reg (winRx q) 0) 1 = true) :
    exec (.rxBackgroundCalRun q kiln res) s = .next s := by
  show execRxBackgroundCalRun q kiln res s = _
  exact if_neg (by simp [hhold])

/-- R103, R458: two runs that agree; the correction in use moves only with the next Tides. -/
theorem background_accepts (h : s.BackgroundReady q kiln) (hprev : ((s.port q).rx.item kiln).prev = some r0)
    (hagree : runsAgree rxTol r0 res = true) :
    ∃ t, exec (.rxBackgroundCalRun q kiln res) s = .next t ∧ ((t.port q).rx.item kiln).target = runsMean r0 res ∧
      ((t.port q).rx.item kiln).use = ((s.port q).rx.item kiln).use ∧ ((t.port q).rx.item kiln).state = 1 ∧
      ((t.port q).rx.item kiln).time = s.time.now ∧ ((t.port q).rx.item kiln).tides = 0 ∧
      ((t.port q).rx.item kiln).prev = none := by
  refine ⟨_, exec_rxBackgroundCalRun h, ?_⟩
  rw [State.item_backgroundRun, CalItem.run_of_agree s.time.now hprev hagree]
  exact ⟨rfl, rfl, rfl, rfl, rfl, rfl⟩

/-- R103, R458: two runs that do not agree. -/
theorem background_rejects (h : s.BackgroundReady q kiln) (hprev : ((s.port q).rx.item kiln).prev = some r0)
    (hagree : runsAgree rxTol r0 res = false) :
    ∃ t, exec (.rxBackgroundCalRun q kiln res) s = .next t ∧
      ((t.port q).rx.item kiln).target = ((s.port q).rx.item kiln).target ∧
      ((t.port q).rx.item kiln).use = ((s.port q).rx.item kiln).use ∧
      ((t.port q).rx.item kiln).fails = satAdd 0xFFFFFFFF ((s.port q).rx.item kiln).fails 1 ∧
      (t.stat (convStat q kiln)).has (calFailBit kiln) = true := by
  refine ⟨_, exec_rxBackgroundCalRun h, ?_⟩
  rw [State.item_backgroundRun, CalItem.run_of_disagree s.time.now hprev hagree]
  exact ⟨rfl, rfl, rfl, State.backgroundRun_calFail s q kiln _⟩

/-! ## Stale converters (R104) -/

/-- R104: 65,536 Tides have passed since the last accepted run. -/
theorem goes_stale (hon : s.rxOn q kiln = true) (hage : 65536 ≤ ((s.port q).rx.item kiln).tides) :
    ∃ t, exec (.rxCalStale q kiln) s = .next t ∧ ((t.port q).rx.item kiln).state = 3 := by
  have hexec : exec (.rxCalStale q kiln) s =
      .next (s.modRx q (Rx.setItem kiln { (s.port q).rx.item kiln with state := 3 })) := by
    show execRxCalStale q kiln s = _
    cases kiln
    case false => exact if_pos (by simpa [hon, Rx.item] using hage)
    case true => exact if_pos (by simpa [hon, Rx.item] using hage)
  exact ⟨_, hexec, by rw [State.rx_modRx, Rx.item_setItem]⟩

end

/-- Settles O6: each clause is one of the lemmas above, for the Rayleigh converters and again for the Kiln converters. -/
theorem receiveCalibration : Obligations.ReceiveCalibration := by
  unfold Obligations.ReceiveCalibration
  refine ⟨fun q s => foreground_starts (kiln := false), fun q res s => foreground_passes (kiln := false),
    fun q res s => foreground_repeats (kiln := false), fun q res s => foreground_fails (kiln := false),
    fun q s => foreground_starts (kiln := true), fun q res s => foreground_passes (kiln := true),
    fun q res s => foreground_repeats (kiln := true), fun q res s => foreground_fails (kiln := true),
    ?accepts, ?rejects, fun q res s hhold => ⟨s, exec_rxBackgroundCalRun_of_hold hhold, rfl⟩, ?stale,
    ?kilnAccepts, ?kilnRejects, fun q res s hhold => ⟨s, exec_rxBackgroundCalRun_of_hold hhold, rfl⟩,
    fun q s => goes_stale (kiln := true)⟩
  case accepts =>
    intro q res r0 s hon hpass hbg hwindows hwindow hhold
    exact background_accepts (kiln := false) ⟨hon, hpass, hbg, hwindow, Rx.windowsDone_rayleigh hwindows, hhold⟩
  case rejects =>
    intro q res r0 s hon hpass hbg hwindows hwindow hhold
    exact background_rejects (kiln := false) ⟨hon, hpass, hbg, hwindow, Rx.windowsDone_rayleigh hwindows, hhold⟩
  case stale =>
    intro q s hon hage
    obtain ⟨t, ht, hstate⟩ := goes_stale (kiln := false) hon hage
    exact ⟨t, ht, hstate, State.bitOf_portBits_calStale hstate⟩
  case kilnAccepts =>
    intro q res r0 s hon hpass hbg hwindows hwindow hhold
    exact background_accepts (kiln := true) ⟨hon, hpass, hbg, hwindow, Rx.windowsDone_kiln hwindows, hhold⟩
  case kilnRejects =>
    intro q res r0 s hon hpass hbg hwindows hwindow hhold
    exact background_rejects (kiln := true) ⟨hon, hpass, hbg, hwindow, Rx.windowsDone_kiln hwindows, hhold⟩

end Sys2Proof.Machine
end

section
/-! A dictionary write that passes the server's checks (R388–R395): its object is written, and the request answered. -/
namespace Sys2Proof.Machine
open Sys2Proof

namespace State

/-! ## Ports -/

@[simp] theorem port_modPort_self (s : State) (q : Port) (f : PortState → PortState) :
    (s.modPort q f).port q = f (s.port q) := by
  cases q <;> rfl

/-! ## Frames leave every port's part as it is -/

@[simp] theorem port_emitFrame (s : State) (p : LinkPort) (f : Frame) (q : Port) :
    (s.emitFrame p f).port q = s.port q :=
  port_of_eq (emitFrame_pa ..) (emitFrame_pb ..) q

@[simp] theorem port_police (s : State) (p : LinkPort) (f : Frame) (q : Port) :
    (s.police p f).2.port q = s.port q := by
  unfold police
  split
  · dsimp only
    split
    · exact port_raise ..
    · exact port_of_eq (modEgr_pa ..) (modEgr_pb ..) q
  · rfl

@[simp] theorem port_egress (s : State) (p : LinkPort) (f : Frame) (q : Port) : (s.egress p f).port q = s.port q := by
  unfold egress
  dsimp only
  split
  · rw [port_emitFrame, port_police]
  · exact port_police ..

@[simp] theorem port_sendSide (s : State) (d : Side) (f : Frame) (q : Port) : (s.sendSide d f).port q = s.port q := by
  unfold sendSide
  split
  · exact port_egress ..
  · rfl

@[simp] theorem port_sendPort (s : State) (p : LinkPort) (f : Frame) (q : Port) :
    (s.sendPort p f).port q = s.port q := by
  cases p with
  | w => exact port_sendSide ..
  | e => exact port_sendSide ..
  | lan =>
    unfold sendPort
    dsimp only
    split
    · exact port_egress ..
    · rfl

/-- What each step leaves of a port, all of them leave. -/
theorem port_foldl {α : Type} {f : State → α → State} {q : Port} (hf : ∀ u x, (f u x).port q = u.port q) (l : List α)
    (s : State) : (l.foldl f s).port q = s.port q := by
  induction l generalizing s with
  | nil => rfl
  | cons x xs ih => exact (ih (f s x)).trans (hf s x)

@[simp] theorem port_originate (s : State) (cls type dst : Nat) (fields : List Nat) (payload : List Byte) (q : Port) :
    (s.originate cls type dst fields payload).port q = s.port q := by
  unfold originate
  split
  · exact port_foldl (fun _ _ => port_sendPort ..) _ _
  · rfl

theorem keeps_sendLocal (s : State) (type : Nat) (b : List Byte) : s.Keeps (s.sendLocal type b) := by
  unfold sendLocal
  exact .ite (((Keeps.refl s).modChain _).trans (keeps_egress ..)) (.refl s)

@[simp] theorem port_sendLocal (s : State) (type : Nat) (b : List Byte) (q : Port) :
    (s.sendLocal type b).port q = s.port q := by
  unfold sendLocal
  split
  · exact port_egress ..
  · rfl

/-! ## The answer (R388, R393–R395) -/

/-- A response that no carrier's buffer waits for changes nothing of the dictionary or of the ports. -/
theorem sendResponse_keeps (s : State) (c : OdCaller) (svc : Nat) (b : List Byte) :
    s.Keeps (s.sendResponse c svc none b) ∧ ∀ q, (s.sendResponse c svc none b).port q = s.port q := by
  unfold sendResponse
  split
  · exact ⟨keeps_sendLocal .., port_sendLocal s _ _⟩
  · exact ⟨keeps_originate .., port_originate s _ _ _ _ _⟩
  · exact ⟨(Keeps.refl s).emit _, fun q => port_of_eq rfl rfl q⟩

theorem port_answer {r : Req} (hbuf : r.buf = none) (s : State) (keep : Bool) (a : Ans) (q : Port) :
    (s.answer r keep a).port q = s.port q := by
  unfold answer
  rw [hbuf]
  exact (sendResponse_keeps ..).2 q

theorem head?_keepResponse (l : List Kept) (k : Kept) : (keepResponse l k).head? = some k := rfl

/-- R393: a response that is kept is the newest of those kept. -/
theorem kept_answer {r : Req} (hbuf : r.buf = none) (s : State) (a : Ans) :
    (s.answer r true a).od.kept.head? = some ⟨r.c.path, r.c.source, r.c.transaction, s.respBytes r a⟩ := by
  unfold answer
  rw [hbuf, (sendResponse_keeps ..).1.od]
  exact head?_keepResponse ..

/-- R388: the second byte of a response is its status. -/
theorem respBytes_status (s : State) (r : Req) (a : Ans) : (s.respBytes r a)[1]? = some (BitVec.ofNat 8 a.st) := rfl

theorem answered_answer {r : Req} (hbuf : r.buf = none) (s : State) (a : Ans) :
    Answered (s.answer r true a) r.c a.st := by
  simp only [Answered, kept_answer hbuf, Option.map_some, respBytes_status]

/-! ## A write served (R389, R391) -/

/-- R391: what the server asks of an object and a value before it writes the value. -/
structure Writable (s : State) (k : OdKey) (row : ObjRow) (v : List Byte) (lv : Nat) : Prop where
  index : (s.top k.idx).isSome = true
  object : s.row k.idx k.sub = some row
  access : row.acc ≠ .ro
  level : row.writeLevel ≤ lv
  length : row.lengthOk v.length = true

/-- A higher privilege writes what a lower one does. -/
theorem Writable.mono {s : State} {k : OdKey} {row : ObjRow} {v : List Byte} {lv lv' : Nat}
    (h : s.Writable k row v lv) (hle : lv ≤ lv') : s.Writable k row v lv' :=
  { h with level := Nat.le_trans h.level hle }

theorem serveObject_write {s : State} {r : Req} {row : ObjRow} {lv : Nat} (hsvc : r.svc = 2)
    (hw : s.Writable r.k row r.data lv)
    (hfree : s.od.transfers.any (fun t => t.key == objKey r.k.idx r.k.sub) = false) :
    s.serveObject r lv =
      ({ st := (s.writeObj r.h row r.k.idx r.k.sub r.data).1, applies := row.ap.code },
        (s.writeObj r.h row r.k.idx r.k.sub r.data).2) := by
  obtain ⟨top, htop⟩ := Option.isSome_iff_exists.mp hw.index
  have hwrite : s.serveWrite r row = ({ st := (s.writeObj r.h row r.k.idx r.k.sub r.data).1, applies := row.ap.code },
      (s.writeObj r.h row r.k.idx r.k.sub r.data).2) := by
    unfold serveWrite
    rw [if_neg (Decidable.not_not.mpr hw.length), if_neg (by rw [hfree]; exact Bool.false_ne_true)]
  simp [serveObject, htop, hw.object, hsvc, hw.access, Nat.not_lt.mpr hw.level, hwrite]

theorem serveHere_write {s : State} {r : Req} {row : ObjRow} {lv : Nat} (hlevel : s.level r.c = some lv)
    (hsvc : r.svc = 2) (hw : s.Writable r.k row r.data lv)
    (hfree : s.od.transfers.any (fun t => t.key == objKey r.k.idx r.k.sub) = false) :
    s.serveHere r = ({ st := (s.writeObj r.h row r.k.idx r.k.sub r.data).1, applies := row.ap.code },
        (s.writeObj r.h row r.k.idx r.k.sub r.data).2) := by
  rw [← serveObject_write hsvc hw hfree]
  simp [serveHere, hlevel, hsvc]

/-- R392: where no request waits, none is served before. -/
theorem serveQueue_of_empty {s : State} (h : s.od.queue = []) : s.serveQueue = s := by
  have hod : { s.od with queue := [] } = s.od := by rw [← h]
  simp only [serveQueue, h, List.foldl_nil, modOd, hod]

/-- R391, R392: a request that the server takes now is served in this node. -/
theorem serve_of_asks {s : State} {lv : Nat} {r : Req} (h : Asks s r.c lv) (hsvc : r.svc = 2) :
    s.serve r = s.asked.complete r := by
  obtain ⟨hup, hpath, hwaits, hqueue, hnode, -, hkept⟩ := h
  have hone : s.asked.serveOne r = s.asked.complete r := by
    have hup' : s.asked.up = true := hup
    have hkept' : s.asked.od.kept.find? (fun x => sameSource x.path r.c.path x.source r.c.source &&
      x.transaction == r.c.transaction) = none := hkept
    simp [serveOne, hup', hkept', hsvc, hnode]
  have hidle : s.asked.serveQueue = s.asked := serveQueue_of_empty hqueue
  rw [← hone, ← congrArg (serveOne · r) hidle]
  simp [serve, hpath, hup, hwaits, asked]

theorem up_of_power_eq {s t : State} (h : t.power = s.power) : t.up = s.up := by
  simp only [up, h]

/-- A write that the server takes and that its object accepts is answered with status 0 (R388, R391). -/
theorem request_write {s : State} {c : OdCaller} {k : OdKey} {v : List Byte} {h : Hint} {row : ObjRow} {lv : Nat}
    {t : State} (hs : Serves s c lv (objKey k.idx k.sub)) (hw : s.asked.Writable k row v lv)
    (hwrite : s.asked.writeObj h row k.idx k.sub v = (0, t)) (hpower : t.power = s.power) :
    Answered (s.request c 2 k v h) c 0 ∧ ∀ q, (s.request c 2 k v h).port q = t.port q := by
  obtain ⟨hasks, hfree⟩ := hs
  have ⟨hup, _, _, _, _, hlevel, _⟩ := hasks
  obtain ⟨l, hl, hlv⟩ := Option.any_eq_true _ _ |>.mp hlevel
  have hhere := serveHere_write (s := s.asked) (r := { c := c, svc := 2, k := k, data := v, h := h }) hl rfl
    (hw.mono (of_decide_eq_true hlv)) hfree
  simp only [hwrite] at hhere
  have hrun : t.up = true := (up_of_power_eq hpower).trans hup
  have hdone : s.request c 2 k v h =
      t.answer { c := c, svc := 2, k := k, data := v, h := h } true { st := 0, applies := row.ap.code } := by
    unfold request
    rw [serve_of_asks hasks rfl]
    simp [complete, hhere, hrun]
  rw [hdone]
  exact ⟨answered_answer rfl t _, port_answer rfl t true _⟩

/-- A write to an object whose write is an operation is that operation (R391). -/
theorem writeObj_of_action {s : State} {h : Hint} {row : ObjRow} {idx sub : Nat} {v : List Byte} {a : Nat × State}
    (hrange : rangeBar row idx v = false) (hcustom : custom? idx sub = none) (haction : s.action h idx sub v = some a) :
    s.writeObj h row idx sub v = a := by
  simp [writeObj, hrange, hcustom, haction]

end State
end Sys2Proof.Machine
end

section
/-! The banks of a decimation channel (R151, R152): the objects that request and load them, and the swap at a
boundary. -/
namespace Sys2Proof.Machine
open Sys2Proof

/-! ## The objects of a channel (R170) -/

theorem canonIndex_decIndex (q : Port) {ch : Nat} (h : ch < 2) :
    canonIndex (decIndex q ch) = (0x3120, 2 * Port.num q + ch) := by
  obtain rfl | rfl : ch = 0 ∨ ch = 1 := by omega
  · cases q <;> decide
  · cases q <;> decide

/-- An object of a channel lies below the customer range, and is neither an active copy nor one of laser B. -/
theorem decIndex_bounds (q : Port) (ch : Nat) : 0x3120 ≤ decIndex q ch ∧ decIndex q ch < 0x6800 := by
  have hport : portIndex q 0x3120 = 0x3120 ∨ portIndex q 0x3120 = 0x3220 := by cases q <;> decide
  unfold decIndex
  omega

/-- No customer program declares an object of a channel. -/
theorem custom?_decIndex (q : Port) (ch sub : Nat) : custom? (decIndex q ch) sub = none :=
  if_neg fun h => Nat.not_lt.mpr h.1 (decIndex_bounds q ch).2

theorem pendIndex_decIndex (q : Port) (ch : Nat) : pendIndex (decIndex q ch) = decIndex q ch := by
  have := (decIndex_bounds q ch).1
  exact if_neg (by omega)

theorem instPort_decIndex (q : Port) {ch : Nat} (h : ch < 2) : instPort ((2 * Port.num q + ch) / 2) = q := by
  obtain rfl | rfl : ch = 0 ∨ ch = 1 := by omega
  · cases q <;> rfl
  · cases q <;> rfl

/-- The objects of every channel share the rows of port A's channel 0. -/
theorem objRow?_decIndex (q : Port) {ch : Nat} (h : ch < 2) (sub : Nat) :
    objRow? (decIndex q ch) sub = objRow? 0x3120 sub := by
  unfold objRow?
  rw [canonIndex_decIndex q h]
  rfl

theorem topSub_decIndex (q : Port) {ch : Nat} (h : ch < 2) : topSub (decIndex q ch) = topSub 0x3120 := by
  unfold topSub
  rw [canonIndex_decIndex q h]
  rfl

theorem objRow?_idx {idx sub : Nat} {r : ObjRow} (h : objRow? idx sub = some r) : r.idx = (canonIndex idx).1 := by
  have hfound := List.find?_some h
  simp only [Bool.and_eq_true, beq_iff_eq] at hfound
  exact hfound.1.1

namespace State

theorem top_decIndex (s : State) (q : Port) {ch : Nat} (h : ch < 2) : (s.top (decIndex q ch)).isSome = true := by
  have hbounds := decIndex_bounds q ch
  unfold top
  rw [if_neg (by omega), pendIndex_decIndex, topSub_decIndex q h]
  decide +kernel

theorem row_decIndex (s : State) (q : Port) {ch : Nat} (h : ch < 2) {sub : Nat} {r : ObjRow} (hsub : sub ≠ 0)
    (hr : objRow? 0x3120 sub = some r) : s.row (decIndex q ch) sub = some r := by
  have hbounds := decIndex_bounds q ch
  have hidx : r.idx ≠ 0x3131 := by
    rw [objRow?_idx hr]
    decide
  have hown : ¬ (decIndex q ch = 0x2200) := by omega
  simp [row, hsub, custom?_decIndex, pendIndex_decIndex, objRow?_decIndex q h, hr, hidx, hown]

/-! ## Their writes -/

theorem action_bankSelect (s : State) (h : Hint) (q : Port) {ch : Nat} (hch : ch < 2) (v : List Byte) :
    s.action h (decIndex q ch) 8 v = some (s.bankSelect q ch v) := by
  have hchan : (2 * Port.num q + ch) % 2 = ch := by omega
  unfold action
  rw [canonIndex_decIndex q hch]
  show some (s.bankSelect (instPort ((2 * Port.num q + ch) / 2)) ((2 * Port.num q + ch) % 2) v) = _
  rw [instPort_decIndex q hch, hchan]

theorem action_bankLoad (s : State) (h : Hint) (q : Port) {ch b : Nat} (hch : ch < 2) (hb : b < 2) (v : List Byte) :
    s.action h (decIndex q ch) (0xA + b) v = some (s.bankLoad q ch b v) := by
  have hchan : (2 * Port.num q + ch) % 2 = ch := by omega
  have hbanks : s.action h (decIndex q ch) (0xA + b) v =
      some (s.bankLoad (instPort ((2 * Port.num q + ch) / 2)) ((2 * Port.num q + ch) % 2) b v) := by
    unfold action
    rw [canonIndex_decIndex q hch]
    obtain rfl | rfl : b = 0 ∨ b = 1 := by omega
    · rfl
    · rfl
  rw [hbanks, instPort_decIndex q hch, hchan]

theorem dec_modDec (s : State) (q : Port) (c : Nat) (f : Decim → Decim) : (s.modDec q c f).dec q c = f (s.dec q c) := by
  unfold dec modDec
  rw [port_modPort_self]
  split
  · rfl
  · rfl

theorem dec_of_port_eq {s t : State} {q : Port} (h : t.port q = s.port q) (c : Nat) : t.dec q c = s.dec q c := by
  simp only [dec, h]

@[simp] theorem modDec_power (s : State) (q : Port) (c : Nat) (f : Decim → Decim) :
    (s.modDec q c f).power = s.power :=
  modPort_power ..

/-- R152: a request for the active bank takes back what was requested, any other is for the bank it names. -/
theorem want_bankRequest (s : State) (q : Port) (c b : Nat) :
    ((s.bankRequest q c b).dec q c).want = if b = (s.dec q c).active then none else some b := by
  rw [bankRequest, dec_modDec, apply_ite Decim.want]

/-- R152: BankSelect is refused on a channel of preset Full alone. -/
theorem bankSelect_requests {s : State} {q : Port} {ch b : Nat} (hpreset : s.nat (decIndex q ch) 2 ≠ 0) (hb : b < 2) :
    ∃ t, s.bankSelect q ch (u8 b) = (0, t) ∧ t.power = s.power ∧
      (t.dec q ch).want = if b = (s.dec q ch).active then none else some b := by
  refine ⟨_, if_neg hpreset, modDec_power .., ?_⟩
  have hvalue : leNat (u8 b) = b := by
    obtain rfl | rfl : b = 0 ∨ b = 1 := by omega
    · rfl
    · rfl
  have hport : ∀ r w, ((s.setObj (decIndex q ch) 8 (u8 b)).setRegBit (winRx q) 0x300 r w).port q = s.port q :=
    fun _ _ => port_of_eq rfl rfl q
  rw [want_bankRequest, hvalue, dec_of_port_eq (hport _ _)]

/-- A bank's coefficients: 32 bits each, little-endian (R151). -/
theorem bankLoad_loads {s : State} {q : Port} {ch b : Nat} {v : List Byte} (hpreset : s.nat (decIndex q ch) 2 ≠ 0)
    (hinactive : (s.dec q ch).active ≠ b) (hlen : v.length = 24 * presetD (s.nat (decIndex q ch) 2))
    (hok : bankOk (presetD (s.nat (decIndex q ch) 2)) ((pieces 4 (6 * presetD (s.nat (decIndex q ch) 2) + 1) v).map
      fun x => toSigned 32 (leNat x)) = true) :
    ∃ t, s.bankLoad q ch b v = (0, t) ∧ t.power = s.power ∧
      (if b = 0 then (t.dec q ch).bankA else (t.dec q ch).bankB) =
        (pieces 4 (6 * presetD (s.nat (decIndex q ch) 2) + 1) v).map fun x => toSigned 32 (leNat x) := by
  refine ⟨_, (if_neg (not_or.mpr ⟨hpreset, hinactive⟩)).trans (if_neg ?_), modDec_power .., ?_⟩
  · exact not_or.mpr ⟨Decidable.not_not.mpr hlen, Decidable.not_not.mpr hok⟩
  · rw [dec_modDec]
    split
    · rfl
    · rfl

end State

/-! ## The commands -/

/-- The row of BankSelect (R170). -/
def bankSelectRow : ObjRow :=
  ⟨0x3120, 8, 1, .u8, .rw, 1, .immediate, false, .between 0 1, .int 0, 0, "BankSelect"⟩

/-- The rows of BankA and BankB (R170). -/
def bankRow (b : Nat) : ObjRow :=
  ⟨0x3120, 0xA + b, 1, .blob, .rw, 1, .immediate, false, .full, .none, 3072, if b = 0 then "BankA" else "BankB"⟩

theorem objRow?_bankSelect : objRow? 0x3120 8 = some bankSelectRow := by
  decide +kernel

theorem objRow?_bank {b : Nat} (hb : b < 2) : objRow? 0x3120 (0xA + b) = some (bankRow b) := by
  obtain rfl | rfl : b = 0 ∨ b = 1 := by omega
  · decide +kernel
  · decide +kernel

theorem decIndex_ne_scan (q : Port) (ch : Nat) : decIndex q ch ≠ 0x8001 := by
  have := decIndex_bounds q ch
  omega

theorem rangeBar_bankSelect (q : Port) (ch : Nat) {b : Nat} (hb : b < 2) :
    rangeBar bankSelectRow (decIndex q ch) (u8 b) = false := by
  have hrange : rangeOk .u8 (.between 0 1) (u8 b) = true := by
    obtain rfl | rfl : b = 0 ∨ b = 1 := by omega
    · rfl
    · rfl
  simp [rangeBar, bankSelectRow, hrange, decIndex_ne_scan]

theorem rangeBar_bank (q : Port) (ch b : Nat) (v : List Byte) : rangeBar (bankRow b) (decIndex q ch) v = false := by
  have hrange : rangeOk .blob .full v = true := rfl
  simp [rangeBar, bankRow, hrange, decIndex_ne_scan]

theorem writable_bankSelect (s : State) (q : Port) {ch : Nat} (hch : ch < 2) (b : Nat) :
    s.Writable (key_ (decIndex q ch) 8) bankSelectRow (u8 b) 1 where
  index := s.top_decIndex q hch
  object := s.row_decIndex q hch (Nat.succ_ne_zero 7) objRow?_bankSelect
  access := by decide
  level := by decide
  length := rfl

theorem writable_bank (s : State) (q : Port) {ch b : Nat} (hch : ch < 2) (hb : b < 2) {v : List Byte}
    (hv : v.length ≤ 1024) : s.Writable (key_ (decIndex q ch) (0xA + b)) (bankRow b) v 1 where
  index := s.top_decIndex q hch
  object := s.row_decIndex q hch (Nat.add_comm b 0xA ▸ Nat.succ_ne_zero _) (objRow?_bank hb)
  access := Acc.noConfusion
  level := Nat.le_refl 1
  length := decide_eq_true hv

/-- BANK_SELECT (R152). -/
theorem bankSelect_served {c : OdCaller} {q : Port} {ch b : Nat} {s : State} (hch : ch < 2) (hb : b < 2)
    (hs : Serves s c 1 (objKey (decIndex q ch) 8)) (hpreset : s.nat (decIndex q ch) 2 ≠ 0) :
    ∃ t, exec (.bankSelect c q ch b) s = .next t ∧ Answered t c 0 ∧
      (t.dec q ch).want = if b = (s.dec q ch).active then none else some b := by
  obtain ⟨t, ht, hpower, hwant⟩ := State.bankSelect_requests (s := s.asked) hpreset hb
  obtain ⟨hanswer, hport⟩ := State.request_write (k := key_ (decIndex q ch) 8) (v := u8 b) (h := {}) hs
    (writable_bankSelect _ q hch b) ((State.writeObj_of_action (rangeBar_bankSelect q ch hb) (custom?_decIndex q ch 8)
      (State.action_bankSelect _ _ q hch _)).trans ht) hpower
  refine ⟨_, rfl, hanswer, ?_⟩
  exact (congrArg Decim.want (State.dec_of_port_eq (hport q) ch)).trans hwant

/-- BANK_LOAD (R151). -/
theorem bankLoad_served {c : OdCaller} {q : Port} {ch b : Nat} {v : List Byte} {s : State} (hch : ch < 2) (hb : b < 2)
    (hs : Serves s c 1 (objKey (decIndex q ch) (0xA + b))) (hpreset : s.nat (decIndex q ch) 2 ≠ 0)
    (hinactive : (s.dec q ch).active ≠ b) (hlen : v.length = 24 * presetD (s.nat (decIndex q ch) 2))
    (hmax : v.length ≤ 1024) (hok : bankOk (presetD (s.nat (decIndex q ch) 2))
      ((pieces 4 (6 * presetD (s.nat (decIndex q ch) 2) + 1) v).map fun x => toSigned 32 (leNat x)) = true) :
    ∃ t, exec (.bankLoad c q ch b v) s = .next t ∧ Answered t c 0 ∧
      (if b = 0 then (t.dec q ch).bankA else (t.dec q ch).bankB) =
        (pieces 4 (6 * presetD (s.nat (decIndex q ch) 2) + 1) v).map fun x => toSigned 32 (leNat x) := by
  obtain ⟨t, ht, hpower, hbank⟩ := State.bankLoad_loads (s := s.asked) hpreset hinactive hlen hok
  obtain ⟨hanswer, hport⟩ := State.request_write (k := key_ (decIndex q ch) (0xA + b)) (v := v) (h := {}) hs
    (writable_bank _ q hch hb hmax) ((State.writeObj_of_action (rangeBar_bank q ch b v)
      (custom?_decIndex q ch (0xA + b)) (State.action_bankLoad _ _ q hch hb _)).trans ht) hpower
  have hexec : exec (.bankLoad c q ch b v) s = .next (s.request c 2 (key_ (decIndex q ch) (0xA + b)) v {}) := by
    show Host.Outcome.next (s.request c 2 (key_ (decIndex q ch) (0xA + b % 2)) v {}) = _
    rw [Nat.mod_eq_of_lt hb]
  refine ⟨_, hexec, hanswer, ?_⟩
  rw [State.dec_of_port_eq (hport q) ch]
  exact hbank

/-- R152: bank `b` takes over at the output boundary, launch `ell`; `first` is the first launch of the span that
ends there. -/
def Decim.swapped (d : Decim) (b ell first : Nat) : Decim :=
  { d with
    active := b, want := none, swaps := satAdd 0xFFFFFFFF d.swaps 1
    swapLog := (ell, b) :: d.swapLog.filter (fun e => decide (first ≤ e.1 + 64)) }

/-- BANK_SWAP (R152). -/
theorem bankSwap_swaps {q : Port} {c b : Nat} {x : SwLaunch} {s : State} (hon : s.rxOn q false = true)
    (hwant : (s.dec q c).want = some b) (hnewest : (s.port q).sw.out.head? = some x)
    (hboundary : x.l.ell % presetD (if c = 0 then x.l.cfg.dec0 else x.l.cfg.dec1).preset = 0)
    (hafter : (s.dec q c).wantAt ≠ some x.l.time) :
    ∃ t, exec (.bankSwap q c) s = .next t ∧ (t.dec q c).active = b ∧ (t.dec q c).want = none ∧
      (t.dec q c).swaps = satAdd 0xFFFFFFFF (s.dec q c).swaps 1 ∧ (t.stat (stDec q)).has 2 = true := by
  have hexec : exec (.bankSwap q c) s = .next ((s.modDec q c fun d => d.swapped b x.l.ell
      (x.l.ell + 1 - presetL (if c = 0 then x.l.cfg.dec0 else x.l.cfg.dec1).preset)).raise (stDec q) [2]) := by
    show execBankSwap q c s = _
    simp [execBankSwap, hwant, hnewest, hon, hboundary, hafter, Decim.swapped]
  refine ⟨_, hexec, ?_⟩
  rw [State.dec_of_port_eq (State.port_raise ..), State.dec_modDec]
  exact ⟨rfl, rfl, rfl, by simp⟩

end Sys2Proof.Machine
end

section
/-! What the sending of records leaves of a port: its launches, its channels and its Lauter bank (R138, R161, R168). -/
namespace Sys2Proof.Machine
open Sys2Proof

/-- From `s` to `t` port `q` has only sent: of its part, the records on their way and the mark of the anchor record alone
may have changed. -/
structure State.Sends (s : State) (q : Port) (t : State) : Prop extends s.Keeps t where
  port : ∃ cel brew sent, t.port q = { s.port q with
    celIn := cel, brewIn := brew, sw := { (s.port q).sw with anchorSent := sent } }

namespace State

theorem stat_has_raise_self (s : State) {k b : Nat} {bits : List Nat} (h : b ∈ bits) :
    ((s.raise k bits).stat k).has b = true := by
  simp [h]

namespace Sends

variable {s t u : State} {q : Port}

/-! ## What stays -/

theorem dec (h : s.Sends q t) (c : Nat) : t.dec q c = s.dec q c := by
  obtain ⟨_, _, _, hport⟩ := h.port
  simp only [State.dec, hport]

theorem laut (h : s.Sends q t) : (t.port q).laut = (s.port q).laut := by
  obtain ⟨_, _, _, hport⟩ := h.port
  rw [hport]

theorem lautRec (h : s.Sends q t) : (t.port q).lautRec = (s.port q).lautRec := by
  obtain ⟨_, _, _, hport⟩ := h.port
  rw [hport]

theorem flight (h : s.Sends q t) : (t.port q).flight = (s.port q).flight := by
  obtain ⟨_, _, _, hport⟩ := h.port
  rw [hport]

theorem swOut (h : s.Sends q t) : (t.port q).sw.out = (s.port q).sw.out := by
  obtain ⟨_, _, _, hport⟩ := h.port
  rw [hport]

theorem lastLaunch (h : s.Sends q t) : (t.port q).sw.lastLaunch = (s.port q).sw.lastLaunch := by
  obtain ⟨_, _, _, hport⟩ := h.port
  rw [hport]

/-! ## What sends -/

theorem of_port_eq (h : s.Keeps t) (hport : t.port q = s.port q) : s.Sends q t := ⟨h, _, _, _, hport⟩

theorem refl (s : State) (q : Port) : s.Sends q s := of_port_eq (.refl s) rfl

theorem trans (h : s.Sends q t) (h' : t.Sends q u) : s.Sends q u := by
  obtain ⟨_, _, _, hport⟩ := h.port
  obtain ⟨_, _, _, hport'⟩ := h'.port
  exact ⟨h.toKeeps.trans h'.toKeeps, _, _, _, by rw [hport', hport]⟩

/-- A branch is taken or it is not. -/
theorem ite {c : Prop} [Decidable c] (h : s.Sends q t) (h' : s.Sends q u) : s.Sends q (if c then t else u) := by
  split
  · exact h
  · exact h'

theorem foldl {α : Type} {f : State → α → State} (h : s.Sends q t) (hf : ∀ (u : State) (x : α), u.Sends q (f u x))
    (l : List α) : s.Sends q (l.foldl f t) := by
  induction l generalizing t with
  | nil => exact h
  | cons x xs ih => exact ih (h.trans (hf t x))

theorem raise (h : s.Sends q t) (k : Nat) (bits : List Nat) : s.Sends q (t.raise k bits) :=
  h.trans (of_port_eq ((Keeps.refl t).raise k bits) (port_raise ..))

theorem contained (h : s.Sends q t) (unit inst num : Nat) : s.Sends q (t.contained unit inst num) :=
  h.trans (of_port_eq ((Keeps.refl t).contained unit inst num) (port_contained ..))

/-- A fault for each lost point. -/
theorem containedEach {α : Type} (h : s.Sends q t) (l : List α) (unit inst num : Nat) :
    s.Sends q (l.foldl (fun u _ => u.contained unit inst num) t) :=
  h.foldl (fun u _ => (refl u q).contained ..) l

theorem toRing (h : s.Sends q t) (r : RingRec) : s.Sends q (t.toRing q r) :=
  h.trans ⟨(Keeps.refl t).modPort q _, _, _, _, port_modPort_self ..⟩

theorem toBrew (h : s.Sends q t) (r : RingRec) : s.Sends q (t.toBrew q r) :=
  h.trans ⟨(Keeps.refl t).modPort q _, _, _, _, port_modPort_self ..⟩

theorem toExport (h : s.Sends q t) (r : ExportRec) : s.Sends q (t.toExport r) :=
  h.trans (of_port_eq ((Keeps.refl t).toExport r) (port_of_eq (toExport_pa ..) (toExport_pb ..) q))

theorem deliver (h : s.Sends q t) (cel : Bool) (ring type : Nat) (exp : Bool) (kind time ell lt ch : Nat)
    (bytes : List Byte) : s.Sends q (t.deliver q cel ring type exp kind time ell lt ch bytes) := by
  have stored : s.Sends q (if cel then t.toRing q ⟨ring, type, time, ell, bytes, lt, ch⟩ else t) := .ite (h.toRing _) h
  exact .ite (stored.toExport _) stored

theorem originate (h : s.Sends q t) (cls type dst : Nat) (fields : List Nat) (payload : List Byte) :
    s.Sends q (t.originate cls type dst fields payload) :=
  h.trans (of_port_eq (keeps_originate ..) (port_originate ..))

/-- Each frame of a stream is sent. -/
theorem stream (h : s.Sends q t) (bytes : List Byte) : s.Sends q (t.stream q bytes) := by
  have frames : ∀ (l : List (List Byte)) (a : Nat × State), s.Sends q a.2 →
      s.Sends q (l.foldl (fun a b => (a.1 + 1, a.2.originate 3 0x40 t.chain.acting [Port.num q, a.1] b)) a).2 := by
    intro l
    induction l with
    | nil => exact fun a ha => ha
    | cons b bs ih => exact fun a ha => ih _ (ha.originate ..)
  exact .ite h (frames _ _ h)

theorem lautStore (h : s.Sends q t) (tide : Nat) (bytes : List Byte) : s.Sends q (t.lautStore q tide bytes) :=
  .ite (h.trans (of_port_eq ((Keeps.refl t).write _ _) (port_of_eq rfl rfl q))) h

theorem anchorRecord (h : s.Sends q t) : s.Sends q (t.anchorRecord q) := by
  unfold State.anchorRecord
  dsimp only
  split
  · exact h
  · refine .ite h (deliver (h.trans ?_) ..)
    exact ⟨(Keeps.refl t).modPort q _, _, _, _, port_modPort_self ..⟩

end Sends
end State
end Sys2Proof.Machine
end

section
/-! An output of a decimation channel (R161) and a record of the Lauter bank (R168). -/
namespace Sys2Proof.Machine
open Sys2Proof

/-! ## Decimation (R148, R161) -/

@[simp] theorem Decim.setLost_active (d : Decim) (t : Nat) (l : List (Nat × Nat)) :
    (d.setLost t l).active = d.active := by
  unfold Decim.setLost
  split
  · split
    · rfl
    · rfl
  · rfl

namespace State

/-- An output that is emitted (R161): its launch is the channel's latest, nothing up to it is due any longer, and a
point whose state was lost is told (R160). -/
theorem decimate_spec (s : State) (q : Port) (c : Nat) (lost : List Nat) (b : SwLaunch) (hist : List SwLaunch) :
    ((s.decimate q c lost b hist).dec q c).lastOut = some b.l.ell ∧
      ((s.decimate q c lost b hist).dec q c).due = (s.dec q c).due.filter (fun t => decide (b.l.time < t)) ∧
      ((s.decimate q c lost b hist).dec q c).active = (s.dec q c).active ∧
      (lost ≠ [] → ((s.decimate q c lost b hist).stat (stDec q)).has 0 = true) := by
  unfold decimate
  extract_lets dc d taps ell ch ch' first span bank h settling pt isLost outs v stepNs2 t0 time any bytes s1 s2 s3 s4
  have told : s1.Sends q s2 := .ite (.refl ..) (((Sends.refl ..).raise ..).containedEach ..)
  have delivered : s2.Sends q s3 := (Sends.refl ..).deliver ..
  have streamed : s2.Sends q s4 := .ite (delivered.stream _) delivered
  have sent : s2.Sends q (if bitOf dc.dest 3 then s4.toBrew q ⟨c, 4, time, ell, bytes, b.l.time, c⟩ else s4) :=
    .ite (streamed.toBrew _) streamed
  rw [(told.trans sent).dec, dec_modDec]
  refine ⟨rfl, rfl, Decim.setLost_active .., fun hlost => sent.bits _ _ ?_⟩
  have hs2 : s2 = lost.foldl (fun s _ => s.contained (winRx q) c 4) (s1.raise (stDec q) [0]) :=
    if_neg (by simpa using hlost)
  rw [hs2]
  exact ((Sends.refl _ q).containedEach ..).bits _ _ (stat_has_raise_self _ (List.mem_singleton_self 0))

end State

/-- DECIMATED_RECORD (R161). -/
theorem decimatedRecord_emits {q : Port} {c t0 : Nat} {lost more : List Nat} {b : SwLaunch} {rest : List SwLaunch}
    {s : State} (hon : s.rxOn q false = true) (henable : bitOf (s.reg (winRx q) 0x300) 0 = true) (hc : c < 2)
    (hdue : (s.dec q c).due = t0 :: more)
    (hlaunch : (s.port q).sw.out.dropWhile (fun x => x.l.time != t0) = b :: rest) :
    ∃ t, exec (.decimatedRecord q c lost) s = .next t ∧ (t.dec q c).lastOut = some b.l.ell ∧
      (t.dec q c).due = more.filter (fun u => decide (t0 < u)) ∧ (t.dec q c).active = (s.dec q c).active ∧
      (lost ≠ [] → (t.stat (stDec q)).has 0 = true) := by
  have hexec : exec (.decimatedRecord q c lost) s = .next (s.decimate q c lost b (sinceClear c (b :: rest))) := by
    show execDecimatedRecord q c lost s = _
    simp [execDecimatedRecord, hdue, hlaunch, hon, henable, hc]
  have htime : b.l.time = t0 := by
    have hstop := List.head?_dropWhile_not (fun x : SwLaunch => x.l.time != t0) (s.port q).sw.out
    simpa [hlaunch] using hstop
  obtain ⟨hlast, hkept, hactive, htold⟩ := s.decimate_spec q c lost b (sinceClear c (b :: rest))
  refine ⟨_, hexec, hlast, ?_, hactive, htold⟩
  rw [hkept, hdue, htime]
  exact List.filter_cons_of_neg (by simp)

/-! ## The Lauter bank (R166, R168) -/

namespace State

/-- The value of an object in force depends on the dictionary and the straps alone. -/
theorem pn_of_eq {s t : State} (od : t.od = s.od) (power : t.power = s.power) (q : Port) (i sub : Nat) :
    t.pn q i sub = s.pn q i sub := by
  simp only [pn, nat, obj, nodeHigh, od, power]

/-- A record of a Tide's sums (R168): what it says of the Tide's last launch and of the groups, what the bank keeps, and
that lost points are told. -/
theorem lauterOut_spec (s : State) (q : Port) (k : LautSum) (lost : List Nat) :
    ((s.lauterOut q k lost).port q).laut.done = (s.port q).laut.done ∧
      ((s.lauterOut q k lost).port q).laut.cur = (s.port q).laut.cur ∧
      (((s.lauterOut q k lost).port q).lautRec.map fun r => (r.last, r.groups)) = some (k.last,
        (lautGroups k lost (s.pn q 0x3130 5) ((s.port q).laut.coef k.last)).map fun x => x.2) ∧
      (lost ≠ [] → ((s.lauterOut q k lost).stat (stLt q)).has 1 = true) := by
  unfold lauterOut
  extract_lets v l marked groups time none0 bytes s1 lowBit s2 s3
  have sent : s2.Sends q (s3.deliver q (bitOf v.laut.dest 0) 1 5 (bitOf v.laut.dest 1) 3 time (ellOf l.tide v.m 0)
    l.tideTime 0 bytes) := (((Sends.refl ..).containedEach ..).lautStore ..).deliver ..
  have told : s1.Sends q s2 := (Sends.refl ..).raise ..
  rw [(told.trans sent).laut, (told.trans sent).lautRec, port_modPort_self]
  refine ⟨rfl, rfl, rfl, fun hlost => sent.bits _ _ (stat_has_raise_self _ ?_)⟩
  simp [hlost]

end State

/-- LAUTER_RECORD (R168). -/
theorem lauterRecord_emits {q : Port} {lost : List Nat} {k : LautSum} {s : State} (hon : s.rxOn q false = true)
    (henable : bitOf (s.reg (winRx q) 0x310) 0 = true) (hdone : (s.port q).laut.done = some k) :
    ∃ t, exec (.lauterRecord q lost) s = .next t ∧ (t.port q).laut.done = none ∧
      (t.port q).laut.cur = (s.port q).laut.cur ∧ ((t.port q).lautRec.map fun r => (r.last, r.groups)) = some (k.last,
        (lautGroups k lost (s.pn q 0x3130 5) ((s.port q).laut.coef k.last)).map fun x => x.2) ∧
      (lost ≠ [] → (t.stat (stLt q)).has 1 = true) := by
  have hexec : exec (.lauterRecord q lost) s = .next ((s.modPort q fun ps =>
      { ps with laut := { ps.laut with done := none } }).lauterOut q k lost) := by
    show execLauterRecord q lost s = _
    simp [execLauterRecord, hon, henable, hdone]
  have hspec := (s.modPort q fun ps => { ps with laut := { ps.laut with done := none } }).lauterOut_spec q k lost
  rw [State.pn_of_eq (State.modPort_od ..) (State.modPort_power ..), State.port_modPort_self] at hspec
  exact ⟨_, hexec, hspec⟩

end Sys2Proof.Machine
end

section
/-! The record of the oldest launch in flight (R138), and the obligation. -/
namespace Sys2Proof.Machine
open Sys2Proof

/-- From `s` to `t` local time, port `q`'s launches in flight and what its Swash engine has given have not changed. -/
structure State.KeepsLaunches (s : State) (q : Port) (t : State) : Prop where
  time : t.time = s.time
  flight : (t.port q).flight = (s.port q).flight
  swOut : (t.port q).sw.out = (s.port q).sw.out
  lastLaunch : (t.port q).sw.lastLaunch = (s.port q).sw.lastLaunch

namespace State

namespace KeepsLaunches

variable {s t u : State} {q : Port}

theorem refl (s : State) (q : Port) : s.KeepsLaunches q s := ⟨rfl, rfl, rfl, rfl⟩

theorem trans (h : s.KeepsLaunches q t) (h' : t.KeepsLaunches q u) : s.KeepsLaunches q u :=
  ⟨h'.time.trans h.time, h'.flight.trans h.flight, h'.swOut.trans h.swOut, h'.lastLaunch.trans h.lastLaunch⟩

theorem of_sends (h : s.Sends q t) : s.KeepsLaunches q t := ⟨h.time, h.flight, h.swOut, h.lastLaunch⟩

theorem modPort (h : s.KeepsLaunches q t) {f : PortState → PortState}
    (hf : ∀ p, (f p).flight = p.flight ∧ (f p).sw.out = p.sw.out ∧ (f p).sw.lastLaunch = p.sw.lastLaunch) :
    s.KeepsLaunches q (t.modPort q f) := by
  obtain ⟨hflight, hout, hlast⟩ := hf (t.port q)
  refine h.trans ⟨modPort_time .., ?_, ?_, ?_⟩ <;> rw [port_modPort_self] <;> assumption

theorem modDec (h : s.KeepsLaunches q t) (c : Nat) (f : Decim → Decim) : s.KeepsLaunches q (t.modDec q c f) := by
  refine h.modPort fun p => ?_
  split
  · exact ⟨rfl, rfl, rfl⟩
  · exact ⟨rfl, rfl, rfl⟩

theorem modRx (h : s.KeepsLaunches q t) (f : Rx → Rx) : s.KeepsLaunches q (t.modRx q f) :=
  h.modPort fun _ => ⟨rfl, rfl, rfl⟩

theorem modDet (h : s.KeepsLaunches q t) (f : Detect → Detect) : s.KeepsLaunches q (t.modDet q f) :=
  h.modPort fun _ => ⟨rfl, rfl, rfl⟩

/-- A branch is taken or it is not. -/
theorem ite {c : Prop} [Decidable c] (h : s.KeepsLaunches q t) (h' : s.KeepsLaunches q u) :
    s.KeepsLaunches q (if c then t else u) := by
  split
  · exact h
  · exact h'

theorem raiseIf (h : s.KeepsLaunches q t) (c : Bool) (k b : Nat) : s.KeepsLaunches q (t.raiseIf c k b) :=
  h.trans (.of_sends (.ite ((Sends.refl ..).raise ..) (.refl ..)))

end KeepsLaunches

/-! ## The record at the receiver -/

theorem keepsLaunches_rxRecord (s : State) (q : Port) (l : Launch) (r : SlotRecord) (st : Stream) :
    s.KeepsLaunches q (s.rxRecord q l r st) := by
  unfold rxRecord
  exact (KeepsLaunches.refl s q).modRx _

theorem keepsLaunches_aliasRecord (s : State) (q : Port) (l : Launch) (r : SlotRecord) :
    s.KeepsLaunches q (s.aliasRecord q l r) := by
  unfold aliasRecord
  split
  · exact .refl s q
  · exact (KeepsLaunches.refl s q).modPort fun _ => ⟨rfl, rfl, rfl⟩

theorem keepsLaunches_wort (s : State) (q : Port) (l : Launch) (r : Stream) : s.KeepsLaunches q (s.wort q l r) := by
  unfold wort
  exact .ite (KeepsLaunches.raiseIf (.of_sends ((Sends.refl s q).toRing _)) _ _ _) (.refl s q)

@[simp] theorem rxRecord_regs (s : State) (q : Port) (l : Launch) (r : SlotRecord) (st : Stream) :
    (s.rxRecord q l r st).regs = s.regs :=
  modRx_regs ..

@[simp] theorem aliasRecord_regs (s : State) (q : Port) (l : Launch) (r : SlotRecord) :
    (s.aliasRecord q l r).regs = s.regs := by
  unfold aliasRecord
  split
  · rfl
  · exact modPort_regs ..

@[simp] theorem wort_regs (s : State) (q : Port) (l : Launch) (r : Stream) : (s.wort q l r).regs = s.regs := by
  unfold wort
  split
  · exact (raiseIf_regs ..).trans (toRing_regs ..)
  · rfl

/-! ## The Swash engine and its histories -/

theorem sw_modSw (s : State) (q : Port) (f : Swash → Swash) : ((s.modSw q f).port q).sw = f (s.port q).sw := by
  rw [modSw, port_modPort_self]

theorem flight_modSw (s : State) (q : Port) (f : Swash → Swash) :
    ((s.modSw q f).port q).flight = (s.port q).flight := by
  rw [modSw, port_modPort_self]

theorem keepsLaunches_clearAt (s : State) (q : Port) (l : Launch) : s.KeepsLaunches q (s.clearAt q l) :=
  (((KeepsLaunches.refl s q).modDec _ _).modDec _ _).raiseIf _ _ _

theorem keepsLaunches_decDue (s : State) (q : Port) (l : Launch) : s.KeepsLaunches q (s.decDue q l) := by
  unfold decDue
  exact ((KeepsLaunches.refl s q).modDec _ _).modDec _ _

theorem keepsLaunches_detChange (s : State) (q : Port) (nth : Nat) (clear : Bool) :
    s.KeepsLaunches q (s.detChange q nth clear) :=
  (KeepsLaunches.refl s q).modDet _

theorem keepsLaunches_lauterLaunch (s : State) (q : Port) (o : SwLaunch) : s.KeepsLaunches q (s.lauterLaunch q o) := by
  have counted : ∀ f : Swash → List SwPoint, s.KeepsLaunches q (s.modSw q fun w => { w with pts := f w }) := fun f =>
    (KeepsLaunches.refl s q).modPort fun _ => ⟨rfl, rfl, rfl⟩
  unfold lauterLaunch
  dsimp only
  split
  · refine KeepsLaunches.modPort (.ite ?_ (counted _)) fun _ => ⟨rfl, rfl, rfl⟩
    exact (counted _).trans (keepsLaunches_detChange ..)
  · exact (counted _).modPort fun _ => ⟨rfl, rfl, rfl⟩

/-- The Swash stages on a launch's record (R138): the launch is the engine's latest, with a word for each output
point. -/
theorem swash_spec (s : State) (q : Port) (l : Launch) (r : Stream) :
    (s.swash q l r).time = s.time ∧ ((s.swash q l r).port q).flight = (s.port q).flight ∧
      ((s.swash q l r).port q).sw.lastLaunch = some l ∧
      ∃ o, ((s.swash q l r).port q).sw.out.head? = some o ∧ o.l = l ∧ o.words.length = l.cfg.n := by
  unfold swash
  extract_lets v k sw full fresh pts lastH ref x0 bad hsum h x outs ws qs count suspects capped lost flag restarts s0 s1
    bits s2 s3 t invalid s4 qrec s5
  have told : s1.Sends q s3 := ((Sends.refl ..).raise ..).containedEach ..
  have delivered : s1.Sends q s5 := ((told.deliver ..).deliver ..).toBrew _
  have sent : s1.Sends q (if s5.tideDone q l then s5.anchorRecord q else s5) := .ite delivered.anchorRecord delivered
  have hflight : (s1.port q).flight = (s.port q).flight :=
    (flight_modSw s0 q _).trans (congrArg PortState.flight (port_of_eq (s := s) (t := s0) rfl rfl q))
  have hwords : ws.length = v.n := by
    simp only [ws, outs, upTo, List.length_map, List.length_range]
  rw [sent.time, sent.flight, sent.lastLaunch, sent.swOut, sw_modSw]
  exact ⟨modSw_time .., hflight, rfl, _, rfl, rfl, hwords⟩

end State

/-! ## The command -/

namespace State

theorem time_advance (s : State) (t : Nat) : (s.advance t).time.now = max s.time.now t := by
  unfold advance
  dsimp only
  split
  next h => exact (Nat.max_eq_left h).symm
  next h => exact (Nat.max_eq_right (Nat.le_of_not_le h)).symm

theorem rxOn_of_power_eq {s t : State} (h : t.power = s.power) (q : Port) (kiln : Bool) :
    t.rxOn q kiln = s.rxOn q kiln := by
  simp only [rxOn, up, domain, h]

/-- R138: the record of `l`, the oldest launch in flight, is complete; those of `rest` are still to come. -/
def recordEnd (s : State) (q : Port) (l : Launch) (rest : List Launch) : State :=
  (s.modPort q fun ps => { ps with flight := rest }).advance (l.time + 8 * (l.cfg.w + l.cfg.c))

/-- The receiver's part in a record: its counts, the guard channel and the wort record, while the receiver is
enabled. -/
def received (s : State) (q : Port) (l : Launch) (r : SlotRecord) : State :=
  if bitOf (s.reg (winRx q) 0) 0 then
    ((s.rxRecord q l r (s.slotStream q l r)).aliasRecord q l r).wort q l (s.slotStream q l r)
  else s

/-- The Swash engine's part in a record, with the histories' clears and the outputs that fall due. -/
def swashed (s : State) (q : Port) (l : Launch) (st : Stream) : State := ((s.clearAt q l).swash q l st).decDue q l

/-- The record of `l` has come as far as the Lauter bank. -/
def recorded (s : State) (q : Port) (r : SlotRecord) (l : Launch) (rest : List Launch) : State :=
  ((s.recordEnd q l rest).received q l r).swashed q l ((s.recordEnd q l rest).slotStream q l r)

theorem keepsLaunches_received (s : State) (q : Port) (l : Launch) (r : SlotRecord) :
    s.KeepsLaunches q (s.received q l r) :=
  .ite (((keepsLaunches_rxRecord ..).trans (keepsLaunches_aliasRecord ..)).trans (keepsLaunches_wort ..)) (.refl s q)

theorem received_regs (s : State) (q : Port) (l : Launch) (r : SlotRecord) : (s.received q l r).regs = s.regs := by
  unfold received
  split
  · simp
  · rfl

theorem swashed_spec (s : State) (q : Port) (l : Launch) (st : Stream) :
    (s.swashed q l st).time = s.time ∧ ((s.swashed q l st).port q).flight = (s.port q).flight ∧
      ((s.swashed q l st).port q).sw.lastLaunch = some l ∧
      ∃ o, ((s.swashed q l st).port q).sw.out.head? = some o ∧ o.l = l ∧ o.words.length = l.cfg.n := by
  have cleared := keepsLaunches_clearAt s q l
  have due := keepsLaunches_decDue ((s.clearAt q l).swash q l st) q l
  obtain ⟨htime, hflight, hlast, hout⟩ := swash_spec (s.clearAt q l) q l st
  unfold swashed
  rw [due.time, due.flight, due.lastLaunch, due.swOut]
  exact ⟨htime.trans cleared.time, hflight.trans cleared.flight, hlast, hout⟩

theorem recordEnd_spec (s : State) (q : Port) (l : Launch) (rest : List Launch) :
    (s.recordEnd q l rest).time.now = max s.time.now (l.time + 8 * (l.cfg.w + l.cfg.c)) ∧
      ((s.recordEnd q l rest).port q).flight = rest ∧ (s.recordEnd q l rest).regs = s.regs := by
  unfold recordEnd
  rw [time_advance, modPort_time, port_of_eq (advance_pa ..) (advance_pb ..), port_modPort_self, advance_regs,
    modPort_regs]
  exact ⟨rfl, rfl, rfl⟩

theorem recorded_spec (s : State) (q : Port) (r : SlotRecord) (l : Launch) (rest : List Launch) :
    (s.recorded q r l rest).time.now = max s.time.now (l.time + 8 * (l.cfg.w + l.cfg.c)) ∧
      ((s.recorded q r l rest).port q).flight = rest ∧ ((s.recorded q r l rest).port q).sw.lastLaunch = some l ∧
      ∃ o, ((s.recorded q r l rest).port q).sw.out.head? = some o ∧ o.l = l ∧ o.words.length = l.cfg.n := by
  obtain ⟨hnow, hrest, -⟩ := s.recordEnd_spec q l rest
  have received := keepsLaunches_received (s.recordEnd q l rest) q l r
  obtain ⟨htime, hflight, hgiven⟩ := swashed_spec ((s.recordEnd q l rest).received q l r) q l
    ((s.recordEnd q l rest).slotStream q l r)
  unfold recorded
  rw [htime, hflight, received.time, received.flight]
  exact ⟨hnow, hrest, hgiven⟩

end State

/-- The course of SWASH_LAUNCH_RECORDS while receiver and Swash engine are on (R138). -/
theorem exec_swashLaunchRecords {q : Port} {r : SlotRecord} {l : Launch} {rest : List Launch} {s : State} {o : SwLaunch}
    (hflight : (s.port q).flight = l :: rest) (hon : s.rxOn q false = true)
    (henable : bitOf (s.reg (winRx q) 0x200) 0 = true)
    (hout : ((s.recorded q r l rest).port q).sw.out.head? = some o) :
    exec (.swashLaunchRecords q r) s = .next ((s.recorded q r l rest).lauterLaunch q o) := by
  have hon' : (s.modPort q fun ps => { ps with flight := rest }).rxOn q false = true :=
    (State.rxOn_of_power_eq (State.modPort_power ..) q false).trans hon
  obtain ⟨-, -, hregs⟩ := s.recordEnd_spec q l rest
  have henable' : bitOf (((s.recordEnd q l rest).received q l r).reg (winRx q) 0x200) 0 = true := by
    rw [State.reg_of_regs_eq ((State.received_regs ..).trans hregs)]
    exact henable
  show execSwashLaunchRecords q r s = _
  unfold execSwashLaunchRecords
  rw [hflight]
  refine (if_pos hon').trans ((if_pos henable').trans ?_)
  show (match ((s.recorded q r l rest).port q).sw.out.head? with
    | some o => _
    | none => _) = _
  rw [hout]
  rfl

/-- SWASH_LAUNCH_RECORDS (R138). -/
theorem swashLaunchRecords_gives {q : Port} {r : SlotRecord} {l : Launch} {rest : List Launch} {s : State}
    (hflight : (s.port q).flight = l :: rest) (hon : s.rxOn q false = true)
    (henable : bitOf (s.reg (winRx q) 0x200) 0 = true) :
    ∃ t, exec (.swashLaunchRecords q r) s = .next t ∧ (t.port q).flight = rest ∧ (t.port q).sw.lastLaunch = some l ∧
      t.time.now = max s.time.now (l.time + 8 * (l.cfg.w + l.cfg.c)) ∧
      ((t.port q).sw.out.head?.map fun o => (o.l.ell, o.words.length)) = some (l.ell, l.cfg.n) := by
  obtain ⟨hnow, hrest, hlast, o, hout, hlaunch, hwords⟩ := s.recorded_spec q r l rest
  have bank := State.keepsLaunches_lauterLaunch (s.recorded q r l rest) q o
  refine ⟨_, exec_swashLaunchRecords hflight hon henable hout, ?_⟩
  rw [bank.flight, bank.lastLaunch, bank.time, bank.swOut, hout, Option.map_some, hlaunch, hwords]
  exact ⟨hrest, hlast, hnow, rfl⟩

/-- Settles O8: each clause is the lemma of its command. -/
theorem swashAndDecimation : Obligations.SwashAndDecimation :=
  ⟨fun _ _ _ _ _ => swashLaunchRecords_gives, fun _ _ _ _ _ _ _ _ => decimatedRecord_emits,
    fun _ _ _ _ _ => bankSwap_swaps, fun _ _ _ _ => lauterRecord_emits, fun _ _ _ _ _ => bankSelect_served,
    fun _ _ _ _ _ _ => bankLoad_served⟩

end Sys2Proof.Machine
end

section
/-! The Kiln engine's shots and accumulations (R180–R182): what a launch's record does to the accumulation in progress,
and the obligation. -/
namespace Sys2Proof.Machine
open Sys2Proof

/-- R90: the clips of a record's two channels join those of the Tide. -/
def Rx.kilnClipsAdded (n : List Nat) (x : Rx) : Rx :=
  { x with kClips := (upTo 2).map fun c => x.kClips.getD c 0 + n.getD c 0 }

theorem Rx.kCal_kilnClipsAdded (n : List Nat) (x : Rx) : (x.kilnClipsAdded n).kCal = x.kCal := rfl

namespace State

/-! ## The Kiln engine's part of a port -/

@[simp] theorem kiln_modKiln (s : State) (q : Port) (f : Kiln → Kiln) :
    ((s.modKiln q f).port q).kiln = f (s.port q).kiln := by
  rw [modKiln, port_modPort_self]

@[simp] theorem rx_modKiln (s : State) (q : Port) (f : Kiln → Kiln) :
    ((s.modKiln q f).port q).rx = (s.port q).rx := by
  rw [modKiln, port_modPort_self]

@[simp] theorem kiln_modRx (s : State) (q : Port) (f : Rx → Rx) : ((s.modRx q f).port q).kiln = (s.port q).kiln := by
  rw [modRx, port_modPort_self]

@[simp] theorem port_advance (s : State) (t : Nat) (q : Port) : (s.advance t).port q = s.port q :=
  port_of_eq (advance_pa ..) (advance_pb ..) q

@[simp] theorem port_withBrew (s : State) (b : Brew) (q : Port) : ({ s with brew := b } : State).port q = s.port q :=
  port_of_eq rfl rfl q

/-- Whether the Kiln block runs depends on its domain, its enable bit and its converters' calibration alone. -/
theorem kilnRuns_of_eq {s t : State} {q : Port} (power : t.power = s.power) (regs : t.regs = s.regs)
    (rx : (t.port q).rx = (s.port q).rx) : t.kilnRuns q = s.kilnRuns q := by
  simp only [kilnRuns, up, kilnEnabled, domain, reg_of_regs_eq regs, power, rx]

/-! ## A shot's record (R83, R90, R180, R181) -/

/-- From `s` to `t` nothing that a Kiln record is read with has changed: the grid, the registers, the dictionary, and
the corrections of port `q`'s Kiln converters. -/
structure ReadsAlike (s : State) (q : Port) (t : State) : Prop where
  tide : t.tide = s.tide
  regs : t.regs = s.regs
  od : t.od = s.od
  power : t.power = s.power
  use : (t.port q).rx.kCal.use = (s.port q).rx.kCal.use

namespace ReadsAlike

variable {s t u : State} {q : Port}

theorem trans (h : s.ReadsAlike q t) (h' : t.ReadsAlike q u) : s.ReadsAlike q u :=
  ⟨h'.tide.trans h.tide, h'.regs.trans h.regs, h'.od.trans h.od, h'.power.trans h.power, h'.use.trans h.use⟩

theorem of_modKiln (s : State) (q : Port) (f : Kiln → Kiln) : s.ReadsAlike q (s.modKiln q f) :=
  ⟨modKiln_tide .., modKiln_regs .., modKiln_od .., modKiln_power .., by rw [rx_modKiln]⟩

theorem of_advance (s : State) (q : Port) (t : Nat) : s.ReadsAlike q (s.advance t) :=
  ⟨advance_tide .., advance_regs .., advance_od .., advance_power .., by rw [port_advance]⟩

theorem of_modRx (s : State) (q : Port) {f : Rx → Rx} (hf : ∀ r, (f r).kCal = r.kCal) : s.ReadsAlike q (s.modRx q f) :=
  ⟨modRx_tide .., modRx_regs .., modRx_od .., modRx_power .., by rw [rx_modRx, hf]⟩

theorem kilnMode16 (h : s.ReadsAlike q t) : t.kilnMode16 q = s.kilnMode16 q := by
  simp only [State.kilnMode16, reg_of_regs_eq h.regs]

theorem kilnDelay (h : s.ReadsAlike q t) : t.kilnDelay q = s.kilnDelay q := by
  simp only [State.kilnDelay, pn_of_eq h.od h.power]

theorem kilnClipped (h : s.ReadsAlike q t) (l : Launch) (r : KilnRecord) :
    t.kilnClipped q l r = s.kilnClipped q l r := by
  simp only [State.kilnClipped, State.kilnCount, h.kilnMode16, h.kilnDelay, reg_of_regs_eq h.regs, h.tide]

theorem shotCodes (h : s.ReadsAlike q t) (m16 : Bool) (bins shift : Nat) (r : KilnRecord) :
    t.shotCodes q m16 bins shift r = s.shotCodes q m16 bins shift r := by
  simp only [State.shotCodes, h.kilnDelay, h.use, reg_of_regs_eq h.regs]

end ReadsAlike

/-- A record's part in a shape calibration (R187) leaves the accumulation and the launches in flight as they are. -/
theorem shapeShot_spec (s : State) (q : Port) (l : Launch) (r : KilnRecord) :
    s.ReadsAlike q (s.shapeShot q l r) ∧ (s.shapeShot q l r).time = s.time ∧
      ((s.shapeShot q l r).port q).kiln.acc = (s.port q).kiln.acc ∧
      ((s.shapeShot q l r).port q).kiln.flight = (s.port q).kiln.flight := by
  unfold shapeShot
  dsimp only
  split
  · refine ⟨.of_modKiln .., modKiln_time .., ?_, ?_⟩
    · rw [kiln_modKiln, apply_ite Kiln.acc, ite_self]
    · rw [kiln_modKiln, apply_ite Kiln.flight, ite_self]
  · exact ⟨⟨rfl, rfl, rfl, rfl, rfl⟩, rfl, rfl, rfl⟩

/-- R83: the Kiln record of `l`, the oldest slot 0 launch in flight, is complete; those of `rest` are still to come. -/
def kilnRecordEnd (s : State) (q : Port) (l : Launch) (rest : List Launch) : State :=
  (s.modKiln q fun k => { k with flight := rest }).advance (l.time + 8 * l.cfg.w)

/-- The record of `l` has come as far as the accumulation: its clips are counted (R90), and it has entered the run of a
shape calibration (R187). -/
def kilnRecorded (s : State) (q : Port) (r : KilnRecord) (l : Launch) (rest : List Launch) : State :=
  ((s.kilnRecordEnd q l rest).modRx q (·.kilnClipsAdded (s.kilnClipped q l r).2)).shapeShot q l r

theorem readsAlike_kilnRecordEnd (s : State) (q : Port) (l : Launch) (rest : List Launch) :
    s.ReadsAlike q (s.kilnRecordEnd q l rest) :=
  (ReadsAlike.of_modKiln ..).trans (.of_advance ..)

theorem kilnRecorded_spec (s : State) (q : Port) (r : KilnRecord) (l : Launch) (rest : List Launch) :
    s.ReadsAlike q (s.kilnRecorded q r l rest) ∧
      (s.kilnRecorded q r l rest).time.now = max s.time.now (l.time + 8 * l.cfg.w) ∧
      ((s.kilnRecorded q r l rest).port q).kiln.acc = (s.port q).kiln.acc ∧
      ((s.kilnRecorded q r l rest).port q).kiln.flight = rest := by
  have ended := s.readsAlike_kilnRecordEnd q l rest
  unfold kilnRecorded
  obtain ⟨hreads, htime, hacc, hflight⟩ :=
    shapeShot_spec ((s.kilnRecordEnd q l rest).modRx q (·.kilnClipsAdded (s.kilnClipped q l r).2)) q l r
  refine ⟨(ended.trans (.of_modRx _ q (Rx.kCal_kilnClipsAdded _))).trans hreads, ?_, ?_, ?_⟩
  · rw [htime, modRx_time, kilnRecordEnd, time_advance, modKiln_time]
  · rw [hacc, kiln_modRx, kilnRecordEnd, port_advance, kiln_modKiln]
  · rw [hflight, kiln_modRx, kilnRecordEnd, port_advance, kiln_modKiln]

/-! ## A shot counted (R180, R181) -/

/-- A dropped shot is counted and shown, and adds nothing. -/
theorem kilnCount1_drop (s : State) (q : Port) (l : Launch) (a : KilnAcc) (r : KilnRecord) (unlocked : Bool) :
    ((s.kilnCount1 q l a r true unlocked).port q).kiln.flight = (s.port q).kiln.flight ∧
      (((s.kilnCount1 q l a r true unlocked).port q).kiln.acc.map fun b => (b.accepted, b.dropped, b.cells)) =
        some (a.accepted, a.dropped + 1, a.cells) ∧
      ((s.kilnCount1 q l a r true unlocked).stat (stKiln q)).has 2 = true := by
  simp only [kilnCount1, if_true, port_raise, kiln_modKiln, Option.map_some, true_and]
  exact stat_has_raise_self _ (List.mem_append_left _ (List.mem_singleton_self 2))

/-- An accepted shot is counted and adds its power codes. -/
theorem kilnCount1_accept (s : State) (q : Port) (l : Launch) (a : KilnAcc) (r : KilnRecord) (unlocked : Bool) :
    ((s.kilnCount1 q l a r false unlocked).port q).kiln.flight = (s.port q).kiln.flight ∧
      (((s.kilnCount1 q l a r false unlocked).port q).kiln.acc.map fun b => (b.accepted, b.dropped, b.last, b.cells)) =
        some (a.accepted + 1, a.dropped, l.time, (a.add (s.shotCodes q a.cfg.mode16 a.cfg.bins a.cfg.shift r)).cells) ∧
      (s.kilnCount1 q l a r false unlocked).time = s.time := by
  simp [kilnCount1, KilnAcc.add]

end State

/-! ## The commands -/

section
variable {q : Port} {s : State} {a : KilnAcc}

/-- KILN_ACCUMULATION_START (R182). -/
theorem kilnAccumulationStart_starts {l : Launch} (hlast : (s.port q).kiln.flight.getLast? = some l)
    (hruns : s.kilnRuns q = true) (hon : s.kilnOn q = true) (hwaiting : (s.port q).kiln.waiting = true)
    (hnone : (s.port q).kiln.acc = none) (hfrom : (s.port q).kiln.waitAt ≤ l.time) (hlive : s.live q = true)
    (hlit : l.dark = false) (hlocked : (s.port q).syn.locked = true) :
    ∃ t, exec (.kilnAccumulationStart q) s = .next t ∧ (t.port q).kiln.waiting = false ∧
      (t.port q).kiln.flight = (s.port q).kiln.flight ∧
      ((t.port q).kiln.acc.map fun a => (a.cfg, a.start, a.accepted, a.dropped, a.buf)) =
        some (s.kilnCfg q, l.time, 0, 0, (s.port q).kiln.next) := by
  have hstarts : (s.kilnRuns q && s.kilnOn q && (s.port q).kiln.waiting && (s.port q).kiln.acc.isNone &&
      decide ((s.port q).kiln.waitAt ≤ l.time) && s.live q && !l.dark && (s.port q).syn.locked) = true := by
    simp [hruns, hon, hwaiting, hnone, hfrom, hlive, hlit, hlocked]
  show ∃ t, execKilnAccumulationStart q s = .next t ∧ _
  unfold execKilnAccumulationStart
  dsimp only
  rw [hlast]
  dsimp only
  rw [if_pos hstarts]
  refine ⟨_, rfl, ?_⟩
  rw [State.kiln_modKiln, State.kiln_modRx]
  exact ⟨rfl, rfl, rfl⟩

/-- The course of KILN_SHOT while an accumulation has room for the shot (R180, R181). -/
theorem exec_kilnShot {r : KilnRecord} {l : Launch} {rest : List Launch} (unlocked : Bool)
    (hflight : (s.port q).kiln.flight = l :: rest) (hruns : s.kilnRuns q = true) (hacc : (s.port q).kiln.acc = some a)
    (hroom : a.accepted + a.dropped < 2 ^ a.cfg.shots) (hstart : a.start ≤ l.time) :
    exec (.kilnShot q r unlocked) s = .next ((s.kilnRecorded q r l rest).kilnCount1 q l a r
      ((s.kilnClipped q l r).1 || l.dark || l.tuning || l.missing || (unlocked || l.synOff))
      (unlocked || l.synOff)) := by
  have hruns' : (s.modKiln q fun k => { k with flight := rest }).kilnRuns q = true :=
    (State.kilnRuns_of_eq (State.modKiln_power ..) (State.modKiln_regs ..) (State.rx_modKiln ..)).trans hruns
  have hclips := (s.readsAlike_kilnRecordEnd q l rest).kilnClipped l r
  obtain ⟨-, -, hacc', -⟩ := s.kilnRecorded_spec q r l rest
  show execKilnShot q r unlocked s = _
  unfold execKilnShot
  rw [hflight]
  refine (if_pos hruns').trans ?_
  rw [State.kilnRecordEnd] at hclips
  dsimp only
  rw [hclips]
  show (match ((s.kilnRecorded q r l rest).port q).kiln.acc with
    | none => _
    | some a => _) = _
  rw [hacc', hacc]
  exact if_pos ⟨hroom, hstart⟩

/-- KILN_SHOT of a shot that nothing drops (R181). -/
theorem kilnShot_accepts {r : KilnRecord} {l : Launch} {rest : List Launch}
    (hflight : (s.port q).kiln.flight = l :: rest) (hruns : s.kilnRuns q = true) (hacc : (s.port q).kiln.acc = some a)
    (hroom : a.accepted + a.dropped < 2 ^ a.cfg.shots) (hstart : a.start ≤ l.time) (hlit : l.dark = false)
    (htuned : l.tuning = false) (hthere : l.missing = false) (hlocked : l.synOff = false)
    (hclip : (s.kilnClipped q l r).1 = false) :
    ∃ t, exec (.kilnShot q r false) s = .next t ∧ (t.port q).kiln.flight = rest ∧
      ((t.port q).kiln.acc.map fun b => (b.accepted, b.dropped, b.last, b.cells)) =
        some (a.accepted + 1, a.dropped, l.time, (a.add (s.shotCodes q a.cfg.mode16 a.cfg.bins a.cfg.shift r)).cells) ∧
      t.time.now = max s.time.now (l.time + 8 * l.cfg.w) := by
  have hexec := exec_kilnShot (r := r) false hflight hruns hacc hroom hstart
  rw [hclip, hlit, htuned, hthere, hlocked] at hexec
  obtain ⟨hreads, hnow, -, hrest⟩ := s.kilnRecorded_spec q r l rest
  obtain ⟨hflight', hacc', htime⟩ := (s.kilnRecorded q r l rest).kilnCount1_accept q l a r false
  rw [hreads.shotCodes] at hacc'
  exact ⟨_, hexec, hflight'.trans hrest, hacc', (congrArg TimeBase.now htime).trans hnow⟩

/-- KILN_SHOT of a shot that is dropped (R180). -/
theorem kilnShot_drops {r : KilnRecord} {unlocked : Bool} {l : Launch} {rest : List Launch}
    (hflight : (s.port q).kiln.flight = l :: rest) (hruns : s.kilnRuns q = true) (hacc : (s.port q).kiln.acc = some a)
    (hroom : a.accepted + a.dropped < 2 ^ a.cfg.shots) (hstart : a.start ≤ l.time)
    (hbad : (s.kilnClipped q l r).1 = true ∨ l.dark = true ∨ l.tuning = true ∨ l.missing = true ∨ l.synOff = true ∨
      unlocked = true) :
    ∃ t, exec (.kilnShot q r unlocked) s = .next t ∧ (t.port q).kiln.flight = rest ∧
      ((t.port q).kiln.acc.map fun b => (b.accepted, b.dropped, b.cells)) =
        some (a.accepted, a.dropped + 1, a.cells) ∧ (t.stat (stKiln q)).has 2 = true := by
  have hdrop : ((s.kilnClipped q l r).1 || l.dark || l.tuning || l.missing || (unlocked || l.synOff)) = true := by
    obtain h | h | h | h | h | h := hbad <;> simp only [h, Bool.or_true, Bool.true_or]
  have hexec := exec_kilnShot (r := r) unlocked hflight hruns hacc hroom hstart
  rw [hdrop] at hexec
  obtain ⟨-, -, -, hrest⟩ := s.kilnRecorded_spec q r l rest
  obtain ⟨hflight', hcounted⟩ := (s.kilnRecorded q r l rest).kilnCount1_drop q l a r (unlocked || l.synOff)
  exact ⟨_, hexec, hflight'.trans hrest, hcounted⟩

/-- KILN_ACCUMULATION_COMPLETE (R182). -/
theorem kilnAccumulationComplete_queues (hruns : s.kilnRuns q = true) (hacc : (s.port q).kiln.acc = some a)
    (hfull : a.accepted + a.dropped = 2 ^ a.cfg.shots) :
    ∃ t, exec (.kilnAccumulationComplete q) s = .next t ∧ (t.port q).kiln.acc = none ∧
      (t.port q).kiln.waiting = s.kilnOn q ∧ (t.port q).kiln.next = 1 - a.buf ∧
      (t.port q).kiln.seq = ((s.port q).kiln.seq + 1) % 2 ^ 32 ∧
      ((t.port q).kiln.fits.getLast?.map fun f => f.acc) = some a ∧ t.brew.fitQueue = s.brew.fitQueue ++ [q] ∧
      (t.stat (stKiln q)).has 0 = true := by
  have hdone : (s.kilnRuns q && a.accepted + a.dropped == 2 ^ a.cfg.shots) = true := by
    simp [hruns, hfull]
  show ∃ t, execKilnAccumulationComplete q s = .next t ∧ _
  unfold execKilnAccumulationComplete
  dsimp only
  rw [hacc]
  dsimp only
  rw [if_pos hdone]
  refine ⟨_, rfl, ?_⟩
  rw [State.port_raise, State.port_withBrew, State.kiln_modKiln, State.raise_brew]
  refine ⟨rfl, rfl, rfl, rfl, ?_, ?_, State.stat_has_raise_self _ (List.mem_singleton_self 0)⟩
  · rw [List.getLast?_concat, Option.map_some]
  · rw [State.modKiln_brew]

end

/-- Settles O9: each clause is the lemma of its command. -/
theorem kilnAccumulation : Obligations.KilnAccumulation :=
  ⟨fun _ _ _ => kilnAccumulationStart_starts, fun _ _ _ _ _ _ => kilnShot_accepts,
    fun _ _ _ _ _ _ _ => kilnShot_drops, fun _ _ _ => kilnAccumulationComplete_queues⟩

end Sys2Proof.Machine
end

section
/-! The Kiln engine's fits (R183, R189, R220): how a fit is given to the fit pool's cores, and how it ends. -/
namespace Sys2Proof.Machine
open Sys2Proof

namespace State

/-! ## Cores at work (R216, R220) -/

/-- Core `c` runs for `w`. -/
def RunsFor (s : State) (c : Nat) (w : Work) : Prop :=
  (s.brew.cores.getD c {}).running = true ∧ (s.brew.cores.getD c {}).work = some w

theorem getD_modCore (s : State) (c d : Nat) (f : Core → Core) (h : d < s.brew.cores.length) :
    (s.modCore c f).brew.cores.getD d {} = if d = c then f (s.brew.cores.getD d {}) else s.brew.cores.getD d {} := by
  rw [modCore, List.getD_eq_getElem?_getD, getElem?_modAt, List.getElem?_eq_getElem h]
  split
  next hcd => simp [h, hcd]
  next hcd => simp [h, Ne.symm hcd]

theorem length_cores_modCore (s : State) (c : Nat) (f : Core → Core) :
    (s.modCore c f).brew.cores.length = s.brew.cores.length :=
  length_modAt ..

/-- R216: each core of a dispatch runs for its work, and one that already does still does. -/
theorem dispatch_runsFor (s : State) (w : Work) (cores : List Nat) {c : Nat} (hc : c < s.brew.cores.length)
    (h : c ∈ cores ∨ s.RunsFor c w) : (s.dispatch w cores).RunsFor c w := by
  induction cores generalizing s with
  | nil => exact h.resolve_left List.not_mem_nil
  | cons d ds ih =>
    refine ih _ (by rwa [length_cores_modCore]) ?_
    by_cases hd : c = d
    · refine .inr ?_
      rw [RunsFor, getD_modCore _ _ _ _ hc, if_pos hd]
      exact ⟨rfl, rfl⟩
    · refine (h.imp_left fun hmem => (List.mem_cons.mp hmem).resolve_left hd).imp_right fun hruns => ?_
      rwa [RunsFor, getD_modCore _ _ _ _ hc, if_neg hd]

/-- A dispatch changes cores alone. -/
theorem dispatch_keeps (s : State) (w : Work) (cores : List Nat) (q : Port) :
    (s.dispatch w cores).port q = s.port q ∧ (s.dispatch w cores).brew.fitQueue = s.brew.fitQueue := by
  induction cores generalizing s with
  | nil => exact ⟨rfl, rfl⟩
  | cons d ds ih => exact ih (s.modCore d fun k => k.start w 0 none s.time.now)

/-- No core of a state works on `w`. -/
def WorkDone (s : State) (w : Work) : Prop := ∀ k ∈ s.brew.cores, k.work ≠ some w

theorem workDone_halt (s : State) (w : Work) : (s.halt w).WorkDone w := by
  intro k hk
  obtain ⟨c, -, rfl⟩ := List.mem_map.mp hk
  split
  next h => exact Option.some_ne_none w |>.symm
  next h => exact h

theorem WorkDone.of_brew_eq {s t : State} {w : Work} (h : s.WorkDone w) (hbrew : t.brew = s.brew) : t.WorkDone w := by
  rwa [WorkDone, hbrew]

@[simp] theorem port_halt (s : State) (w : Work) (q : Port) : (s.halt w).port q = s.port q :=
  port_of_eq rfl rfl q

/-! ## The oldest fit -/

theorem kiln_modFit {s : State} {q : Port} {f : KilnFit} {more : List KilnFit}
    (hfits : (s.port q).kiln.fits = f :: more) (g : KilnFit → KilnFit) : ((s.modFit q g).port q).kiln = { (s.port q).kiln with fits := g f :: more } := by
  rw [modFit, kiln_modKiln, hfits]

@[simp] theorem modFit_brew (s : State) (q : Port) (g : KilnFit → KilnFit) : (s.modFit q g).brew = s.brew :=
  modKiln_brew ..

/-- The cores of the ranges are those that they are split over, in their order. -/
theorem map_fst_splitRanges (cores : List Nat) (n : Nat) : (splitRanges cores n).map (fun x => x.1) = cores := by
  simp only [splitRanges, upTo, List.map_map, Function.comp_def]
  exact List.ext_getElem (by simp) fun i h _ => by simp at h; simp [h]

/-- Where each step leaves the Brewhouse as it is, all of them do. -/
theorem brew_foldl {α : Type} {f : State → α → State} (hf : ∀ u x, (f u x).brew = u.brew) (l : List α) (s : State) :
    (l.foldl f s).brew = s.brew := by
  induction l generalizing s with
  | nil => rfl
  | cons x xs ih => exact (ih (f s x)).trans (hf s x)

/-- R183, R189: the oldest fit has ended with its bins' results, and no core works for it. -/
theorem endFit_spec {s : State} {q : Port} {f : KilnFit} {more : List KilnFit}
    (hfits : (s.port q).kiln.fits = f :: more) (poison : List Nat) (over_ : Bool) (unfit : Nat → Bool) :
    (∃ bins, ((s.endFit q f poison over_ unfit).port q).kiln = { (s.port q).kiln with
      fits := { f with bins := some bins, over_ := over_, endedAt := s.tide.edges } :: more }) ∧
      (s.endFit q f poison over_ unfit).WorkDone (.fit q) := by
  unfold endFit
  extract_lets r n ended
  have hended : (ended.port q).kiln = { (s.port q).kiln with
      fits := { f with bins := some r, over_ := over_, endedAt := s.tide.edges } :: more } := by
    rw [port_halt, kiln_modFit hfits]
  have hdone : ended.WorkDone (.fit q) := workDone_halt _ _
  split
  · exact ⟨⟨r, hended⟩, hdone⟩
  · refine ⟨⟨r, ?_⟩, hdone.of_brew_eq ?_⟩
    · rw [port_foldl fun _ _ => port_contained .., port_raise, hended]
    · rw [brew_foldl fun _ _ => contained_brew .., raise_brew]

end State

/-! ## The commands -/

section
variable {q : Port} {s : State} {f : KilnFit} {more : List KilnFit}

/-- KILN_FIT_DISPATCH (R220). -/
theorem kilnFitDispatch_dispatches {rest : List Port} (hon : s.brewOn = true) (hqueue : s.brew.fitQueue = q :: rest)
    (hfits : (s.port q).kiln.fits = f :: more) (hranges : f.ranges = none) (hbins : f.bins = none)
    (hcores : s.poolCores 4 ≠ [])
    (hidle : (s.brew.cores.all fun k => k.work != some (Work.fit .a) && k.work != some (Work.fit .b)) = true) :
    ∃ t, exec (.kilnFitDispatch q) s = .next t ∧ t.brew.fitQueue = rest ∧
      (((t.port q).kiln.fits.head?.bind fun f => f.ranges).map fun r => r.map fun x => x.1) = some (s.poolCores 4) ∧
      ∀ c ∈ s.poolCores 4, c < s.brew.cores.length →
        (t.brew.cores.getD c {}).running = true ∧ (t.brew.cores.getD c {}).work = some (Work.fit q) := by
  have hnone : s.brew.cores.any (fun k => k.work == some (.fit .a) || k.work == some (.fit .b)) = false := by
    simpa using hidle
  have hgoes : (s.brewOn && q == q &&
      !(s.brew.cores.any fun k => k.work == some (.fit .a) || k.work == some (.fit .b)) && f.ranges.isNone && f.bins.isNone && !(s.poolCores 4).isEmpty) = true := by
    simp [hon, hnone, hranges, hbins, hcores]
  show ∃ t, execKilnFitDispatch q s = .next t ∧ _
  unfold execKilnFitDispatch
  dsimp only
  rw [hqueue, hfits]
  dsimp only
  rw [if_pos hgoes]
  refine ⟨_, rfl, ?_⟩
  have hfits' : (({ s with brew := { s.brew with fitQueue := rest } } : State).port q).kiln.fits = f :: more := by
    rwa [State.port_withBrew]
  refine ⟨?_, ?_, fun c hc hlt => State.dispatch_runsFor _ _ _ ?_ (.inl hc)⟩
  · rw [(State.dispatch_keeps _ _ _ q).2, State.modFit_brew]
  · rw [(State.dispatch_keeps _ _ _ q).1, State.kiln_modFit hfits']
    simp [State.map_fst_splitRanges]
  · rwa [State.modFit_brew]

/-- KILN_FIT_COMPLETE (R189). -/
theorem kilnFitComplete_ends {poison : List Nat} (hon : s.brewOn = true) (hfits : (s.port q).kiln.fits = f :: more)
    (hranges : f.ranges.isSome = true) (hbins : f.bins = none) :
    ∃ t, exec (.kilnFitComplete q poison) s = .next t ∧
      ((t.port q).kiln.fits.map fun g => (g.bins.isSome, g.over_)).head? = some (true, false) ∧
      (t.port q).kiln.fits.tail = more ∧ ∀ k ∈ t.brew.cores, k.work ≠ some (Work.fit q) := by
  have hends : (s.brewOn && f.ranges.isSome && f.bins.isNone) = true := by simp [hon, hranges, hbins]
  obtain ⟨⟨bins, hkiln⟩, hdone⟩ := s.endFit_spec hfits poison false fun j => f.unfit.contains j
  show ∃ t, execKilnFitComplete q poison s = .next t ∧ _
  unfold execKilnFitComplete
  rw [hfits]
  dsimp only
  rw [if_pos hends]
  refine ⟨_, rfl, ?_⟩
  rw [hkiln]
  exact ⟨rfl, rfl, hdone⟩

/-- KILN_FIT_OVERRUN (R183). -/
theorem kilnFitOverrun_ends {fitted poison : List Nat} {g : KilnFit} (hup : s.up = true)
    (hfits : (s.port q).kiln.fits = f :: g :: more) (hbins : f.bins = none) :
    ∃ t, exec (.kilnFitOverrun q fitted poison) s = .next t ∧
      ((t.port q).kiln.fits.map fun g => (g.bins.isSome, g.over_)).head? = some (true, true) ∧
      (t.port q).kiln.overruns = satAdd 0xFFFFFFFF (s.port q).kiln.overruns 1 ∧ (t.stat (stKiln q)).has 1 = true ∧
      ∀ k ∈ t.brew.cores, k.work ≠ some (Work.fit q) := by
  have hends : (s.up && f.bins.isNone) = true := by simp [hup, hbins]
  show ∃ t, execKilnFitOverrun q fitted poison s = .next t ∧ _
  unfold execKilnFitOverrun
  rw [hfits]
  dsimp only
  rw [if_pos hends]
  refine ⟨_, rfl, ?_⟩
  have hfits' : ∀ b : Brew, (({ s with brew := b } : State).port q).kiln.fits = f :: g :: more := fun _ => by
    rwa [State.port_withBrew]
  obtain ⟨⟨bins, hkiln⟩, hdone⟩ := State.endFit_spec (hfits' _) poison true _
  rw [State.port_raise, State.kiln_modKiln, hkiln, State.port_withBrew]
  refine ⟨rfl, rfl, State.stat_has_raise_self _ (List.mem_singleton_self 1), hdone.of_brew_eq ?_⟩
  rw [State.raise_brew, State.modKiln_brew]

end

end Sys2Proof.Machine
end

section
/-! The Kiln engine's profiles and calibrations (R187, R194, R197), and the obligation. -/
namespace Sys2Proof.Machine
open Sys2Proof

/-- R187: a shape calibration ends with `mean` as the shape of its mode. -/
def Kiln.shapeAccepted (k : Kiln) (m16 : Bool) (mean : List Nat) : Kiln :=
  (if m16 then { k with shapeRun := false, shapeRuns := [], shape16 := some mean }
    else { k with shapeRun := false, shapeRuns := [], shape32 := some mean }).setShapeState m16 1

theorem Kiln.shapeAccepted_spec (k : Kiln) (m16 : Bool) (mean : List Nat) :
    (k.shapeAccepted m16 mean).shapeRun = false ∧ (k.shapeAccepted m16 mean).shape m16 = some mean := by
  cases m16 <;> exact ⟨rfl, rfl⟩

namespace State

/-! ## A profile (R197) -/

theorem Sends.kiln {s t : State} {q : Port} (h : s.Sends q t) : (t.port q).kiln = (s.port q).kiln := by
  obtain ⟨_, _, _, hport⟩ := h.port
  rw [hport]

/-- R197: the oldest fit, which has ended, leaves the queue as a profile, and its accumulation's counts and coil
temperature are those of the last profile. -/
theorem assemble_spec {s : State} {q : Port} {f : KilnFit} {rest : List KilnFit} {b : List BinFit}
    (hfits : (s.port q).kiln.fits = f :: rest) (hbins : f.bins = some b) (incomplete : Bool) :
    ((s.assemble q incomplete).port q).kiln.fits = rest ∧
      ((s.assemble q incomplete).port q).kiln.lastTime = f.acc.last ∧
      ((s.assemble q incomplete).port q).kiln.lastAccepted = f.acc.accepted ∧
      ((s.assemble q incomplete).port q).kiln.lastDropped = f.acc.dropped ∧
      ((s.assemble q incomplete).port q).kiln.coilT = f.coilT := by
  unfold assemble
  split
  next f' rest' hfits' =>
    obtain ⟨rfl, rfl⟩ := List.cons.inj (hfits.symm.trans hfits')
    split
    next bins _ =>
      extract_lets marked a c coil cand anchored stale low invalid prof raw fl floor kept t profSent rawSent
      have delivered : kept.Sends q rawSent := ((Sends.refl kept q).deliver ..).deliver ..
      have streamed : kept.Sends q (if bitOf c.dest 3 then rawSent.stream q prof else rawSent) :=
        .ite (delivered.stream _) delivered
      rw [streamed.kiln, kiln_modKiln]
      exact ⟨rfl, rfl, rfl, rfl, rfl⟩
    next hnone => exact absurd (hbins.symm.trans hnone) (Option.some_ne_none b)
  next hnil => exact absurd (hfits.symm.trans hnil) (List.cons_ne_nil f rest)

/-! ## The synthesiser (R311, R194) -/

/-- Setting the synthesiser leaves a shape calibration, the accepted shapes and the straps as they are. -/
theorem setSynth_spec (s : State) (q : Port) (started : Bool) :
    (s.setSynth q started).power = s.power ∧
      ((s.setSynth q started).port q).kiln.shapeRun = (s.port q).kiln.shapeRun ∧
      ∀ m16, ((s.setSynth q started).port q).kiln.shape m16 = (s.port q).kiln.shape m16 := by
  unfold setSynth
  extract_lets on khz steps y
  split
  · split
    · rw [modKiln_power, kiln_modKiln]
      exact ⟨rfl, rfl, fun _ => rfl⟩
    · exact ⟨rfl, rfl, fun _ => rfl⟩
  · rw [modPort_power, synLost_power, port_modPort_self, synLost, port_modPort_self]
    exact ⟨rfl, rfl, fun _ => rfl⟩

/-! ## ShapeCal (R187) -/

theorem shapeCal_starts {s : State} {q : Port} (hlive : s.live q = true) (hpass : (s.port q).rx.kfgPass = true)
    (hoff : s.kilnOn q = false) (hidle : (s.port q).kiln.shapeRun = false) :
    ∃ t, s.shapeCal q = (0, t) ∧ t.power = s.power ∧ (t.port q).kiln.shapeRun = true := by
  have hok : s.shapeCalOk q = true := by simp [shapeCalOk, hlive, hpass, hoff, hidle]
  refine ⟨_, if_pos hok, ?_, ?_⟩
  · rw [shapeStart, (setSynth_spec ..).1, modKiln_power]
  · rw [shapeStart, (setSynth_spec ..).2.1, kiln_modKiln]

theorem action_shapeCal (s : State) (h : Hint) (q : Port) (v : List Byte) :
    s.action h (portIndex q 0x4011) 0xA v = some (actOn1 v s (s.shapeCal q)) := by
  have hidx : canonIndex (portIndex q 0x4011) = (0x4011, Port.num q) := by cases q <;> decide
  have hport : instPort (Port.num q) = q := by cases q <;> rfl
  unfold action
  rw [hidx]
  show some (actOn1 v s (s.shapeCal (instPort (Port.num q)))) = _
  rw [hport]

end State

/-- The row of ShapeCal (R187). -/
def shapeCalRow : ObjRow :=
  ⟨0x4011, 0xA, 1, .u8, .wo, 1, .immediate, false, .full, .none, 0, "ShapeCal"⟩

theorem objRow?_shapeCal (q : Port) : objRow? (portIndex q 0x4011) 0xA = some shapeCalRow := by
  cases q
  case a => decide +kernel
  case b => decide +kernel

theorem portIndex_kilnReport (q : Port) : portIndex q 0x4011 = 0x4011 ∨ portIndex q 0x4011 = 0x4021 := by
  cases q <;> decide

theorem custom?_kilnReport (q : Port) (sub : Nat) : custom? (portIndex q 0x4011) sub = none := by
  have := portIndex_kilnReport q
  exact if_neg (by omega)

theorem pendIndex_kilnReport (q : Port) : pendIndex (portIndex q 0x4011) = portIndex q 0x4011 := by
  have := portIndex_kilnReport q
  exact if_neg (by omega)

theorem rangeBar_shapeCal (q : Port) : rangeBar shapeCalRow (portIndex q 0x4011) (u8 1) = false := by
  cases q <;> decide

theorem writable_shapeCal (s : State) (q : Port) :
    s.Writable (key_ (portIndex q 0x4011) 0xA) shapeCalRow (u8 1) 1 where
  index := by
    cases q
    case a => exact (by decide +kernel : (topSub 0x4011).isSome = true)
    case b => exact (by decide +kernel : (topSub 0x4021).isSome = true)
  object := by
    have hown : ¬ portIndex q 0x4011 = 0x2200 := by have := portIndex_kilnReport q; omega
    simp [State.row, key_, custom?_kilnReport, pendIndex_kilnReport, objRow?_shapeCal, hown, shapeCalRow]
  access := Acc.noConfusion
  level := Nat.le_refl 1
  length := rfl

/-! ## The commands -/

section
variable {q : Port} {s : State}

/-- KILN_PROFILE_ASSEMBLY (R197). -/
theorem kilnProfileAssembly_assembles {f : KilnFit} {rest : List KilnFit} {b : List BinFit} (hup : s.up = true)
    (hfits : (s.port q).kiln.fits = f :: rest) (hbins : f.bins = some b) (htime : s.fitLate f = false) :
    ∃ t, exec (.kilnProfileAssembly q) s = .next t ∧ (t.port q).kiln.fits = rest ∧
      (t.port q).kiln.lastTime = f.acc.last ∧ (t.port q).kiln.lastAccepted = f.acc.accepted ∧
      (t.port q).kiln.lastDropped = f.acc.dropped ∧ (t.port q).kiln.coilT = f.coilT := by
  have hready : (s.up && (s.port q).kiln.fits.head?.any fun f => !s.fitLate f) = true := by
    simp [hup, hfits, htime]
  exact ⟨_, if_pos hready, State.assemble_spec hfits hbins false⟩

/-- SHAPE_CAL (R187). -/
theorem shapeCal_served {c : OdCaller} (hs : Serves s c 1 (objKey (portIndex q 0x4011) 0xA)) (hlive : s.live q = true)
    (hpass : (s.port q).rx.kfgPass = true) (hoff : s.kilnOn q = false) (hidle : (s.port q).kiln.shapeRun = false) :
    ∃ t, exec (.shapeCal c q) s = .next t ∧ Answered t c 0 ∧ (t.port q).kiln.shapeRun = true := by
  obtain ⟨t, ht, hpower, hrun⟩ := State.shapeCal_starts (s := s.asked) (q := q) hlive hpass hoff hidle
  have hwrite : s.asked.writeObj {} shapeCalRow (portIndex q 0x4011) 0xA (u8 1) = (0, t) :=
    (State.writeObj_of_action (rangeBar_shapeCal q) (custom?_kilnReport q 0xA) (State.action_shapeCal _ _ q _)).trans
      ((if_pos rfl).trans ht)
  obtain ⟨hanswer, hport⟩ := State.request_write (k := key_ (portIndex q 0x4011) 0xA) (v := u8 1) (h := {}) hs
    (writable_shapeCal _ q) hwrite hpower
  refine ⟨_, rfl, hanswer, ?_⟩
  exact (congrArg (fun p : PortState => p.kiln.shapeRun) (hport q)).trans hrun

/-- SHAPE_CAL_DONE of two runs that agree (R187). -/
theorem shapeCalDone_accepts {run1 run2 : List Nat} (hup : s.up = true) (hrun : (s.port q).kiln.shapeRun = true)
    (hruns : (s.port q).kiln.shapeRuns = [run2, run1]) (hlen1 : run1.length = kilnCh (s.pn q 0x4010 5 == 16))
    (hlen2 : run2.length = kilnCh (s.pn q 0x4010 5 == 16)) (hpos : (run1 ++ run2).all (0 < ·) = true)
    (hagree : ((shapeNorm run1).zip (shapeNorm run2)).all (fun z =>
      (z.1.div z.2).le (Num.exp10 (Num.dec 2 2)) && (z.2.div z.1).le (Num.exp10 (Num.dec 2 2))) = true) :
    ∃ t, exec (.shapeCalDone q) s = .next t ∧ (t.port q).kiln.shapeRun = false ∧
      (t.port q).kiln.shape (s.pn q 0x4010 5 == 16) =
        some (((shapeNorm run1).zip (shapeNorm run2)).map fun z => ((z.1.add z.2).scale (-1)).toF32) := by
  have hready : (s.up && (s.port q).kiln.shapeRun && (s.port q).kiln.shapeRuns.length == 2) = true := by
    simp [hup, hrun, hruns]
  have hpos12 : run1.all (0 < ·) = true ∧ run2.all (0 < ·) = true := by simpa using hpos
  show ∃ t, execShapeCalDone q s = .next t ∧ _
  unfold execShapeCalDone
  extract_lets k r1 r2 m16 a b n lim agree mean marked flash kept
  have hr1 : r1 = run1 := by simp only [r1, k, hruns]; rfl
  have hr2 : r2 = run2 := by simp only [r2, k, hruns]; rfl
  have haccepted : agree = true := by
    simp only [agree, a, b, n, hr1, hr2, Bool.and_eq_true, beq_iff_eq]
    exact ⟨⟨⟨⟨hlen1, hlen2⟩, hpos12.1⟩, hpos12.2⟩, hagree⟩
  have hkept : (kept.port q).kiln = (s.port q).kiln.shapeAccepted m16 mean := by
    have hflash : kept.port q = marked.port q := by
      simp only [kept, haccepted, if_true]
      exact State.port_of_eq rfl rfl q
    rw [hflash, State.kiln_modKiln]
    exact if_pos haccepted
  obtain ⟨-, hshapeRun, hshape⟩ := kept.setSynth_spec q false
  obtain ⟨hends, haccepts⟩ := (s.port q).kiln.shapeAccepted_spec m16 mean
  rw [if_pos hready]
  refine ⟨_, rfl, ?_, ?_⟩
  · rw [hshapeRun, hkept, hends]
  · rw [hshape, hkept, haccepts]
    simp only [mean, a, b, hr1, hr2]

/-- FREQ_REF_CAL_RUN of a run that agrees with the one before (R194). -/
theorem freqRefCalRun_accepts {count : Nat} {r0 : List Int} (hup : s.up = true)
    (hrun : (s.port q).kiln.freqRun = true) (hon : (s.port q).syn.on = true) (hlocked : (s.port q).syn.locked = true)
    (hprev : (s.port q).kiln.freq.prev = some r0)
    (hagree : runsAgree [500] r0 [((Num.ofNat (256 * count)).sub (s.synHz q)).nearest] = true) :
    ∃ t, exec (.freqRefCalRun q count) s = .next t ∧ (t.port q).kiln.freqRun = false ∧
      (t.port q).kiln.eSyn = (runsMean r0 [((Num.ofNat (256 * count)).sub (s.synHz q)).nearest]).getD 0 0 ∧
      (t.port q).kiln.freq.state = 1 := by
  have hcounts : (s.up && (s.port q).kiln.freqRun && (s.port q).syn.on && (s.port q).syn.locked) = true := by
    simp [hup, hrun, hon, hlocked]
  show ∃ t, execFreqRefCalRun q count s = .next t ∧ _
  unfold execFreqRefCalRun
  dsimp only
  rw [if_pos hcounts, CalItem.run_of_agree _ hprev hagree]
  refine ⟨_, rfl, ?_⟩
  rw [State.kiln_modKiln]
  exact ⟨rfl, rfl, rfl⟩

/-- FREQ_REF_CAL_PERIOD (R194). -/
theorem freqRefCalPeriod_begins (hup : s.up = true) (hon : (s.port q).syn.on = true) :
    ∃ t, exec (.freqRefCalPeriod q) s = .next t ∧ (t.port q).kiln.freqRun = true ∧
      (t.port q).kiln.freq.prev = none := by
  have hbegins : (s.up && (s.port q).syn.on) = true := by simp [hup, hon]
  refine ⟨_, if_pos hbegins, ?_⟩
  rw [State.kiln_modKiln]
  exact ⟨rfl, rfl⟩

end

/-- Settles O10: each clause is the lemma of its command. -/
theorem kilnFits : Obligations.KilnFits :=
  ⟨fun _ _ _ _ _ => kilnFitDispatch_dispatches, fun _ _ _ _ _ => kilnFitComplete_ends,
    fun _ _ _ _ _ _ _ => kilnFitOverrun_ends, fun _ _ _ _ _ => kilnProfileAssembly_assembles,
    fun _ _ _ => shapeCal_served, fun _ _ _ _ => shapeCalDone_accepts, fun _ _ _ _ => freqRefCalRun_accepts,
    fun _ _ => freqRefCalPeriod_begins⟩

end Sys2Proof.Machine
end

section
/-! What one instruction does to a core and to the rest of the state (R203, R205, R208). -/
namespace Sys2Proof.Machine
open Sys2Proof

/-! ## Moves (R205, R208) -/

/-- Each element of the result depends on the element of the same index alone. -/
def Elementwise {α : Type} (f : List α → List α) : Prop := ∀ (l l' : List α) (j : Nat),
  l[j]? = l'[j]? → (f l)[j]? = (f l')[j]?

theorem Elementwise.id {α : Type} : Elementwise (fun l : List α => l) := fun _ _ _ h => h

theorem Elementwise.comp {α : Type} {f g : List α → List α} (hf : Elementwise f) (hg : Elementwise g) :
    Elementwise fun l => f (g l) :=
  fun l l' j h => hf (g l) (g l') j (hg l l' j h)

theorem Elementwise.modAt {α : Type} (i : Nat) (f : α → α) : Elementwise fun l => modAt l i f := fun l l' j h => by
  simp only [getElem?_modAt, h]

theorem getD_eq_of_getElem?_eq {α : Type} {l l' : List α} {j : Nat} (h : l[j]? = l'[j]?) (d : α) :
    l.getD j d = l'.getD j d := by
  simp only [List.getD_eq_getElem?_getD, h]

theorem Elementwise.getD_eq {α : Type} {f : List α → List α} (hf : Elementwise f) {l l' : List α} {j : Nat}
    (h : l[j]? = l'[j]?) (d : α) : (f l).getD j d = (f l').getD j d :=
  getD_eq_of_getElem?_eq (hf l l' j h) d

theorem getElem?_setAt_of_ne {α : Type} {i j : Nat} (h : j ≠ i) (l : List α) (v : α) : (setAt l i v)[j]? = l[j]? := by
  rw [getElem?_setAt, if_neg fun hij => h hij.1.symm]

/-- What moves may do to a core: X, Y, the vector registers and the generators each go their own way. -/
structure MoveEffect where
  x : List Host.Cell → List Host.Cell
  y : List Host.Cell → List Host.Cell
  v : List Nat → List Nat
  ag : List AgSetup → List AgSetup
  v_elementwise : Elementwise v
  ag_elementwise : Elementwise ag

/-- The core once the effect has been brought about on it. -/
def Core.after (k : Core) (e : MoveEffect) : Core :=
  { k with x := e.x k.x, y := e.y k.y, v := e.v k.v, ag := e.ag k.ag }

/-- What a move does depends on the core before the instruction alone. -/
theorem Core.doMove_eq_after (free : Nat) (k0 : Core) (m : Option Move) :
    ∃ e : MoveEffect, ∀ k, Core.doMove free k0 k m = k.after e := by
  match m with
  | none => exact ⟨⟨fun l => l, fun l => l, _, _, .id, .id⟩, fun k => rfl⟩
  | some m =>
    unfold Core.doMove
    dsimp only
    split
    next => exact ⟨⟨fun l => l, fun l => l, _, _, .id, .id⟩, fun k => rfl⟩
    next a _ =>
      split
      · split
        · exact ⟨⟨fun l => memWrite l a _, fun l => l, _, _, .id, .modAt _ _⟩, fun k => rfl⟩
        · exact ⟨⟨fun l => l, fun l => memWrite l a _, _, _, .id, .modAt _ _⟩, fun k => rfl⟩
      · exact ⟨⟨fun l => l, fun l => l, _, _, .modAt _ _, .modAt _ _⟩, fun k => rfl⟩

/-- A core `k` once the moves of an instruction on core `c` have been carried out on it. -/
def State.moved (s : State) (c : Nat) (m : Moves) (k : Core) : Core :=
  Core.doMove (s.laneFree 9) (s.core c) (Core.doMove (s.laneFree 8) (s.core c) k m.x) m.y

theorem State.moved_eq_after (s : State) (c : Nat) (m : Moves) : ∃ e : MoveEffect, ∀ k, s.moved c m k = k.after e := by
  obtain ⟨ex, hx⟩ := (s.core c).doMove_eq_after (s.laneFree 8) m.x
  obtain ⟨ey, hy⟩ := (s.core c).doMove_eq_after (s.laneFree 9) m.y
  refine ⟨⟨fun l => ey.x (ex.x l), fun l => ey.y (ex.y l), fun l => ey.v (ex.v l), fun l => ey.ag (ex.ag l),
    ey.v_elementwise.comp ex.v_elementwise, ey.ag_elementwise.comp ex.ag_elementwise⟩, fun k => ?_⟩
  rw [moved, hx, hy]
  rfl

/-! ## One instruction (R203) -/

/-- Core `c` is there and ready, and the moves of the instruction have addresses. -/
structure State.CanRun (s : State) (c : Nat) (m : Moves) : Prop where
  ready : s.coreReady c = true
  moves : (s.core c).movesOk m = true
  present : c < s.brew.cores.length

/-- From `s` to `t` core `c` has executed an instruction that left it as `k` before its moves; no other core has
changed, and of the rest of the state only status bits, outputs and the counter of free values. -/
structure State.Executes (s : State) (c : Nat) (m : Moves) (k : Core) (t : State) : Prop where
  frame : t = { s with
    brew := { s.brew with cores := t.brew.cores }, free := t.free, stats := t.stats, out := t.out }
  core : t.core c = s.moved c m k
  others : ∀ j, j ≠ c → t.core j = s.core j

/-- The command `i` has core `c` execute an instruction that leaves it as `k` before its moves. -/
def State.Runs (s : State) (c : Nat) (m : Moves) (i : Instr) (k : Core) : Prop :=
  ∃ t, exec i s = .next t ∧ s.Executes c m k t

namespace State

theorem core_modCore_self {s : State} {c : Nat} (h : c < s.brew.cores.length) (f : Core → Core) :
    (s.modCore c f).core c = f (s.core c) := by
  rw [core, getD_modCore s c c f h, if_pos rfl, core]

theorem core_modCore_of_ne (s : State) {c j : Nat} (h : j ≠ c) (f : Core → Core) :
    (s.modCore c f).core j = s.core j := by
  simp only [core, modCore]
  exact getD_eq_of_getElem?_eq (by rw [getElem?_modAt, if_neg h.symm]) _

theorem core_of_brew_eq {s t : State} (h : t.brew = s.brew) (j : Nat) : t.core j = s.core j := by
  simp only [core, h]

/-- Status bits change status bits and outputs alone. -/
theorem raise_eq (s : State) (k : Nat) (bits : List Nat) :
    s.raise k bits = { s with stats := (s.raise k bits).stats, out := (s.raise k bits).out } := by
  unfold raise afterRise
  split
  · unfold fireHost
    split
    · rfl
    · rfl
  · rfl

variable {s : State} {c : Nat} {m : Moves} {k : Core} {bits : List Nat} {i : Instr}

theorem executes_instr (h : s.CanRun c m) {op : Core → Nat → Nat → Option (Core × List Nat)}
    (hop : op (s.core c).past ((s.core c).loaded m.x) ((s.core c).loaded m.y) = some (k, bits)) :
    s.Executes c m k (s.instr c m op) := by
  have hinstr : s.instr c m op = ((s.modCore c fun _ => s.moved c m k).raise stBrew bits).useFree := by
    unfold instr
    rw [if_pos h.ready]
    dsimp only
    rw [if_pos h.moves, hop]
    rfl
  have hbrew : (s.instr c m op).brew = (s.modCore c fun _ => s.moved c m k).brew := by
    rw [hinstr, useFree_brew, raise_brew]
  refine ⟨?_, ?_, fun j hj => ?_⟩
  · rw [hinstr, raise_eq]
    rfl
  · rw [core_of_brew_eq hbrew, core_modCore_self h.present]
  · rw [core_of_brew_eq hbrew, core_modCore_of_ne s hj]

theorem Executes.useFree {t : State} (h : s.Executes c m k t) : s.Executes c m k t.useFree :=
  ⟨by rw [h.frame]; rfl, h.core, h.others⟩

end State
end Sys2Proof.Machine
end

section
/-! The instructions of a core (R203–R210): what each leaves of the core that executes it, before its moves. -/
namespace Sys2Proof.Machine
open Sys2Proof

namespace State

variable {s : State} {c : Nat} {m : Moves} {k : Core} {i : Instr}

theorem runs_of_instr {op : Core → Nat → Nat → Option (Core × List Nat)} {bits : List Nat} (h : s.CanRun c m)
    (hexec : exec i s = .next (s.instr c m op))
    (hop : op (s.core c).past ((s.core c).loaded m.x) ((s.core c).loaded m.y) = some (k, bits)) : s.Runs c m i k :=
  ⟨_, hexec, executes_instr h hop⟩

/-- An instruction that takes more free values than its moves. -/
theorem runs_of_instr_useFree {op : Core → Nat → Nat → Option (Core × List Nat)} {bits : List Nat} (h : s.CanRun c m)
    (hexec : exec i s = .next (s.instr c m op).useFree)
    (hop : op (s.core c).past ((s.core c).loaded m.x) ((s.core c).loaded m.y) = some (k, bits)) : s.Runs c m i k :=
  ⟨_, hexec, (executes_instr h hop).useFree⟩

end State

/-! ## Vectors and accumulators (R206, R207) -/

/-- R206: the product in lane `i` of two vectors; with `complex` the lane pairs are (real, imaginary). -/
def macProduct (complex signedA signedB : Bool) (va vb i : Nat) : Int :=
  let la (i : Nat) : Int := laneInt 16 signedA (laneOf 16 va i)
  let lb (i : Nat) : Int := laneInt 16 signedB (laneOf 16 vb i)
  if complex then
    if i % 2 = 0 then la (i / 2 * 2) * lb (i / 2 * 2) - la (i / 2 * 2 + 1) * lb (i / 2 * 2 + 1)
    else la (i / 2 * 2) * lb (i / 2 * 2 + 1) + la (i / 2 * 2 + 1) * lb (i / 2 * 2)
  else la i * lb i

/-- R206: what goes into a lane of the accumulator that holds `acc`, before it wraps. -/
def macExact (op : MacOp) (acc prod : Int) : Int :=
  match op with
  | .mul => prod
  | .add => acc + prod
  | .sub => acc - prod

/-- R206: the lanes of the accumulator. -/
def macLanes (op : MacOp) (complex signedA signedB : Bool) (acc : List Int) (va vb : Nat) : List Int :=
  ((upTo 8).map fun i => macExact op (acc.getD i 0) (macProduct complex signedA signedB va vb i)).map (wrapS 48)

section
variable {s : State} {c : Nat} {m : Moves} (h : s.CanRun c m)
include h

/-- VECTOR_MULTIPLY_ACCUMULATE (R206). -/
theorem vectorMultiplyAccumulate_runs (op : MacOp) (complex signedA signedB : Bool) (dst : Nat) (a b : VSrc) :
    ∃ ovf, s.Runs c m (.vectorMultiplyAccumulate c op complex signedA signedB dst a b m) { (s.core c).past with
      a := setAt (s.core c).a dst (macLanes op complex signedA signedB ((s.core c).a.getD dst [])
        ((s.core c).vec ((s.core c).loaded m.x) ((s.core c).loaded m.y) a)
        ((s.core c).vec ((s.core c).loaded m.x) ((s.core c).loaded m.y) b))
      accOvf := ovf } := by
  exact ⟨_, State.runs_of_instr h rfl rfl⟩

/-- VECTOR_ARITHMETIC_LOGIC (R203, R207). -/
theorem vectorArithmeticLogic_runs (op : AluOp) (wide signed : Bool) (dst : Nat) (a b d : VSrc) :
    s.Runs c m (.vectorArithmeticLogic c op wide signed dst a b d m) { (s.core c).past with
      v := setAt (s.core c).v dst (fromLanes (if wide then 32 else 16)
        ((upTo (128 / if wide then 32 else 16)).map fun i =>
        aluLane op (if wide then 32 else 16) signed (s.laneFree i)
          (laneOf (if wide then 32 else 16) ((s.core c).vec ((s.core c).loaded m.x) ((s.core c).loaded m.y) a) i)
          (laneOf (if wide then 32 else 16) ((s.core c).vec ((s.core c).loaded m.x) ((s.core c).loaded m.y) b) i)
          (laneOf (if wide then 32 else 16) ((s.core c).vec ((s.core c).loaded m.x) ((s.core c).loaded m.y) d) i))) } :=
  State.runs_of_instr_useFree h rfl rfl

/-- ACCUMULATOR_MOVE to a vector register (R207). -/
theorem accumulatorMove_move_runs (src dst shift : Nat) (wide high saturate signed : Bool) :
    ∃ sat, s.Runs c m (.accumulatorMove c src (.move dst shift wide high saturate signed) m) { (s.core c).past with
      v := setAt (s.core c).v dst (fromLanes (if wide then 32 else 16)
        ((upTo (128 / if wide then 32 else 16)).map fun i =>
        (narrow (if wide then 32 else 16) signed saturate
          (asr (((s.core c).a.getD src []).getD (if wide && high then i + 4 else i) 0) (shift % 48))).1))
      sat := sat } := by
  have hfirst : ∀ (f : Nat → Nat × Bool) (l : List Nat), l.map (fun i => (f i).1) = (l.map f).map fun x => x.1 :=
    fun f l => List.map_map.symm
  rw [hfirst fun i => narrow ..]
  exact ⟨_, State.runs_of_instr h rfl rfl⟩

/-- ACCUMULATOR_MOVE that clears an accumulator (R207). -/
theorem accumulatorMove_clear_runs (src : Nat) : s.Runs c m (.accumulatorMove c src .clear m) { (s.core c).past with
    a := setAt (s.core c).a src (List.replicate 8 0) } :=
  State.runs_of_instr h rfl rfl

/-- ACCUMULATOR_MOVE of the lane sum (R207). -/
theorem accumulatorMove_laneSum_runs (src : Nat) :
    ∃ ovf, s.Runs c m (.accumulatorMove c src .laneSum m) { (s.core c).past with
      a := setAt (s.core c).a src (setAt ((s.core c).a.getD src []) 0 (wrapS 48 (sumI ((s.core c).a.getD src []))))
      accOvf := ovf } :=
  ⟨_, State.runs_of_instr h rfl rfl⟩

end

/-! ## Search (R209) -/

/-- R209: whether a lane of value `n` and index `idx` takes the place of the best value so far and its index. -/
def searchTakes (isMax : Bool) (b : Int × Nat) (n : Int) (idx : Nat) : Bool :=
  (if isMax then decide (b.1 < n) else decide (n < b.1)) || (n == b.1 && decide (idx < b.2))

/-- R209: one lane of a search, `n` being the lanes' values and `idx` their indices. -/
def searchStep (isMax : Bool) (n : Nat → Int) (idx : Nat → Nat) (b : Int × Nat) (i : Nat) : Int × Nat :=
  if searchTakes isMax b (n i) (idx i) then (n i, idx i) else b

/-- The value `y` of a search is at least as good as `x`. -/
def AsGood (isMax : Bool) (x y : Int) : Prop :=
  match isMax with
  | true => x ≤ y
  | false => y ≤ x

theorem AsGood.refl (isMax : Bool) (x : Int) : AsGood isMax x x := by
  cases isMax
  · exact Int.le_refl x
  · exact Int.le_refl x

theorem AsGood.trans {isMax : Bool} {x y z : Int} (h : AsGood isMax x y) (h' : AsGood isMax y z) :
    AsGood isMax x z := by
  cases isMax
  · exact Int.le_trans h' h
  · exact Int.le_trans h h'

theorem asGood_of_takes {isMax : Bool} {b : Int × Nat} {n : Int} {idx : Nat} (h : searchTakes isMax b n idx = true) :
    AsGood isMax b.1 n := by
  simp only [searchTakes, Bool.or_eq_true, Bool.and_eq_true, beq_iff_eq, decide_eq_true_eq] at h
  cases isMax
  · simp only [Bool.false_eq_true, if_false, decide_eq_true_eq] at h
    simp only [AsGood]
    omega
  · simp only [if_true, decide_eq_true_eq] at h
    simp only [AsGood]
    omega

theorem asGood_of_not_takes {isMax : Bool} {b : Int × Nat} {n : Int} {idx : Nat}
    (h : ¬ searchTakes isMax b n idx = true) : AsGood isMax n b.1 := by
  simp only [searchTakes, Bool.or_eq_true, not_or] at h
  obtain ⟨h, -⟩ := h
  cases isMax
  · simpa [AsGood] using h
  · simpa [AsGood] using h

/-- A lane gives a value as good as its own and as the best so far: it is one of the two. -/
theorem searchStep_spec (isMax : Bool) (n : Nat → Int) (idx : Nat → Nat) (b : Int × Nat) (i : Nat) :
    AsGood isMax b.1 (searchStep isMax n idx b i).1 ∧ AsGood isMax (n i) (searchStep isMax n idx b i).1 ∧
      (searchStep isMax n idx b i = b ∨ searchStep isMax n idx b i = (n i, idx i)) := by
  unfold searchStep
  split
  next h => exact ⟨asGood_of_takes h, .refl .., .inr rfl⟩
  next h => exact ⟨.refl .., asGood_of_not_takes h, .inl rfl⟩

/-- R209: what a search over lanes ends with is as good as the best before and as each lane, and is one of these. -/
theorem foldl_searchStep_spec (isMax : Bool) (n : Nat → Int) (idx : Nat → Nat) (l : List Nat) (b : Int × Nat) :
    AsGood isMax b.1 (l.foldl (searchStep isMax n idx) b).1 ∧
      (∀ i ∈ l, AsGood isMax (n i) (l.foldl (searchStep isMax n idx) b).1) ∧
      (l.foldl (searchStep isMax n idx) b = b ∨ ∃ i ∈ l, l.foldl (searchStep isMax n idx) b = (n i, idx i)) := by
  induction l generalizing b with
  | nil => exact ⟨.refl .., fun i hi => absurd hi List.not_mem_nil, .inl rfl⟩
  | cons j l ih =>
    obtain ⟨hb, hj, hone⟩ := searchStep_spec isMax n idx b j
    obtain ⟨hbest, hlanes, hof⟩ := ih (searchStep isMax n idx b j)
    refine ⟨hb.trans hbest, fun i hi => ?_, ?_⟩
    · obtain rfl | hi := List.mem_cons.mp hi
      · exact hj.trans hbest
      · exact hlanes i hi
    · obtain hof | ⟨i, hi, hof⟩ := hof
      · exact hone.imp (fun h => hof.trans h) fun h => ⟨j, List.mem_cons_self, hof.trans h⟩
      · exact .inr ⟨i, List.mem_cons_of_mem j hi, hof⟩

section
variable {s : State} {c : Nat} {m : Moves} (h : s.CanRun c m)
include h

/-- SEARCH (R209). -/
theorem search_runs (isMax wide signed : Bool) (src : VSrc) (base : Nat) :
    ∃ best idx, s.Runs c m (.search c isMax wide signed src base m)
      { (s.core c).past with best := best, bestIdx := idx } ∧
      AsGood isMax (s.core c).best best ∧
      (∀ i, i < 128 / (if wide then 32 else 16) → AsGood isMax (laneInt (if wide then 32 else 16) signed
        (laneOf (if wide then 32 else 16) ((s.core c).vec ((s.core c).loaded m.x) ((s.core c).loaded m.y) src) i))
          best) ∧
      (best = (s.core c).best ∨ ∃ i, i < 128 / (if wide then 32 else 16) ∧
        best = laneInt (if wide then 32 else 16) signed (laneOf (if wide then 32 else 16)
          ((s.core c).vec ((s.core c).loaded m.x) ((s.core c).loaded m.y) src) i) ∧
        idx = ((s.core c).s.getD base 0 + i) % 2 ^ 32) := by
  obtain ⟨hbest, hlanes, hof⟩ := foldl_searchStep_spec isMax
    (fun i => laneInt (if wide then 32 else 16) signed (laneOf (if wide then 32 else 16)
      ((s.core c).vec ((s.core c).loaded m.x) ((s.core c).loaded m.y) src) i))
    (fun i => ((s.core c).s.getD base 0 + i) % 2 ^ 32) (upTo (128 / if wide then 32 else 16))
    ((s.core c).best, (s.core c).bestIdx)
  refine ⟨_, _, State.runs_of_instr h rfl rfl, hbest, fun i hi => hlanes i (List.mem_range.mpr hi), ?_⟩
  refine hof.imp (congrArg Prod.fst) fun ⟨i, hi, hlane⟩ => ?_
  exact ⟨i, List.mem_range.mp hi, congrArg Prod.fst hlane, congrArg Prod.snd hlane⟩

/-- SEARCH_RESET (R209). -/
theorem searchReset_runs (isMax wide signed : Bool) :
    s.Runs c m (.searchReset c isMax wide signed m) { (s.core c).past with
      best :=
        if isMax then if signed then -((2 ^ ((if wide then 32 else 16) - 1) : Nat) : Int) else 0
        else if signed then ((2 ^ ((if wide then 32 else 16) - 1) : Nat) : Int) - 1
        else ((2 ^ (if wide then 32 else 16) : Nat) : Int) - 1
      bestIdx := 0xFFFFFFFF } :=
  State.runs_of_instr h rfl rfl

/-- SEARCH_READ (R209). -/
theorem searchRead_runs (dstV dstI : Nat) : s.Runs c m (.searchRead c dstV dstI m) { (s.core c).past with
    s := setAt (setAt (s.core c).s dstV (ofSigned 32 (s.core c).best)) dstI (s.core c).bestIdx } :=
  State.runs_of_instr h rfl rfl

/-! ## Scalars, memory, address generators (R207, R208, R210) -/

/-- SCALAR_OPERATION (R207). -/
theorem scalarOperation_runs (op : ScalarOp) (signed : Bool) (dst dst2 a b : Nat) :
    s.Runs c m (.scalarOperation c op signed dst dst2 a b m) { (s.core c).past with
      s :=
        if op = .mul ∨ op = .div then
          setAt (setAt (s.core c).s dst (scalarResult op signed (s.laneFree 0) (s.laneFree 1) ((s.core c).s.getD a 0)
            ((s.core c).s.getD b 0)).1) dst2 (scalarResult op signed (s.laneFree 0) (s.laneFree 1)
            ((s.core c).s.getD a 0) ((s.core c).s.getD b 0)).2
        else setAt (s.core c).s dst (scalarResult op signed (s.laneFree 0) (s.laneFree 1) ((s.core c).s.getD a 0)
          ((s.core c).s.getD b 0)).1 } := by
  have htwo : (op == .mul || op == .div) = decide (op = .mul ∨ op = .div) := by cases op <;> rfl
  refine State.runs_of_instr_useFree (bits := []) h rfl ?_
  simp only [htwo, decide_eq_true_eq]
  rfl

/-- MEMORY_MOVE of the X and Y moves alone (R205). -/
theorem memoryMove_runs : s.Runs c m (.memoryMove c none m) (s.core c).past := State.runs_of_instr h rfl rfl

/-- ADDRESS_GENERATOR_SETUP (R208). -/
theorem addressGeneratorSetup_runs (n : Nat) (g : AgSetup) : s.Runs c m (.addressGeneratorSetup c n g m)
    { (s.core c).past with ag := setAt (s.core c).ag n g } :=
  State.runs_of_instr h rfl rfl

end

/-- Where a scalar load or store reaches cluster memory (R210). -/
def Core.memAddr (k : Core) (z : ScalarMem) : Nat := ofSigned 32 ((k.s.getD z.addr 0 : Nat) + z.ofs)

/-- Core `c` may make the access `z` to cluster memory (R208, R234). -/
def State.accessOk (s : State) (c : Nat) (z : ScalarMem) : Bool :=
  s.clusterOk (s.core c).owner ((s.core c).memAddr z) z.bytes &&
    (decide (z.bytes < 4) || (s.core c).memAddr z % z.bytes == 0)

/-- What the access `z` does to core `c` before its moves (R210). -/
def State.accessOp (s : State) (c : Nat) (z : ScalarMem) (k : Core) : Option (Core × List Nat) :=
  if s.accessOk c z then
    some (if z.store then k else { k with
      s := setAt k.s z.reg (leNat (s.read (clusterBase + (s.core c).memAddr z) z.bytes)) }, [])
  else none

theorem State.accessOk_of {s : State} {c : Nat} {z : ScalarMem}
    (hreach : s.clusterOk (s.core c).owner ((s.core c).memAddr z) z.bytes = true)
    (haligned : z.bytes < 4 ∨ (s.core c).memAddr z % z.bytes = 0) : s.accessOk c z = true := by
  simpa [accessOk, hreach] using haligned

theorem exec_memoryMove_some (s : State) (c : Nat) (z : ScalarMem) (m : Moves) :
    exec (.memoryMove c (some z) m) s = .next
    (if s.coreReady c && s.accessOk c z && (s.core c).movesOk m && z.store then
      (s.instr c m fun k _ _ => s.accessOp c z k).write (clusterBase + (s.core c).memAddr z)
        (leBytes z.bytes ((s.core c).s.getD z.reg 0))
    else s.instr c m fun k _ _ => s.accessOp c z k) :=
  rfl

section
variable {s : State} {c : Nat} {m : Moves} {z : ScalarMem} (h : s.CanRun c m) (ha : s.accessOk c z = true)
include h ha

/-- MEMORY_MOVE that loads a scalar register (R210). -/
theorem memoryMove_load_runs (hload : z.store = false) : s.Runs c m (.memoryMove c (some z) m) { (s.core c).past with
    s := setAt (s.core c).s z.reg (leNat (s.read (clusterBase + (s.core c).memAddr z) z.bytes)) } := by
  refine State.runs_of_instr (op := fun k _ _ => s.accessOp c z k) (bits := []) h ?_ ?_
  · rw [exec_memoryMove_some, hload, Bool.and_false, if_neg Bool.false_ne_true]
  · simp only [State.accessOp, ha, hload, if_true, Bool.false_eq_true, if_false]
    rfl

/-- MEMORY_MOVE that stores a scalar register (R210): what the instruction leaves, and then the store. -/
theorem memoryMove_store_executes (hstore : z.store = true) : ∃ u,
    exec (.memoryMove c (some z) m) s = .next (u.write (clusterBase + (s.core c).memAddr z)
      (leBytes z.bytes ((s.core c).s.getD z.reg 0))) ∧ s.Executes c m (s.core c).past u := by
  refine ⟨_, ?_, State.executes_instr (op := fun k _ _ => s.accessOp c z k) (bits := []) h ?_⟩
  · rw [exec_memoryMove_some, h.ready, ha, h.moves, hstore]
    rfl
  · simp only [State.accessOp, ha, hstore, if_true]

end

/-! ## The flow of instructions (R203, R223) -/

theorem Core.holds_past (k : Core) (cond : Cond) : k.past.holds cond = k.holds cond := by
  cases cond <;> rfl

/-- Where a jump that is taken leads (R223): nowhere where the return stack is full. `free` is the target of a return
from an empty one. -/
def Core.jump (k : Core) (free : Nat) (j : Jump) : Option Core :=
  match j with
  | .branch t => some { k with pc := t % 4096 }
  | .call t => if 16 ≤ k.rets.length then none else some { k with pc := t % 4096, rets := k.pc :: k.rets }
  | .ret => match k.rets with
    | a :: r => some { k with pc := a, rets := r }
    | [] => some { k with pc := free % 4096 }

theorem Core.jump_of_room (k : Core) (free : Nat) (j : Jump) (hroom : k.rets.length < 16) :
    ∃ pc rets, k.jump free j = some { k with pc := pc, rets := rets } := by
  cases j with
  | branch t => exact ⟨_, _, rfl⟩
  | call t => exact ⟨_, _, if_neg (Nat.not_le.mpr hroom)⟩
  | ret =>
    simp only [jump]
    split
    · exact ⟨_, _, rfl⟩
    · exact ⟨_, _, rfl⟩

section
variable {s : State} {c : Nat} {m : Moves} {cond : Cond} (h : s.CanRun c m)
include h

/-- BRANCH_CALL_RETURN whose condition does not hold. -/
theorem branchCallReturn_runs_of_not_holds (j : Jump) (hcond : (s.core c).holds cond = false) :
    s.Runs c m (.branchCallReturn c j cond m) (s.core c).past := by
  refine State.runs_of_instr_useFree (bits := []) h rfl ?_
  simp only [Core.holds_past, hcond, Bool.false_eq_true, if_false]

/-- BRANCH_CALL_RETURN whose condition holds is its jump. -/
theorem branchCallReturn_runs_of_holds {j : Jump} {k : Core} (hcond : (s.core c).holds cond = true)
    (hjump : (s.core c).past.jump (s.laneFree 0) j = some k) : s.Runs c m (.branchCallReturn c j cond m) k := by
  refine State.runs_of_instr_useFree (bits := []) h rfl ?_
  simp only [Core.holds_past, hcond, if_true]
  cases j with
  | branch t =>
    obtain rfl := Option.some.inj hjump
    rfl
  | call t =>
    simp only [Core.jump] at hjump
    split at hjump
    · contradiction
    next hroom =>
      obtain rfl := Option.some.inj hjump
      exact if_neg hroom
  | ret =>
    simp only [Core.jump] at hjump
    split at hjump
    next hrets =>
      obtain rfl := Option.some.inj hjump
      simp only [hrets]
    next hrets =>
      obtain rfl := Option.some.inj hjump
      simp only [hrets]

/-- BRANCH_CALL_RETURN with room in the return stack (R223) changes the program counter and that stack at most. -/
theorem branchCallReturn_runs (j : Jump) (hroom : (s.core c).rets.length < 16) : ∃ pc rets,
    s.Runs c m (.branchCallReturn c j cond m) { (s.core c).past with pc := pc, rets := rets } := by
  by_cases hcond : (s.core c).holds cond = true
  · obtain ⟨pc, rets, hjump⟩ := (s.core c).past.jump_of_room (s.laneFree 0) j hroom
    exact ⟨pc, rets, branchCallReturn_runs_of_holds h hcond hjump⟩
  · exact ⟨_, _, branchCallReturn_runs_of_not_holds h j (by simpa using hcond)⟩

/-- HARDWARE_LOOP that is entered. -/
theorem hardwareLoop_enter_runs {last count : Nat} (hroom : (s.core c).past.loops.length < 4)
    (hcount : (s.core c).s.getD count 0 ≠ 0) : s.Runs c m (.hardwareLoop c last count m) { (s.core c).past with
      loops := ⟨(s.core c).past.pc, last % 4096, (s.core c).s.getD count 0⟩ :: (s.core c).past.loops } :=
  State.runs_of_instr h rfl ((if_neg (Nat.not_le.mpr hroom)).trans (if_neg hcount))

/-- HARDWARE_LOOP with a count of 0 (log 172). -/
theorem hardwareLoop_skip_runs {last count : Nat} (hroom : (s.core c).past.loops.length < 4)
    (hcount : (s.core c).s.getD count 0 = 0) : s.Runs c m (.hardwareLoop c last count m) { (s.core c).past with
      pc := (last + 1) % 4096 } :=
  State.runs_of_instr h rfl ((if_neg (Nat.not_le.mpr hroom)).trans (if_pos hcount))

/-- HARDWARE_LOOP with room in the loop stack (R223). -/
theorem hardwareLoop_runs {last count : Nat} (hroom : (s.core c).past.loops.length < 4) : ∃ pc loops,
    s.Runs c m (.hardwareLoop c last count m) { (s.core c).past with pc := pc, loops := loops } := by
  by_cases hcount : (s.core c).s.getD count 0 = 0
  · exact ⟨_, _, hardwareLoop_skip_runs h hroom hcount⟩
  · exact ⟨_, _, hardwareLoop_enter_runs h hroom hcount⟩

/-- WAIT_FOR_EVENT. -/
theorem waitForEvent_runs : s.Runs c m (.waitForEvent c m) { (s.core c).past with waitEvent := true } :=
  State.runs_of_instr h rfl rfl

/-- QUEUE_CORE_DMA with room in the queue. -/
theorem queueCoreDma_runs {d : DmaDesc} (hroom : (s.core c).dma.length < 4) : s.Runs c m (.queueCoreDma c d m)
    { (s.core c).past with dma := (s.core c).dma ++ [((s.core c).owner, d)] } :=
  State.runs_of_instr h (if_neg (Nat.not_le.mpr hroom)) rfl

/-- WAIT_DMA_COMPLETION. -/
theorem waitDmaCompletion_runs (left : Nat) :
    s.Runs c m (.waitDmaCompletion c left m) { (s.core c).past with waitDma := some left } :=
  State.runs_of_instr h rfl rfl

end

/-! ## The end of a core's work (R221, R222) -/

/-- What the end of its work leaves of a core: it answers an abort or a stop, and waits for nothing (R218, R221). -/
theorem Core.ended_eq (k : Core) (now : Nat) : ∃ running work due since pc loops rets, k.ended now = { k with
    running := running, work := work, due := due, since := since, pc := pc, loops := loops, rets := rets
    waitEvent := false, waitDma := none, aborting := false, stopping := false, again := none } := by
  unfold ended
  split
  · exact ⟨_, _, _, _, _, _, _, rfl⟩
  · exact ⟨_, _, _, _, _, _, _, rfl⟩

/-- From `s` to `u` core `c` has at most been charged for its time at work. -/
structure State.Charges (s : State) (c : Nat) (u : State) : Prop where
  frame : u = { s with brew := { s.brew with cores := u.brew.cores, busy := u.brew.busy } }
  core : ∃ n, u.core c = { s.core c with since := n }
  others : ∀ j, j ≠ c → u.core j = s.core j
  length : u.brew.cores.length = s.brew.cores.length

namespace State

variable {s u : State} {c : Nat} {m : Moves}

theorem charges_chargeCore (hc : c < s.brew.cores.length) (t : Nat) : s.Charges c (s.chargeCore c t) := by
  have unchanged : s.Charges c s := ⟨rfl, ⟨_, rfl⟩, fun _ _ => rfl, rfl⟩
  unfold chargeCore
  dsimp only
  split
  · split
    · refine ⟨rfl, ⟨t, ?_⟩, fun j hj => ?_, length_cores_modCore ..⟩
      · rw [core_modCore_self (by exact hc)]
        rfl
      · rw [core_modCore_of_ne _ hj]
        rfl
    · exact unchanged
  · exact unchanged

theorem Charges.moved_eq (h : s.Charges c u) (k : Core) : u.moved c m k = s.moved c m k := by
  obtain ⟨n, hcore⟩ := h.core
  have hfree : ∀ i, u.laneFree i = s.laneFree i := fun i => by rw [h.frame]; rfl
  have hmove : ∀ free k m, Core.doMove free (u.core c) k m = Core.doMove free (s.core c) k m := fun free k m => by
    rw [hcore]
    cases m <;> rfl
  simp only [moved, hfree, hmove]

theorem Charges.canRun (h : s.Charges c u) (hrun : s.CanRun c m) : u.CanRun c m := by
  obtain ⟨n, hcore⟩ := h.core
  have hon : u.brewOn = s.brewOn := by rw [h.frame]; rfl
  refine ⟨?_, ?_, by rw [h.length]; exact hrun.present⟩
  · rw [← hrun.ready]
    simp only [coreReady, hon, hcore]
  · rw [← hrun.moves, hcore]
    rfl

end State

/-- HALT (R221): the core's work ends, or the work that waits for it begins. -/
theorem halt_executes {s : State} {c : Nat} {m : Moves} (h : s.CanRun c m) : ∃ t n, exec (.halt c m) s = .next t ∧
    t = { s with
      brew := { s.brew with cores := t.brew.cores, busy := t.brew.busy }, free := t.free, stats := t.stats
      out := t.out } ∧
    t.core c = s.moved c m (({ s.core c with since := n } : Core).past.ended s.time.now) ∧
    ∀ j, j ≠ c → t.core j = s.core j := by
  have charged : s.Charges c (if s.coreReady c then s.chargeCore c s.time.now else s) := by
    rw [if_pos h.ready]
    exact State.charges_chargeCore h.present _
  obtain ⟨n, hcore⟩ := charged.core
  have executed := State.executes_instr (bits := []) (op := fun k _ _ => some (k.ended s.time.now, []))
    (charged.canRun h) rfl
  refine ⟨_, n, rfl, ?_, ?_, fun j hj => (executed.others j hj).trans (charged.others j hj)⟩
  · rw [executed.frame, charged.frame]
  · rw [← charged.moved_eq, ← hcore]
    exact executed.core

/-! ## Output records (R227, R234) -/

/-- The record joins the program's output queue. -/
def Program.published (o : OutRec) (g : Program) : Program := { g with outputs := g.outputs ++ [o] }

/-- PUBLISH_OUTPUT_RECORD of a customer program, whose record is discarded once its core is being stopped. -/
theorem publishOutputRecord_executes {s : State} {c p : Nat} {m : Moves} (h : s.CanRun c m)
    (hwork : (s.core c).work = some (.customer p)) (b : List Byte) : ∃ u,
    exec (.publishOutputRecord c b m) s = .next (if (s.core c).stopping then u
      else u.modProg p (Program.published ⟨b, c, (s.core c).due, (s.core c).aborting, false⟩)) ∧
    s.Executes c m (s.core c).past u := by
  refine ⟨_, ?_, State.executes_instr (bits := []) (op := fun k _ _ => some (k, [])) h rfl⟩
  show execPublishOutputRecord c b m s = _
  unfold execPublishOutputRecord
  rw [hwork]
  dsimp only
  rw [h.ready, h.moves]
  cases (s.core c).stopping <;> rfl

end Sys2Proof.Machine
end

section
/-! The obligations of the vector, scalar and memory instructions (R203–R210), and the frame of every core
instruction. -/
namespace Sys2Proof.Machine
open Sys2Proof

namespace State

variable {s : State} {c : Nat} {m : Moves} {k : Core} {i : Instr}

/-- What holds of a core whatever moves do to it holds of the core that the instruction leaves. -/
theorem Runs.shows (h : s.Runs c m i k) {R : Core → Prop} (hR : ∀ e, R (k.after e)) :
    ∃ t, exec i s = .next t ∧ R (t.core c) := by
  obtain ⟨t, ht, executed⟩ := h
  obtain ⟨e, he⟩ := s.moved_eq_after c m
  exact ⟨t, ht, by rw [executed.core, he]; exact hR e⟩

theorem moved_v_congr {k k' : Core} (h : k.v = k'.v) : (s.moved c m k).v = (s.moved c m k').v := by
  obtain ⟨e, he⟩ := s.moved_eq_after c m
  rw [he, he]
  exact congrArg e.v h

theorem moved_ag_congr {k k' : Core} (h : k.ag = k'.ag) : (s.moved c m k).ag = (s.moved c m k').ag := by
  obtain ⟨e, he⟩ := s.moved_eq_after c m
  rw [he, he]
  exact congrArg e.ag h

theorem moved_pc (k : Core) : (s.moved c m k).pc = k.pc := by
  obtain ⟨e, he⟩ := s.moved_eq_after c m
  rw [he]
  rfl

theorem moved_s (k : Core) : (s.moved c m k).s = k.s := by
  obtain ⟨e, he⟩ := s.moved_eq_after c m
  rw [he]
  rfl

theorem Executes.mem {t : State} (h : s.Executes c m k t) : t.mem = s.mem := by rw [h.frame]

end State

/-- Settles O11: each clause is the lemma of its instruction, whose destination moves leave as it is; a vector register
that a move also loads is the move's. -/
theorem vectorInstructions : Obligations.VectorInstructions := by
  unfold Obligations.VectorInstructions
  refine ⟨?multiply, ?arithmetic, ?narrow, ?clear, ?laneSum, ?maximum, ?minimum, ?resetSigned, ?resetUnsigned, ?read⟩
  case multiply =>
    intro c op complex signedA signedB dst a b m s hready hmoves hc
    obtain ⟨_, hruns⟩ := vectorMultiplyAccumulate_runs ⟨hready, hmoves, hc⟩ op complex signedA signedB dst a b
    refine hruns.shows (R := fun k => k.a = _ ∧ k.pc = _) fun e => ⟨?_, rfl⟩
    refine congrArg (setAt (s.core c).a dst) (List.map_map.trans ?_)
    cases op <;> rfl
  case arithmetic =>
    intro c op wide signed dst a b d m s hready hmoves hc
    obtain ⟨t, ht, executed⟩ := vectorArithmeticLogic_runs ⟨hready, hmoves, hc⟩ op wide signed dst a b d
    refine ⟨t, ht, ?_, ?_⟩
    · rw [executed.core]
      exact State.moved_v_congr rfl
    · rw [executed.core, State.moved_pc]
  case narrow =>
    intro c src dst shift wide high saturate signed m s hready hmoves hc
    obtain ⟨_, t, ht, executed⟩ :=
      accumulatorMove_move_runs ⟨hready, hmoves, hc⟩ src dst shift wide high saturate signed
    refine ⟨t, ht, ?_, ?_⟩
    · rw [executed.core]
      exact State.moved_v_congr rfl
    · rw [executed.core, State.moved_pc]
  case clear =>
    intro c src m s hready hmoves hc
    exact (accumulatorMove_clear_runs ⟨hready, hmoves, hc⟩ src).shows (R := fun k => k.a = _ ∧ k.pc = _)
      fun e => ⟨rfl, rfl⟩
  case laneSum =>
    intro c src m s hready hmoves hc
    obtain ⟨_, hruns⟩ := accumulatorMove_laneSum_runs ⟨hready, hmoves, hc⟩ src
    exact hruns.shows (R := fun k => k.a = _ ∧ k.pc = _) fun e => ⟨rfl, rfl⟩
  case maximum =>
    intro c wide signed src base m s hready hmoves hc
    obtain ⟨best, idx, hruns, hbest, hlanes, hof⟩ := search_runs ⟨hready, hmoves, hc⟩ true wide signed src base
    obtain ⟨t, ht, hvalue, hindex, hpc⟩ :=
      hruns.shows (R := fun k => k.best = best ∧ k.bestIdx = idx ∧ k.pc = (s.core c).past.pc) fun e => ⟨rfl, rfl, rfl⟩
    refine ⟨t, ht, ?_⟩
    rw [hvalue, hindex]
    exact ⟨hbest, hlanes, hof, hpc⟩
  case minimum =>
    intro c wide signed src base m s hready hmoves hc
    obtain ⟨best, idx, hruns, hbest, hlanes, hof⟩ := search_runs ⟨hready, hmoves, hc⟩ false wide signed src base
    obtain ⟨t, ht, hvalue, hindex, hpc⟩ :=
      hruns.shows (R := fun k => k.best = best ∧ k.bestIdx = idx ∧ k.pc = (s.core c).past.pc) fun e => ⟨rfl, rfl, rfl⟩
    refine ⟨t, ht, ?_⟩
    rw [hvalue, hindex]
    exact ⟨hbest, hlanes, hof, hpc⟩
  case resetSigned =>
    intro c isMax wide m s hready hmoves hc
    exact (searchReset_runs ⟨hready, hmoves, hc⟩ isMax wide true).shows
      (R := fun k => k.best = _ ∧ k.bestIdx = _ ∧ k.pc = _) fun e => ⟨rfl, rfl, rfl⟩
  case resetUnsigned =>
    intro c isMax wide m s hready hmoves hc
    exact (searchReset_runs ⟨hready, hmoves, hc⟩ isMax wide false).shows
      (R := fun k => k.best = _ ∧ k.bestIdx = _ ∧ k.pc = _) fun e => ⟨rfl, rfl, rfl⟩
  case read =>
    intro c dstV dstI m s hready hmoves hc
    exact (searchRead_runs ⟨hready, hmoves, hc⟩ dstV dstI).shows (R := fun k => k.s = _ ∧ k.pc = _)
      fun e => ⟨rfl, rfl⟩

/-- Settles O12: each clause is the lemma of its instruction; of the state a load changes the core alone, and a store
cluster memory besides. -/
theorem scalarAndMemoryInstructions : Obligations.ScalarAndMemoryInstructions := by
  unfold Obligations.ScalarAndMemoryInstructions
  refine ⟨?scalar, ?moves, ?load, ?store, ?generator⟩
  case scalar =>
    intro c op signed dst dst2 a b m s hready hmoves hc
    exact (scalarOperation_runs ⟨hready, hmoves, hc⟩ op signed dst dst2 a b).shows (R := fun k => k.s = _ ∧ k.pc = _)
      fun e => ⟨rfl, rfl⟩
  case moves =>
    intro c m s hready hmoves hc
    obtain ⟨t, ht, executed⟩ := memoryMove_runs ⟨hready, hmoves, hc⟩
    exact ⟨t, ht, executed.core, executed.mem⟩
  case load =>
    intro c z m s hready hmoves hc hreach haligned hload
    obtain ⟨t, ht, executed⟩ :=
      memoryMove_load_runs ⟨hready, hmoves, hc⟩ (State.accessOk_of hreach haligned) hload
    refine ⟨t, ht, ?_, executed.mem, ?_⟩
    · rw [executed.core, State.moved_s]
      rfl
    · rw [executed.core, State.moved_pc]
  case store =>
    intro c z m s hready hmoves hc hreach haligned hstore
    obtain ⟨u, ht, executed⟩ :=
      memoryMove_store_executes ⟨hready, hmoves, hc⟩ (State.accessOk_of hreach haligned) hstore
    refine ⟨_, ht, congrArg (memWrite · _ _) executed.mem, ?_, ?_⟩
    · exact (congrArg Core.s executed.core).trans (State.moved_s _)
    · exact (congrArg Core.pc executed.core).trans (State.moved_pc _)
  case generator =>
    intro c n g m s hready hmoves hc
    obtain ⟨t, ht, executed⟩ := addressGeneratorSetup_runs ⟨hready, hmoves, hc⟩ n g
    refine ⟨t, ht, ?_, ?_⟩
    · rw [executed.core]
      exact State.moved_ag_congr rfl
    · rw [executed.core, State.moved_pc]

end Sys2Proof.Machine
end

section
/-! What an instruction of a core leaves as it is (R203–R210), and the obligation. -/
namespace Sys2Proof.Machine
open Sys2Proof

/-! ## The frame of an instruction -/

namespace State

variable {s : State} {c : Nat} {m : Moves} {k : Core} {i : Instr}

/-- An instruction changes its core and no other; `P` compares the core with what the moves and the flow of instructions
alone make of it. -/
theorem Runs.frame (h : s.Runs c m i k) {P : Core → Core → Prop} (hP : ∀ e, P (k.after e) ((s.core c).past.after e)) :
    ∃ t, exec i s = .next t ∧
      t = { s with brew := { s.brew with cores := t.brew.cores }, free := t.free, stats := t.stats, out := t.out } ∧
      P (t.core c) (s.moved c m (s.core c).past) ∧ ∀ j, j ≠ c → t.core j = s.core j := by
  obtain ⟨t, ht, executed⟩ := h
  obtain ⟨e, he⟩ := s.moved_eq_after c m
  refine ⟨t, ht, executed.frame, ?_, executed.others⟩
  rw [executed.core, he, he]
  exact hP e

/-- The same with what `Q` compares of the registers of the destination's kind. -/
theorem Runs.frame_registers (h : s.Runs c m i k) {P Q : Core → Core → Prop}
    (hP : ∀ e, P (k.after e) ((s.core c).past.after e)) (hQ : ∀ e, Q (k.after e) ((s.core c).past.after e)) :
    ∃ t, exec i s = .next t ∧
      t = { s with brew := { s.brew with cores := t.brew.cores }, free := t.free, stats := t.stats, out := t.out } ∧
      P (t.core c) (s.moved c m (s.core c).past) ∧ Q (t.core c) (s.moved c m (s.core c).past) ∧
      ∀ j, j ≠ c → t.core j = s.core j := by
  obtain ⟨t, ht, hframe, ⟨hp, hq⟩, hothers⟩ := h.frame (P := fun k k' => P k k' ∧ Q k k') fun e => ⟨hP e, hQ e⟩
  exact ⟨t, ht, hframe, hp, hq, hothers⟩

end State

theorem getD_setAt_of_ne {α : Type} {i j : Nat} (h : j ≠ i) (l : List α) (v d : α) :
    (setAt l i v).getD j d = l.getD j d :=
  getD_eq_of_getElem?_eq (getElem?_setAt_of_ne h l v) d

theorem length_leBytes (n v : Nat) : (leBytes n v).length = n := by
  induction n generalizing v with
  | zero => rfl
  | succ n ih => rw [leBytes, List.length_cons, ih]

/-- A write leaves every byte beside its own as it was. -/
theorem memGet_memWrite_of_outside {mem : List Host.Cell} {a x : Nat} {bs : List Byte} (hmem : Memory.wf mem = true)
    (h : x < a ∨ a + bs.length ≤ x) : memGet (memWrite mem a bs) x = memGet mem x := by
  rw [memGet_memWrite mem a bs x hmem, if_neg (by omega)]

/-- Settles O54: each instruction changes its core by the lemma of that instruction; the moves make of the other
registers what they make of them on the core that only goes to its next instruction. -/
theorem coreInstructionFrame : Obligations.CoreInstructionFrame := by
  unfold Obligations.CoreInstructionFrame
  refine ⟨?multiply, ?arithmetic, ?narrow, ?clear, ?laneSum, ?search, ?reset, ?read, ?scalar, ?moves, ?load, ?store,
    ?generator, ?branch, ?loop, ?event, ?halt, ?dma, ?waitDma, ?publish⟩
  case multiply =>
    intro c op complex signedA signedB dst a b m s hready hmoves hc
    obtain ⟨_, hruns⟩ := vectorMultiplyAccumulate_runs ⟨hready, hmoves, hc⟩ op complex signedA signedB dst a b
    exact hruns.frame_registers (P := fun k k' => k = { k' with a := k.a, accOvf := k.accOvf })
      (Q := fun k k' => ∀ j, j ≠ dst → k.a.getD j [] = k'.a.getD j []) (fun e => rfl)
      fun e j hj => getD_setAt_of_ne hj ..
  case arithmetic =>
    intro c op wide signed dst a b d m s hready hmoves hc
    exact (vectorArithmeticLogic_runs ⟨hready, hmoves, hc⟩ op wide signed dst a b d).frame_registers
      (P := fun k k' => k = { k' with v := k.v }) (Q := fun k k' => ∀ j, j ≠ dst → k.v.getD j 0 = k'.v.getD j 0)
      (fun e => rfl) fun e j hj => e.v_elementwise.getD_eq (getElem?_setAt_of_ne hj ..) 0
  case narrow =>
    intro c src dst shift wide high saturate signed m s hready hmoves hc
    obtain ⟨_, hruns⟩ := accumulatorMove_move_runs ⟨hready, hmoves, hc⟩ src dst shift wide high saturate signed
    exact hruns.frame_registers (P := fun k k' => k = { k' with v := k.v, sat := k.sat })
      (Q := fun k k' => ∀ j, j ≠ dst → k.v.getD j 0 = k'.v.getD j 0) (fun e => rfl)
      fun e j hj => e.v_elementwise.getD_eq (getElem?_setAt_of_ne hj ..) 0
  case clear =>
    intro c src m s hready hmoves hc
    exact (accumulatorMove_clear_runs ⟨hready, hmoves, hc⟩ src).frame_registers
      (P := fun k k' => k = { k' with a := k.a })
      (Q := fun k k' => ∀ j, j ≠ src → k.a.getD j [] = k'.a.getD j []) (fun e => rfl)
      fun e j hj => getD_setAt_of_ne hj ..
  case laneSum =>
    intro c src m s hready hmoves hc
    obtain ⟨_, hruns⟩ := accumulatorMove_laneSum_runs ⟨hready, hmoves, hc⟩ src
    exact hruns.frame_registers (P := fun k k' => k = { k' with a := k.a, accOvf := k.accOvf })
      (Q := fun k k' => ∀ j, j ≠ src → k.a.getD j [] = k'.a.getD j []) (fun e => rfl)
      fun e j hj => getD_setAt_of_ne hj ..
  case search =>
    intro c isMax wide signed src base m s hready hmoves hc
    obtain ⟨_, _, hruns, -⟩ := search_runs ⟨hready, hmoves, hc⟩ isMax wide signed src base
    exact hruns.frame (P := fun k k' => k = { k' with best := k.best, bestIdx := k.bestIdx }) fun e => rfl
  case reset =>
    intro c isMax wide signed m s hready hmoves hc
    exact (searchReset_runs ⟨hready, hmoves, hc⟩ isMax wide signed).frame
      (P := fun k k' => k = { k' with best := k.best, bestIdx := k.bestIdx }) fun e => rfl
  case read =>
    intro c dstV dstI m s hready hmoves hc
    exact (searchRead_runs ⟨hready, hmoves, hc⟩ dstV dstI).frame_registers (P := fun k k' => k = { k' with s := k.s })
      (Q := fun k k' => ∀ j, j ≠ dstV → j ≠ dstI → k.s.getD j 0 = k'.s.getD j 0) (fun e => rfl)
      fun e j hv hi => (getD_setAt_of_ne hi ..).trans (getD_setAt_of_ne hv ..)
  case scalar =>
    intro c op signed dst dst2 a b m s hready hmoves hc
    refine (scalarOperation_runs ⟨hready, hmoves, hc⟩ op signed dst dst2 a b).frame_registers
      (P := fun k k' => k = { k' with s := k.s })
      (Q := fun k k' => ∀ j, j ≠ dst → (j ≠ dst2 ∨ (op ≠ .mul ∧ op ≠ .div)) → k.s.getD j 0 = k'.s.getD j 0)
      (fun e => rfl) fun e j hj hj2 => ?_
    simp only [Core.after]
    split
    next htwo =>
      exact (getD_setAt_of_ne (hj2.resolve_right fun hone => htwo.elim hone.1 hone.2) ..).trans
        (getD_setAt_of_ne hj ..)
    next => exact getD_setAt_of_ne hj ..
  case moves =>
    intro c m s hready hmoves hc
    exact (memoryMove_runs ⟨hready, hmoves, hc⟩).frame (P := fun k k' => k = k') fun e => rfl
  case load =>
    intro c z m s hready hmoves hc hreach haligned hload
    exact (memoryMove_load_runs ⟨hready, hmoves, hc⟩ (State.accessOk_of hreach haligned) hload).frame_registers
      (P := fun k k' => k = { k' with s := k.s }) (Q := fun k k' => ∀ j, j ≠ z.reg → k.s.getD j 0 = k'.s.getD j 0)
      (fun e => rfl) fun e j hj => getD_setAt_of_ne hj ..
  case store =>
    intro c z m s hready hmoves hc hreach haligned hstore hmem
    obtain ⟨u, ht, executed⟩ :=
      memoryMove_store_executes ⟨hready, hmoves, hc⟩ (State.accessOk_of hreach haligned) hstore
    refine ⟨_, ht, ?_, executed.core, executed.others, fun x hx => ?_⟩
    · rw [executed.frame]
      rfl
    · show memGet (memWrite u.mem _ _) x = _
      rw [executed.mem]
      exact memGet_memWrite_of_outside hmem (by rwa [length_leBytes])
  case generator =>
    intro c n g m s hready hmoves hc
    exact (addressGeneratorSetup_runs ⟨hready, hmoves, hc⟩ n g).frame_registers
      (P := fun k k' => k = { k' with ag := k.ag }) (Q := fun k k' => ∀ j : Nat, j ≠ n → k.ag[j]? = k'.ag[j]?)
      (fun e => rfl) fun e j hj => e.ag_elementwise _ _ j (getElem?_setAt_of_ne hj ..)
  case branch =>
    intro c j cond m s hready hmoves hc hroom
    obtain ⟨_, _, hruns⟩ := branchCallReturn_runs (cond := cond) ⟨hready, hmoves, hc⟩ j hroom
    exact hruns.frame (P := fun k k' => k = { k' with pc := k.pc, rets := k.rets }) fun e => rfl
  case loop =>
    intro c last count m s hready hmoves hc hroom
    obtain ⟨_, _, hruns⟩ := hardwareLoop_runs (last := last) (count := count) ⟨hready, hmoves, hc⟩ hroom
    exact hruns.frame (P := fun k k' => k = { k' with pc := k.pc, loops := k.loops }) fun e => rfl
  case event =>
    intro c m s hready hmoves hc
    exact (waitForEvent_runs ⟨hready, hmoves, hc⟩).frame (P := fun k k' => k = { k' with waitEvent := k.waitEvent })
      fun e => rfl
  case halt =>
    intro c m s hready hmoves hc
    obtain ⟨t, n, ht, hframe, hcore, hothers⟩ := halt_executes ⟨hready, hmoves, hc⟩
    obtain ⟨e, he⟩ := s.moved_eq_after c m
    obtain ⟨_, _, _, _, _, _, _, hended⟩ := ({ s.core c with since := n } : Core).past.ended_eq s.time.now
    have hpast := he (s.core c).past
    unfold State.moved at hpast
    refine ⟨t, ht, hframe, ?_, hothers⟩
    rw [hpast, hcore, hended, he]
    rfl
  case dma =>
    intro c d m s hready hmoves hc hroom
    exact (queueCoreDma_runs ⟨hready, hmoves, hc⟩ hroom).frame
      (P := fun k k' => k = { k' with dma := k.dma }) fun e => rfl
  case waitDma =>
    intro c left m s hready hmoves hc
    exact (waitDmaCompletion_runs ⟨hready, hmoves, hc⟩ left).frame
      (P := fun k k' => k = { k' with waitDma := k.waitDma }) fun e => rfl
  case publish =>
    intro c p b m s hready hmoves hc hwork
    obtain ⟨u, ht, executed⟩ := publishOutputRecord_executes ⟨hready, hmoves, hc⟩ hwork b
    have hprogs : u.brew.progs = s.brew.progs := by rw [executed.frame]
    refine ⟨_, ht, ?_⟩
    split
    · refine ⟨?_, executed.core, executed.others, fun j _ => by rw [hprogs]⟩
      rw [hprogs]
      exact executed.frame
    · refine ⟨?_, executed.core, executed.others, fun j hj => ?_⟩
      · rw [executed.frame]
        rfl
      · show (modAt u.brew.progs p _).getD j {} = _
        rw [hprogs]
        exact getD_eq_of_getElem?_eq (by rw [getElem?_modAt, if_neg hj.symm]) _

end Sys2Proof.Machine
end

section
/-! Exceptions (R221, R223), the DMA of a core (R203, R234) and the flow of its instructions: the obligation. -/
namespace Sys2Proof.Machine
open Sys2Proof

/-- From `s` to `t` no fault has been counted, and no status bit has changed. -/
structure State.KeepsFaults (s t : State) : Prop where
  faults : t.brew.faults = s.brew.faults
  bwf : t.bwf = s.bwf
  stats : t.stats = s.stats

namespace State

/-! ## What counts no fault -/

namespace KeepsFaults

variable {s t u : State}

theorem refl (s : State) : s.KeepsFaults s := ⟨rfl, rfl, rfl⟩

theorem trans (h : s.KeepsFaults t) (h' : t.KeepsFaults u) : s.KeepsFaults u :=
  ⟨h'.faults.trans h.faults, h'.bwf.trans h.bwf, h'.stats.trans h.stats⟩

theorem modPort (h : s.KeepsFaults t) (q : Port) (f : PortState → PortState) : s.KeepsFaults (t.modPort q f) :=
  h.trans ⟨by rw [modPort_brew], modPort_bwf .., modPort_stats ..⟩

theorem modCore (h : s.KeepsFaults t) (c : Nat) (f : Core → Core) : s.KeepsFaults (t.modCore c f) :=
  h.trans ⟨rfl, rfl, rfl⟩

theorem modProg (h : s.KeepsFaults t) (p : Nat) (f : Program → Program) : s.KeepsFaults (t.modProg p f) :=
  h.trans ⟨rfl, rfl, rfl⟩

theorem write (h : s.KeepsFaults t) (a : Nat) (bs : List Byte) : s.KeepsFaults (t.write a bs) :=
  h.trans ⟨rfl, rfl, rfl⟩

theorem toExport (h : s.KeepsFaults t) (r : ExportRec) : s.KeepsFaults (t.toExport r) :=
  h.trans ⟨by rw [toExport_brew], toExport_bwf .., toExport_stats ..⟩

/-- A branch is taken or it is not. -/
theorem ite {c : Prop} [Decidable c] (h : s.KeepsFaults t) (h' : s.KeepsFaults u) :
    s.KeepsFaults (if c then t else u) := by
  split
  · exact h
  · exact h'

theorem foldl {α : Type} {f : State → α → State} (h : s.KeepsFaults t)
    (hf : ∀ (u : State) (x : α), u.KeepsFaults (f u x))
    (l : List α) : s.KeepsFaults (l.foldl f t) := by
  induction l generalizing t with
  | nil => exact h
  | cons x xs ih => exact ih (h.trans (hf t x))

theorem deliver (h : s.KeepsFaults t) (q : Port) (cel : Bool) (ring type : Nat) (exp : Bool) (kind time ell lt ch : Nat)
    (bytes : List Byte) : s.KeepsFaults (t.deliver q cel ring type exp kind time ell lt ch bytes) := by
  have stored : s.KeepsFaults (if cel then t.toRing q ⟨ring, type, time, ell, bytes, lt, ch⟩ else t) :=
    .ite (h.modPort ..) h
  exact .ite (stored.toExport _) stored

theorem publishDet (h : s.KeepsFaults t) (q : Port) (r : DetRec) (first : Nat) :
    s.KeepsFaults (t.publishDet q r first) := by
  unfold State.publishDet
  exact deliver (h.modPort q _) ..

end KeepsFaults

/-! ## An exception (R221, R223) -/

theorem keepsFaults_detEnd (s : State) (q : Port) (w : DetWork) : s.KeepsFaults (s.detEnd q w) := by
  have done : ∀ f, s.KeepsFaults (s.modDet q f) := fun f => (KeepsFaults.refl s).modPort q _
  unfold detEnd
  refine .ite ((done _).publishDet ..) (.ite (((done _).modPort q _).publishDet ..) ?_)
  exact KeepsFaults.publishDet (.foldl ((done _).modPort q _) (fun u x => (KeepsFaults.refl u).write ..) _) ..

theorem keepsFaults_markOutputs (s : State) (c : Nat) (poison : Bool) : s.KeepsFaults (s.markOutputs c poison) := by
  unfold markOutputs
  split
  · exact (KeepsFaults.refl s).modProg ..
  · exact .refl s

theorem keepsFaults_chargeCore (s : State) (c t : Nat) : s.KeepsFaults (s.chargeCore c t) := by
  unfold chargeCore
  dsimp only
  split
  · split
    · exact ⟨rfl, rfl, rfl⟩
    · exact .refl s
  · exact .refl s

/-- R223: what the end of the work by an exception does counts no further fault. -/
theorem keepsFaults_workFault (s : State) (c : Nat) (w : Work) (poison : Bool) (fitted : Nat) :
    s.KeepsFaults (s.workFault c w poison fitted) := by
  cases w with
  | detect q =>
    unfold workFault
    dsimp only
    split
    · exact .ite (keepsFaults_detEnd ..) ((KeepsFaults.refl s).modPort q _)
    · exact .refl s
  | track q => exact (KeepsFaults.refl s).foldl (fun u q => (KeepsFaults.refl u).modPort q _) _
  | fit q =>
    show s.KeepsFaults (s.modFit q _)
    unfold modFit modKiln
    exact (KeepsFaults.refl s).modPort q _
  | customer p =>
    have counted := fun f => (KeepsFaults.refl s).modProg p f
    refine .ite (KeepsFaults.modProg ?_ p _) (counted _)
    exact (counted _).foldl (fun u k => (KeepsFaults.refl u).modCore ..) _

/-- R223: an exception counts, sets CORE_FAULT of BREW_STAT and raises the contained fault. -/
theorem coreException_faults (s : State) (c cause fitted : Nat) :
    (s.coreException c cause fitted).brew.faults = satAdd 0xFFFFFFFF s.brew.faults 1 ∧
      ((s.coreException c cause fitted).stat stBrew).has 0 = true ∧
      (s.coreException c cause fitted).bwf.contained = satAdd 0xFFFFFFFF s.bwf.contained 1 := by
  unfold coreException
  extract_lets w out s1 s2 brew s3 s4
  have ended : s.KeepsFaults s2 :=
    ((keepsFaults_markOutputs ..).trans (keepsFaults_chargeCore ..)).modCore ..
  have told : s4.brew.faults = satAdd 0xFFFFFFFF s.brew.faults 1 ∧ (s4.stat stBrew).has 0 = true ∧
      s4.bwf.contained = satAdd 0xFFFFFFFF s.bwf.contained 1 := by
    refine ⟨?_, ?_, ?_⟩
    · rw [contained_brew, raise_brew, ← ended.faults]
    · exact ((Keeps.refl _).contained ..).bits _ _ (stat_has_raise_self _ (List.mem_singleton_self 0))
    · rw [contained_count, raise_bwf, ← ended.bwf]
  clear_value w
  cases w with
  | none => exact told
  | some w =>
    have faulted := keepsFaults_workFault s4 c w (cause == 1) fitted
    dsimp only
    rwa [faulted.faults, stat_of_stats_eq faulted.stats, faulted.bwf]

/-! ## The DMA of a core (R203, R234) -/

/-- The oldest descriptor has left core `c`'s queue. -/
def dequeued (s : State) (c : Nat) (rest : List (Option Nat × DmaDesc)) : State :=
  s.modCore c fun k => { k with dma := rest }

variable {s : State} {c : Nat} {rest : List (Option Nat × DmaDesc)} {p : Option Nat} {d : DmaDesc} {b : List Byte}

theorem core_dequeued (hc : c < s.brew.cores.length) : (s.dequeued c rest).core c = { s.core c with dma := rest } :=
  core_modCore_self hc _

theorem dmaRead_dequeued (hc : c < s.brew.cores.length) (owner : Option Nat) (place a n : Nat) :
    (s.dequeued c rest).dmaRead c owner place a n = s.dmaRead c owner place a n := by
  simp only [dmaRead, core_dequeued hc]
  rfl

/-- Work of a customer program reaches neither pool nor Kiln SRAM (R234). -/
theorem dmaRead_customer (s : State) (c q : Nat) {place : Nat} (h : place = 3 ∨ place = 4) (a n : Nat) :
    s.dmaRead c (some q) place a n = none := by
  obtain rfl | rfl := h
  · simp [dmaRead]
  · simp [dmaRead]

/-- A record leaves a stream ring only where a ring is the source. -/
theorem ringTake_of_src (s : State) (p : Option Nat) (h : d.src < 5) : s.ringTake p d = s := by
  cases p with
  | none => rfl
  | some q =>
    unfold ringTake
    dsimp only
    rw [if_neg (by omega), if_neg (by omega)]

end State

section
variable {s : State} {c : Nat} {rest : List (Option Nat × DmaDesc)} {p : Option Nat} {d : DmaDesc} {b : List Byte}
  (hon : s.brewOn = true) (h16 : c < 16) (hc : c < s.brew.cores.length) (hdma : (s.core c).dma = (p, d) :: rest)
include hon h16 hc hdma

/-- CORE_DMA_COMPLETE whose source and destination the work may reach. -/
theorem exec_coreDmaComplete {t : State} (hread : s.dmaRead c p d.src d.srcAddr d.len = some b) (hsrc : d.src < 5)
    (hwrite : (s.dequeued c rest).dmaWrite c p d.dst d.dstAddr b = some t) :
    exec (.coreDmaComplete c false) s = .next t := by
  have hread' := (State.dmaRead_dequeued (rest := rest) hc p d.src d.srcAddr d.len).trans hread
  unfold State.dequeued at hread' hwrite
  show execCoreDmaComplete c false s = _
  simp [execCoreDmaComplete, hon, h16, hdma, hread', hwrite, State.ringTake_of_src t p hsrc]

/-- CORE_DMA_COMPLETE whose source the work may not reach. -/
theorem exec_coreDmaComplete_of_unreachable (hread : s.dmaRead c p d.src d.srcAddr d.len = none) :
    exec (.coreDmaComplete c false) s = .next ((s.dequeued c rest).coreException c 0 0) := by
  have hread' := (State.dmaRead_dequeued (rest := rest) hc p d.src d.srcAddr d.len).trans hread
  unfold State.dequeued at hread' ⊢
  show execCoreDmaComplete c false s = _
  simp [execCoreDmaComplete, hon, h16, hdma, hread']

end

/-! ## The flow of instructions (R203, R223) -/

theorem Core.ended_of_again_none {k : Core} (h : k.again = none) (now : Nat) : k.ended now = k.idle := by
  simp only [ended, h]

theorem Core.ended_of_again {k : Core} {p d : Nat} (hwork : k.work = some (.customer p)) (hagain : k.again = some d)
    (now : Nat) : k.ended now = k.start (.customer p) 1 (some d) now := by
  simp only [ended, hwork, hagain]

theorem Core.jump_ret {k : Core} {a : Nat} {r : List Nat} (h : k.rets = a :: r) (free : Nat) :
    k.jump free .ret = some { k with pc := a, rets := r } := by
  simp only [jump, h]

theorem getD_modAt_self {α : Type} {l : List α} {i : Nat} (h : i < l.length) (f : α → α) (d : α) :
    (modAt l i f).getD i d = f (l.getD i d) := by
  simp only [List.getD_eq_getElem?_getD, getElem?_modAt, if_pos, List.getElem?_eq_getElem h, Option.map_some,
    Option.getD_some]

/-- Settles O13: each clause is the lemma of its instruction; a DMA completes as its source and destination allow, and
an exception counts by `coreException_faults`. -/
theorem controlInstructions : Obligations.ControlInstructions := by
  unfold Obligations.ControlInstructions
  refine ⟨?skipped, ?branch, ?call, ?ret, ?enter, ?skip, ?event, ?halt, ?queue, ?waitDma, ?toX, ?toY, ?toCluster,
    ?toPool, ?unreachable, ?publish⟩
  case skipped =>
    intro c j cond m s hready hmoves hc hcond
    exact (branchCallReturn_runs_of_not_holds ⟨hready, hmoves, hc⟩ j hcond).shows
      (R := fun k => k.pc = _ ∧ k.rets = _) fun e => ⟨rfl, rfl⟩
  case branch =>
    intro c a cond m s hready hmoves hc hcond
    exact (branchCallReturn_runs_of_holds (j := .branch a) ⟨hready, hmoves, hc⟩ hcond rfl).shows
      (R := fun k => k.pc = _ ∧ k.rets = _) fun e => ⟨rfl, rfl⟩
  case call =>
    intro c a cond m s hready hmoves hc hcond hroom
    exact (branchCallReturn_runs_of_holds (j := .call a) ⟨hready, hmoves, hc⟩ hcond
      (if_neg (Nat.not_le.mpr hroom))).shows (R := fun k => k.pc = _ ∧ k.rets = _) fun e => ⟨rfl, rfl⟩
  case ret =>
    intro c a r cond m s hready hmoves hc hcond hrets
    exact (branchCallReturn_runs_of_holds (j := .ret) ⟨hready, hmoves, hc⟩ hcond
      (Core.jump_ret (k := (s.core c).past) hrets _)).shows
      (R := fun k => k.pc = _ ∧ k.rets = _) fun e => ⟨rfl, rfl⟩
  case enter =>
    intro c last count m s hready hmoves hc hroom hcount
    exact (hardwareLoop_enter_runs ⟨hready, hmoves, hc⟩ hroom hcount).shows (R := fun k => k.loops = _ ∧ k.pc = _)
      fun e => ⟨rfl, rfl⟩
  case skip =>
    intro c last count m s hready hmoves hc hroom hcount
    exact (hardwareLoop_skip_runs ⟨hready, hmoves, hc⟩ hroom hcount).shows (R := fun k => k.loops = _ ∧ k.pc = _)
      fun e => ⟨rfl, rfl⟩
  case event =>
    intro c m s hready hmoves hc
    have hrunning : (s.core c).running = true := by
      simp only [State.coreReady, Bool.and_eq_true] at hready
      obtain ⟨⟨⟨-, hrunning⟩, -⟩, -⟩ := hready
      exact hrunning
    exact (waitForEvent_runs ⟨hready, hmoves, hc⟩).shows
      (R := fun k => k.waitEvent = true ∧ k.running = true ∧ k.pc = _) fun e => ⟨rfl, hrunning, rfl⟩
  case halt =>
    intro c m s hready hmoves hc
    obtain ⟨t, n, ht, -, hcore, -⟩ := halt_executes ⟨hready, hmoves, hc⟩
    obtain ⟨e, he⟩ := s.moved_eq_after c m
    refine ⟨t, ht, fun hagain => ?_, fun p d hwork hagain => ?_⟩
    · rw [hcore, he, Core.ended_of_again_none (by exact hagain)]
      exact ⟨rfl, rfl⟩
    · rw [hcore, he, Core.ended_of_again (by exact hwork) (by exact hagain)]
      exact ⟨rfl, rfl, rfl, rfl⟩
  case queue =>
    intro c d m s hready hmoves hc hroom
    exact (queueCoreDma_runs ⟨hready, hmoves, hc⟩ hroom).shows (R := fun k => k.dma = _ ∧ k.pc = _) fun e => ⟨rfl, rfl⟩
  case waitDma =>
    intro c left m s hready hmoves hc
    exact (waitDmaCompletion_runs ⟨hready, hmoves, hc⟩ left).shows (R := fun k => k.waitDma = _ ∧ k.pc = _)
      fun e => ⟨rfl, rfl⟩
  case toX =>
    intro c p d rest b s hon h16 hc hdma hread hsrc hdst hfits
    refine ⟨_, exec_coreDmaComplete hon h16 hc hdma hread hsrc (if_pos ⟨hdst, hfits⟩), ?_⟩
    rw [State.core_modCore_self (by rwa [State.dequeued, State.length_cores_modCore]), State.core_dequeued hc]
    exact ⟨rfl, rfl, rfl, rfl⟩
  case toY =>
    intro c p d rest b s hon h16 hc hdma hread hsrc hdst hfits
    refine ⟨_, exec_coreDmaComplete hon h16 hc hdma hread hsrc ((if_neg (by omega)).trans (if_pos ⟨hdst, hfits⟩)), ?_⟩
    rw [State.core_modCore_self (by rwa [State.dequeued, State.length_cores_modCore]), State.core_dequeued hc]
    exact ⟨rfl, rfl, rfl, rfl⟩
  case toCluster =>
    intro c p d rest b s hon h16 hc hdma hread hsrc hdst hreach
    refine ⟨_, exec_coreDmaComplete hon h16 hc hdma hread hsrc ((if_neg (by omega)).trans ((if_neg (by omega)).trans
      (if_pos ⟨hdst, hreach⟩))), rfl, ?_⟩
    have hcore : ((s.dequeued c rest).write (clusterBase + d.dstAddr) b).core c = _ := State.core_dequeued hc
    rw [hcore]
    exact ⟨rfl, rfl, rfl⟩
  case toPool =>
    intro c p d rest b s hon h16 hc hdma hread hsrc hdst howner hfits
    refine ⟨_, exec_coreDmaComplete hon h16 hc hdma hread hsrc ((if_neg (by omega)).trans ((if_neg (by omega)).trans
      ((if_neg (by omega)).trans (if_pos ⟨hdst, by rw [howner]; rfl, hfits⟩)))), rfl, ?_⟩
    have hcore : ((s.dequeued c rest).write (poolBase + d.dstAddr) b).core c = _ := State.core_dequeued hc
    rw [hcore]
    exact ⟨rfl, rfl, rfl⟩
  case unreachable =>
    intro c q d rest s hon h16 hc hdma hsrc
    exact ⟨_, exec_coreDmaComplete_of_unreachable hon h16 hc hdma (s.dmaRead_customer c q hsrc ..),
      (s.dequeued c rest).coreException_faults c 0 0⟩
  case publish =>
    intro c p b m s hready hmoves hc hwork hp hstopping
    obtain ⟨u, ht, executed⟩ := publishOutputRecord_executes ⟨hready, hmoves, hc⟩ hwork b
    have hprogs : u.brew.progs = s.brew.progs := by rw [executed.frame]
    rw [hstopping, if_neg Bool.false_ne_true] at ht
    refine ⟨_, ht, ?_, (congrArg Core.pc executed.core).trans (State.moved_pc _)⟩
    show ((modAt u.brew.progs p _).getD p {}).outputs = _
    rw [hprogs, getD_modAt_self hp]
    rfl

end Sys2Proof.Machine
end

section
/-! A statement that the model does not meet: port A's tracking falls to a core that still works on port B's. -/
namespace Sys2Proof.Machine
open Sys2Proof

/-- A detection record without entries. -/
def emptyDetRec : DetRec :=
  { time := 0, tide := 999, epoch := 0, entries := [], flags := 0, groups := 2, group := 1, evaluated := true, nth := 0
    cfg := {} }

/-- Tracking is enabled at port A, whose detection has ended. The tracking pool is core 5, which works on port B's
tracking. -/
def trackingPortB : State :=
  ({ State.reset with
    power := { phase := .running }
    regs := [(regKey 0x20 0, 1), (regKey 0x20 0x14, 3 * 8 ^ 5)]
    brew := { cores := setAt (List.replicate 16 {}) 5 { running := true, work := some (.track .b) } }
    pa := { det := { done := some emptyDetRec } }
    pb := { trk := { work := some (5, emptyDetRec) } } } : State).setObj 0x6030 1 (u8 1)

/-- R218: port A's record waits for the core, whose work is still port B's tracking. -/
theorem trackingPortB_dispatch {t : State} (ht : exec .trackingDispatch trackingPortB = .next t) :
    (t.core 5).work = some (.track .b) :=
  shown_eq_of_next (f := fun t => (t.core 5).work) ht (by decide +kernel)

/-- Refutes O14: TRACKING_DISPATCH gives port A's record to core 5 of `trackingPortB`, which goes on with port B's
tracking first, where the ninth clause has the core start on port A's at once. -/
theorem not_coreFaultsAndDispatch : ¬ Obligations.CoreFaultsAndDispatch := by
  unfold Obligations.CoreFaultsAndDispatch
  rintro ⟨-, -, -, -, -, -, -, -, htracking, -⟩
  obtain ⟨t, ht, -, hcore⟩ :=
    htracking emptyDetRec trackingPortB (by decide +kernel) (by decide +kernel) rfl (by decide +kernel)
      (by decide +kernel) (by decide +kernel) rfl (by decide +kernel)
  have hpool : (trackingPortB.poolCores 3).getD 0 0 = 5 := by decide +kernel
  rw [hpool] at hcore
  obtain ⟨-, hwork⟩ := hcore (by decide)
  exact absurd (hwork.symm.trans (trackingPortB_dispatch ht)) (by decide)

end Sys2Proof.Machine
end
